-- ==== Sys2Proof/Word.lean ====
section
/-! DEFINITION. The word types of the Gemir architecture (02_encoding.md R38, R67) and the shape of
sparse plain data. A register, a parcel, a literal and a byte are bit vectors; an address used as a
key, a register number and a count are natural numbers. -/

namespace Sys2Proof

/-- A register word: v, s and special registers hold 32 bits (R67). -/
abbrev Word := BitVec 32
/-- A byte of memory. -/
abbrev Byte := BitVec 8
/-- A 64-bit value: an accumulator element, a timeline value, a pair of registers. -/
abbrev DWord := BitVec 64
/-- A set of lanes, lane l at bit l (R82 MASK, R70 MMASK). -/
abbrev LaneMask := BitVec 32

/-- Sparse data by number: keys strictly rising, no entry equal to the value an unlisted key has.
`Machine/SMap.lean` holds its operations. -/
abbrev SMap (α : Type) := List (Nat × α)

/-- The lane l is in the set m. -/
def inMask (m : LaneMask) (l : Nat) : Bool := m.getLsbD l

end Sys2Proof
end

