-- ==== Sys2Proof/Syntax.lean ====
section
/-! DEFINITION. The instructions of the Gemir architecture and the events of the machine that have
no encoding: one constructor for each row of the opcode table. Operand fields are the numbers the
word holds; 02_encoding.md R45-R60 says which field is which.

Lean's compiler can build at most 245 constructors with fields. The constructors whose checks another
constructor shares (a compact form has those of its equivalent, R57) and the events stand last, so that every
meaning compiles; only the decoder, which builds them all, does not. -/

namespace Sys2Proof

/-- The guard and stall fields of a 32-bit word (R41): guard enable, guard sense, guard predicate and
stall count. The stall count of majors 22 to 27 is 0 (R43). -/
structure Hdr where
  ge : Bool
  gs : Bool
  gp : Nat
  stl : Nat
  deriving DecidableEq, Repr, Inhabited

/-- The fields of an unguarded word that owes no stall. -/
def Hdr.plain : Hdr := ⟨false, false, 0, 0⟩

/-- An arm word of MBR (R60): the offset field, the sense and the predicate. -/
structure Arm where
  off : Nat
  sense : Bool
  p : Nat
  deriving DecidableEq, Repr, Inhabited

/-- What another module brings to a collective (R400-R405): its rank, the COMM of its command and how many of that COMM it
accepted before, the command's kind (fn), mask, count, TYPE, OP and ROOT, the tick in which its data was sent, its source
bytes, and whether it faulted or can no longer be reached. DESIGN CHOICE, log entry 65. -/
structure PeerPart where
  rank : Nat
  comm : Nat
  k : Nat
  fn : Nat
  mask : Nat
  n : Nat
  ty : Nat
  op : Nat
  root : Nat
  tick : Nat
  data : List Byte
  lost : Bool
  deriving DecidableEq, Repr, Inhabited

/-- An access of another module to this module's memory over Shagal (R394, R405): a read of n bytes, a
write (poisoned or clean), an atomic with its operation number (the row of R224) and operand bytes, and the
end marker of a tick. `own` is a change that the peer makes to its own memory. -/
inductive PeerAcc where
  | load (pa n : Nat)
  | store (pa : Nat) (bytes : List Byte) (poison : Bool)
  | atomic (op pa : Nat) (operand : List Byte)
  | marker
  | own (pa : Nat) (bytes : List Byte)
  deriving DecidableEq, Repr, Inhabited

/-- An access of the host through the adapter card: the memory aperture (R411), a write of the writable
registers of BAR0, and a read of the one at an offset (R408). `own` is a change that the host makes to its own memory. -/
inductive HostAcc where
  | load (off n : Nat)
  | store (off : Nat) (bytes : List Byte)
  | winbase (value : Nat)
  | outbase (value : Nat)
  | reg (off : Nat)
  | own (addr : Nat) (bytes : List Byte)
  deriving DecidableEq, Repr, Inhabited

/-- What power-on brings from non-volatile storage and the firmware (R412-R414): whether the images
verify, the physical core of each remapped logical core, whether the scan of logical core 0 passes, the
bytes firmware places in memory, the translation base, the fabric identity, the ports of each rank's
route, the control grid's launch parameter block, and the images themselves. DESIGN CHOICE, log entry 9. -/
structure BootImage where
  verified : Bool
  scanPass : Bool
  cells : List (Nat × Byte)
  ttblo : Nat
  ttbhi : Nat
  fabid : Nat
  routes : List (Nat × List Nat)
  params : List Byte
  images : List (List Byte)
  deriving DecidableEq, Repr, Inhabited

/-- Where an uncorrectable error strikes (R380). -/
inductive ErrUnit where
  | vreg (gid r lane : Nat)
  | laneControl (gid lane : Nat)
  | scalar (gid r : Nat)
  | splitTable (gid : Nat)
  | regionRecord (gid : Nat)
  | scratchWord (bid key : Nat)
  | sector (pa : Nat)
  | tileElem (core tile e : Nat)
  | residue (core part : Nat) (elems : List Nat)
  | sluiceBuffer (bid ctx num : Nat)
  | collectiveBuffer (bid ctx num : Nat)
  | node (bid ctx n : Nat)
  deriving DecidableEq, Repr, Inhabited

/-- How a grid ends (R333): every block of it has ended, or the supervisor ends it. -/
inductive GridEnd where
  | done (grid : Nat)
  | kill (grid : Nat)
  deriving DecidableEq, Repr, Inhabited

/-- The instructions and events, one constructor for each row of the opcode table. -/
inductive Instr where
  /-- FFMA (R161) -/
  | ffma (h : Hdr) (d a b : Nat)
  /-- FADD (R161) -/
  | fadd (h : Hdr) (d a b : Nat)
  /-- FMUL (R161) -/
  | fmul (h : Hdr) (d a b : Nat)
  /-- IADD (R161) -/
  | iadd (h : Hdr) (d a b : Nat)
  /-- ISUB (R161) -/
  | isub (h : Hdr) (d a b : Nat)
  /-- IMAD (R161) -/
  | imad (h : Hdr) (d a b : Nat)
  /-- AND (R161) -/
  | and (h : Hdr) (d a b : Nat)
  /-- OR (R161) -/
  | or (h : Hdr) (d a b : Nat)
  /-- XOR (R162) -/
  | xor (h : Hdr) (d a : Nat)
  /-- SHL (R162) -/
  | shl (h : Hdr) (d a : Nat)
  /-- SHR (R162) -/
  | shr (h : Hdr) (d a : Nat)
  /-- SRA (R162) -/
  | sra (h : Hdr) (d a : Nat)
  /-- MUL (R162) -/
  | mul (h : Hdr) (d a : Nat)
  /-- MULHS (R162) -/
  | mulhs (h : Hdr) (d a : Nat)
  /-- MULHU (R162) -/
  | mulhu (h : Hdr) (d a : Nat)
  /-- MINS (R162) -/
  | mins (h : Hdr) (d a : Nat)
  /-- MAXS (R162) -/
  | maxs (h : Hdr) (d a : Nat)
  /-- MINU (R162) -/
  | minu (h : Hdr) (d a : Nat)
  /-- MAXU (R162) -/
  | maxu (h : Hdr) (d a : Nat)
  /-- ANDN (R162) -/
  | andn (h : Hdr) (d a : Nat)
  /-- NOT (R162) -/
  | not (h : Hdr) (d a : Nat)
  /-- NEG (R162) -/
  | neg (h : Hdr) (d a : Nat)
  /-- ABS (R162) -/
  | abs (h : Hdr) (d a : Nat)
  /-- CLZ (R162) -/
  | clz (h : Hdr) (d a : Nat)
  /-- POPC (R162) -/
  | popc (h : Hdr) (d a : Nat)
  /-- BREV (R162) -/
  | brev (h : Hdr) (d a : Nat)
  /-- MOV (R162) -/
  | mov (h : Hdr) (d a : Nat)
  /-- BCAST (R163) -/
  | bcast (h : Hdr) (d s : Nat)
  /-- LANE (R163) -/
  | lane (h : Hdr) (d : Nat)
  /-- PSETV (R163) -/
  | psetv (h : Hdr) (q a : Nat)
  /-- PGETV (R163) -/
  | pgetv (h : Hdr) (d b : Nat)
  /-- PAND (R163) -/
  | pand (h : Hdr) (q b : Nat)
  /-- POR (R163) -/
  | por (h : Hdr) (q b : Nat)
  /-- PXOR (R163) -/
  | pxor (h : Hdr) (q b : Nat)
  /-- PNOT (R163) -/
  | pnot (h : Hdr) (q b : Nat)
  /-- PMOV (R163) -/
  | pmov (h : Hdr) (q b : Nat)
  /-- FSUB (R164) -/
  | fsub (h : Hdr) (d a : Nat)
  /-- FMIN (R165) -/
  | fmin (h : Hdr) (d a : Nat)
  /-- FMAX (R165) -/
  | fmax (h : Hdr) (d a : Nat)
  /-- FABS (R164) -/
  | fabs (h : Hdr) (d a : Nat)
  /-- FNEG (R164) -/
  | fneg (h : Hdr) (d a : Nat)
  /-- RNDN (R166) -/
  | rndn (h : Hdr) (d a : Nat)
  /-- RNDZ (R166) -/
  | rndz (h : Hdr) (d a : Nat)
  /-- RNDD (R166) -/
  | rndd (h : Hdr) (d a : Nat)
  /-- RNDU (R166) -/
  | rndu (h : Hdr) (d a : Nat)
  /-- RCP (R167) -/
  | rcp (h : Hdr) (d a : Nat)
  /-- RSQ (R167) -/
  | rsq (h : Hdr) (d a : Nat)
  /-- SQRT (R167) -/
  | sqrt (h : Hdr) (d a : Nat)
  /-- EXP2 (R167) -/
  | exp2 (h : Hdr) (d a : Nat)
  /-- LOG2 (R167) -/
  | log2 (h : Hdr) (d a : Nat)
  /-- SINPI (R167) -/
  | sinpi (h : Hdr) (d a : Nat)
  /-- COSPI (R167) -/
  | cospi (h : Hdr) (d a : Nat)
  /-- TANH (R167) -/
  | tanh (h : Hdr) (d a : Nat)
  /-- SIGM (R167) -/
  | sigm (h : Hdr) (d a : Nat)
  /-- FCLASS (R168) -/
  | fclass (h : Hdr) (d a : Nat)
  /-- HADD2 (R169) -/
  | hadd2 (h : Hdr) (d a : Nat)
  /-- HMUL2 (R169) -/
  | hmul2 (h : Hdr) (d a : Nat)
  /-- HMAX2 (R165) -/
  | hmax2 (h : Hdr) (d a : Nat)
  /-- CVT_F32_I32 (R151) -/
  | cvtF32I32 (h : Hdr) (d a r : Nat)
  /-- CVT_F32_UI32 (R151) -/
  | cvtF32Ui32 (h : Hdr) (d a r : Nat)
  /-- CVT_I32_F32 (R151) -/
  | cvtI32F32 (h : Hdr) (d a r : Nat)
  /-- CVT_UI32_F32 (R151) -/
  | cvtUi32F32 (h : Hdr) (d a r : Nat)
  /-- CVT_BF16_F32 (R151) -/
  | cvtBf16F32 (h : Hdr) (d a r : Nat)
  /-- CVT_FP16_F32 (R151) -/
  | cvtFp16F32 (h : Hdr) (d a r : Nat)
  /-- CVT_F32_BF16 (R151) -/
  | cvtF32Bf16 (h : Hdr) (d a : Nat)
  /-- CVT_F32_FP16 (R151) -/
  | cvtF32Fp16 (h : Hdr) (d a : Nat)
  /-- CVT_E4M3_F32 (R151) -/
  | cvtE4m3F32 (h : Hdr) (d a r : Nat)
  /-- CVT_E5M2_F32 (R151) -/
  | cvtE5m2F32 (h : Hdr) (d a r : Nat)
  /-- CVT_E2M1_F32 (R151) -/
  | cvtE2m1F32 (h : Hdr) (d a r : Nat)
  /-- CVT_F32_E4M3 (R151) -/
  | cvtF32E4m3 (h : Hdr) (d a : Nat)
  /-- CVT_F32_E5M2 (R151) -/
  | cvtF32E5m2 (h : Hdr) (d a : Nat)
  /-- CVT_F32_E2M1 (R151) -/
  | cvtF32E2m1 (h : Hdr) (d a : Nat)
  /-- CVT_INT8_I32 (R151) -/
  | cvtInt8I32 (h : Hdr) (d a r : Nat)
  /-- CVT_F32_INT8 (R151) -/
  | cvtF32Int8 (h : Hdr) (d a : Nat)
  /-- VOTEANY (R176) -/
  | voteany (h : Hdr) (s q : Nat)
  /-- VOTEALL (R176) -/
  | voteall (h : Hdr) (s q : Nat)
  /-- BALLOT (R176) -/
  | ballot (h : Hdr) (s q : Nat)
  /-- REDADD (R176) -/
  | redadd (h : Hdr) (s a : Nat)
  /-- REDFADD (R177) -/
  | redfadd (h : Hdr) (s a : Nat)
  /-- REDFMAX (R176) -/
  | redfmax (h : Hdr) (s a : Nat)
  /-- REDMAXS (R176) -/
  | redmaxs (h : Hdr) (s a : Nat)
  /-- SCANADD (R178) -/
  | scanadd (h : Hdr) (d a : Nat)
  /-- SCANFADD (R178) -/
  | scanfadd (h : Hdr) (d a : Nat)
  /-- AMAX (R176) -/
  | amax (h : Hdr) (s a : Nat)
  /-- MATCH (R179) -/
  | matchEq (h : Hdr) (d a : Nat)
  /-- ELECT (R179) -/
  | elect (h : Hdr) (s : Nat)
  /-- RDLANE (R179) -/
  | rdlane (h : Hdr) (s a : Nat)
  /-- SHFL (R179) -/
  | shfl (h : Hdr) (d a : Nat)
  /-- SETMM (R180) -/
  | setmm (h : Hdr) (s : Nat)
  /-- GETMM (R180) -/
  | getmm (h : Hdr) (s : Nat)
  /-- CMP_I32 (R170) -/
  | cmpI32 (h : Hdr) (q r a b : Nat)
  /-- CMP_UI32 (R170) -/
  | cmpUi32 (h : Hdr) (q r a b : Nat)
  /-- CMP_F32 (R170) -/
  | cmpF32 (h : Hdr) (q r a b : Nat)
  /-- MX_RD (R292) -/
  | mxRd (h : Hdr) (m s t i v : Nat)
  /-- MX_WR (R292) -/
  | mxWr (h : Hdr) (m s t i v : Nat)
  /-- MOVI (R171) -/
  | movi (h : Hdr) (d m : Nat)
  /-- ADDI (R171) -/
  | addi (h : Hdr) (d m : Nat)
  /-- ANDI (R171) -/
  | andi (h : Hdr) (d m : Nat)
  /-- ORI (R171) -/
  | ori (h : Hdr) (d m : Nat)
  /-- XORI (R171) -/
  | xori (h : Hdr) (d m : Nat)
  /-- SHLI (R171) -/
  | shli (h : Hdr) (d m : Nat)
  /-- SHRI (R171) -/
  | shri (h : Hdr) (d m : Nat)
  /-- SRAI (R171) -/
  | srai (h : Hdr) (d m : Nat)
  /-- MULI (R171) -/
  | muli (h : Hdr) (d m : Nat)
  /-- INSHI (R171) -/
  | inshi (h : Hdr) (d m : Nat)
  /-- S_MOV (R112) -/
  | sMov (h : Hdr) (d a : Nat)
  /-- S_ADD (R112) -/
  | sAdd (h : Hdr) (d a : Nat)
  /-- S_SUB (R112) -/
  | sSub (h : Hdr) (d a : Nat)
  /-- S_MUL (R112) -/
  | sMul (h : Hdr) (d a : Nat)
  /-- S_MULHU (R112) -/
  | sMulhu (h : Hdr) (d a : Nat)
  /-- S_AND (R112) -/
  | sAnd (h : Hdr) (d a : Nat)
  /-- S_OR (R112) -/
  | sOr (h : Hdr) (d a : Nat)
  /-- S_XOR (R112) -/
  | sXor (h : Hdr) (d a : Nat)
  /-- S_SHL (R112) -/
  | sShl (h : Hdr) (d a : Nat)
  /-- S_SHR (R112) -/
  | sShr (h : Hdr) (d a : Nat)
  /-- S_SRA (R112) -/
  | sSra (h : Hdr) (d a : Nat)
  /-- S_MIN (R112) -/
  | sMin (h : Hdr) (d a : Nat)
  /-- S_MAX (R112) -/
  | sMax (h : Hdr) (d a : Nat)
  /-- S_MINU (R112) -/
  | sMinu (h : Hdr) (d a : Nat)
  /-- S_MAXU (R112) -/
  | sMaxu (h : Hdr) (d a : Nat)
  /-- S_SLT (R112) -/
  | sSlt (h : Hdr) (d a : Nat)
  /-- S_ADD64 (R113) -/
  | sAdd64 (h : Hdr) (d a : Nat)
  /-- S_SUB64 (R113) -/
  | sSub64 (h : Hdr) (d a : Nat)
  /-- S_LEA (R113) -/
  | sLea (h : Hdr) (d a : Nat)
  /-- S_LEAS (R113) -/
  | sLeas (h : Hdr) (d a : Nat)
  /-- S_SLTU (R114) -/
  | sSltu (h : Hdr) (d a : Nat)
  /-- S_SEQ (R114) -/
  | sSeq (h : Hdr) (d a : Nat)
  /-- S_NOT (R114) -/
  | sNot (h : Hdr) (d a : Nat)
  /-- S_NEG (R114) -/
  | sNeg (h : Hdr) (d a : Nat)
  /-- S_CLZ (R114) -/
  | sClz (h : Hdr) (d a : Nat)
  /-- S_POPC (R114) -/
  | sPopc (h : Hdr) (d a : Nat)
  /-- S_GETSR (R115) -/
  | sGetsr (h : Hdr) (d a : Nat)
  /-- S_SETSR (R115) -/
  | sSetsr (h : Hdr) (d a : Nat)
  /-- S_PSET (R117) -/
  | sPset (h : Hdr) (d q : Nat)
  /-- S_RDSYS (R118) -/
  | sRdsys (h : Hdr) (d a : Nat)
  /-- S_WRSYS (R118) -/
  | sWrsys (h : Hdr) (d a : Nat)
  /-- S_MOVI (R119) -/
  | sMovi (h : Hdr) (d m : Nat)
  /-- S_ADDI (R119) -/
  | sAddi (h : Hdr) (d m : Nat)
  /-- S_ANDI (R119) -/
  | sAndi (h : Hdr) (d m : Nat)
  /-- S_ORI (R119) -/
  | sOri (h : Hdr) (d m : Nat)
  /-- S_XORI (R119) -/
  | sXori (h : Hdr) (d m : Nat)
  /-- S_SHLI (R119) -/
  | sShli (h : Hdr) (d m : Nat)
  /-- S_SHRI (R119) -/
  | sShri (h : Hdr) (d m : Nat)
  /-- S_SRAI (R119) -/
  | sSrai (h : Hdr) (d m : Nat)
  /-- S_LIT (R120) -/
  | sLit (h : Hdr) (d lit : Nat)
  /-- S_LIT64 (R120) -/
  | sLit64 (h : Hdr) (d lo hi : Nat)
  /-- S_MULI (R119) -/
  | sMuli (h : Hdr) (d m : Nat)
  /-- S_SLTI (R119) -/
  | sSlti (h : Hdr) (d m : Nat)
  /-- S_ADDI64 (R119) -/
  | sAddi64 (h : Hdr) (d m : Nat)
  /-- LD (R188) -/
  | ld (h : Hdr) (o c z a v : Nat)
  /-- ST (R188) -/
  | st (h : Hdr) (o c z a v : Nat)
  /-- LDS (R192) -/
  | lds (h : Hdr) (o z a v : Nat)
  /-- LDS_BCAST (R192) -/
  | ldsBcast (h : Hdr) (o z a v : Nat)
  /-- STS (R192) -/
  | sts (h : Hdr) (o z a v : Nat)
  /-- ATOM_ADD (R224) -/
  | atomAdd (h : Hdr) (o c a d : Nat)
  /-- ATOM_UMAX (R224) -/
  | atomUmax (h : Hdr) (o c a d : Nat)
  /-- ATOM_EXCH (R224) -/
  | atomExch (h : Hdr) (o c a d : Nat)
  /-- ATOM_CAS (R224) -/
  | atomCas (h : Hdr) (o c a d : Nat)
  /-- ATOM_FADD (R226) -/
  | atomFadd (h : Hdr) (o c a d : Nat)
  /-- ATOM_FMIN (R226) -/
  | atomFmin (h : Hdr) (o c a d : Nat)
  /-- ATOM_FMAX (R226) -/
  | atomFmax (h : Hdr) (o c a d : Nat)
  /-- ATOM_ADD64 (R224) -/
  | atomAdd64 (h : Hdr) (o c a d : Nat)
  /-- ATOM_EXCH64 (R224) -/
  | atomExch64 (h : Hdr) (o c a d : Nat)
  /-- ATOM_CAS64 (R224) -/
  | atomCas64 (h : Hdr) (o c a d : Nat)
  /-- S_LD_W (R194) -/
  | sLdW (h : Hdr) (c d a : Nat)
  /-- S_LD_D (R194) -/
  | sLdD (h : Hdr) (c d a : Nat)
  /-- S_LD_Q (R194) -/
  | sLdQ (h : Hdr) (c d a : Nat)
  /-- S_LD_O (R194) -/
  | sLdO (h : Hdr) (c d a : Nat)
  /-- S_ST_W (R194) -/
  | sStW (h : Hdr) (c d a : Nat)
  /-- S_ST_D (R194) -/
  | sStD (h : Hdr) (c d a : Nat)
  /-- S_ST_Q (R194) -/
  | sStQ (h : Hdr) (c d a : Nat)
  /-- S_ATOM_ADD (R194) -/
  | sAtomAdd (h : Hdr) (c d a : Nat)
  /-- S_ATOM_CAS (R194) -/
  | sAtomCas (h : Hdr) (c d a : Nat)
  /-- S_LD_ACQ_W (R194) -/
  | sLdAcqW (h : Hdr) (c d a : Nat)
  /-- S_ST_REL_W (R194) -/
  | sStRelW (h : Hdr) (c d a : Nat)
  /-- BRA (R95) -/
  | bra (h : Hdr) (o : Nat)
  /-- CALL (R96) -/
  | call (h : Hdr) (o : Nat)
  /-- NOP (R104) -/
  | nop (h : Hdr)
  /-- EXIT (R102) -/
  | exit (h : Hdr)
  /-- BRX (R99) -/
  | brx (h : Hdr) (a : Nat)
  /-- MBR (R100) -/
  | mbr (h : Hdr) (arms : List Arm)
  /-- JOIN (R101) -/
  | join (h : Hdr)
  /-- YIELD (R103) -/
  | yield (h : Hdr)
  /-- TRIG (R339) -/
  | trig (h : Hdr)
  /-- PSET (R105) -/
  | pset (h : Hdr) (a : Nat)
  /-- PSETI (R105) -/
  | pseti (h : Hdr) (x : Nat)
  /-- PGET (R106) -/
  | pget (h : Hdr) (d : Nat)
  /-- PMASK (R106) -/
  | pmask (h : Hdr) (y x : Nat)
  /-- BAR (R341) -/
  | bar (h : Hdr) (y x : Nat)
  /-- BAR_ARV (R341) -/
  | barArv (h : Hdr) (y x : Nat)
  /-- CBAR (R343) -/
  | cbar (h : Hdr)
  /-- SB_INIT (R344) -/
  | sbInit (h : Hdr) (y x : Nat)
  /-- SB_ARV (R344) -/
  | sbArv (h : Hdr) (x : Nat)
  /-- SB_WAIT (R344) -/
  | sbWait (h : Hdr) (y x : Nat)
  /-- SB_TEST (R344) -/
  | sbTest (h : Hdr) (y x : Nat)
  /-- WAITC (R197) -/
  | waitc (h : Hdr) (y x : Nat)
  /-- TLWAIT (R235) -/
  | tlwait (h : Hdr) (y x : Nat)
  /-- TLREAD (R236) -/
  | tlread (h : Hdr) (y x : Nat)
  /-- FENCE (R229) -/
  | fence (h : Hdr) (y x : Nat)
  /-- FENCE_MIR (R230) -/
  | fenceMir (h : Hdr) (x : Nat)
  /-- TRAP (R365) -/
  | trap (h : Hdr) (c : Nat)
  /-- TRET (R366) -/
  | tret (h : Hdr)
  /-- REGION (R367) -/
  | region (h : Hdr)
  /-- SIGCHK (R371) -/
  | sigchk (h : Hdr) (lit : Nat)
  /-- BRK (R365) -/
  | brk (h : Hdr)
  /-- WQ_NEXT (R345) -/
  | wqNext (h : Hdr) (x : Nat)
  /-- RECV (R348) -/
  | recv (h : Hdr) (y x : Nat)
  /-- SEND (R348) -/
  | send (h : Hdr) (y x : Nat)
  /-- LAUNCH (R332) -/
  | launch (h : Hdr) (y x : Nat)
  /-- JOINW (R338) -/
  | joinw (h : Hdr) (y x : Nat)
  /-- TAG_L (R201) -/
  | tagL (h : Hdr) (d a : Nat)
  /-- TAG_I (R201) -/
  | tagI (h : Hdr) (d a : Nat)
  /-- TAG_E (R201) -/
  | tagE (h : Hdr) (d a : Nat)
  /-- PREF (R204) -/
  | pref (h : Hdr) (x : Nat)
  /-- OVTLD (R153) -/
  | ovtld (h : Hdr) (x : Nat)
  /-- SRSEED (R154) -/
  | srseed (h : Hdr) (a : Nat)
  /-- SRGET (R155) -/
  | srget (h : Hdr) (d : Nat)
  /-- PCHK (R379) -/
  | pchk (h : Hdr) (y a : Nat)
  /-- DRAIN (R389) -/
  | drain (h : Hdr) (y x : Nat)
  /-- SCAN_RUN (R390) -/
  | scanRun (h : Hdr) (y x : Nat)
  /-- SCAN_SIG (R390) -/
  | scanSig (h : Hdr) (y x : Nat)
  /-- CMAP_SET (R391) -/
  | cmapSet (h : Hdr) (y x : Nat)
  /-- TQ_POP (R375) -/
  | tqPop (h : Hdr) (y x : Nat)
  /-- CALLX (R97) -/
  | callx (h : Hdr) (a : Nat)
  /-- RET (R98) -/
  | ret (h : Hdr)
  /-- CP_TENSOR (R260) -/
  | cpTensor (h : Hdr) (y x : Nat)
  /-- CP_LIN (R262) -/
  | cpLin (h : Hdr) (x : Nat)
  /-- CP_GATHER (R262) -/
  | cpGather (h : Hdr) (y x : Nat)
  /-- CP_SCATTER (R262) -/
  | cpScatter (h : Hdr) (y x : Nat)
  /-- CP_FOLLOW (R263) -/
  | cpFollow (h : Hdr) (a x : Nat)
  /-- CP_CANCEL (R264) -/
  | cpCancel (h : Hdr) (x : Nat)
  /-- MX_MMA (R279) -/
  | mxMma (h : Hdr) (y a : Nat)
  /-- MX_ACQ (R273) -/
  | mxAcq (h : Hdr) (t : Nat)
  /-- MX_REL (R274) -/
  | mxRel (h : Hdr) (t : Nat)
  /-- MX_ZERO (R275) -/
  | mxZero (h : Hdr) (y t : Nat)
  /-- MX_STRAW (R294) -/
  | mxStraw (h : Hdr) (y t : Nat)
  /-- MX_ADDRAW (R294) -/
  | mxAddraw (h : Hdr) (y t : Nat)
  /-- MX_STAT (R295) -/
  | mxStat (h : Hdr) (y t : Nat)
  /-- MX_APF (R290) -/
  | mxApf (h : Hdr) (x : Nat)
  /-- MX_AINV (R290) -/
  | mxAinv (h : Hdr) (x : Nat)
  /-- MX_AQRY (R290) -/
  | mxAqry (h : Hdr) (y x : Nat)
  /-- SM_CFG (R311) -/
  | smCfg (h : Hdr) (x : Nat)
  /-- SM_KEY (R316) -/
  | smKey (h : Hdr) (y m : Nat)
  /-- COL_RED (R401) -/
  | colRed (h : Hdr) (x : Nat)
  /-- C_NOP (R58) -/
  | cNop
  /-- ATOM_AND (R224) -/
  | atomAnd (h : Hdr) (o c a d : Nat)
  /-- ATOM_OR (R224) -/
  | atomOr (h : Hdr) (o c a d : Nat)
  /-- ATOM_XOR (R224) -/
  | atomXor (h : Hdr) (o c a d : Nat)
  /-- ATOM_SMIN (R224) -/
  | atomSmin (h : Hdr) (o c a d : Nat)
  /-- ATOM_SMAX (R224) -/
  | atomSmax (h : Hdr) (o c a d : Nat)
  /-- ATOM_UMIN (R224) -/
  | atomUmin (h : Hdr) (o c a d : Nat)
  /-- DRAIN_PREEMPT (R389) -/
  | drainPreempt (h : Hdr) (y x : Nat)
  /-- DRAIN_CLEAR (R389) -/
  | drainClear (h : Hdr) (y x : Nat)
  /-- SCAN_RUN_ABORT (R390) -/
  | scanRunAbort (h : Hdr) (y x : Nat)
  /-- CMAP_SET_REMOVE (R391) -/
  | cmapSetRemove (h : Hdr) (y x : Nat)
  /-- SM_LDC (R312) -/
  | smLdc (h : Hdr) (x : Nat)
  /-- SM_LDB (R313) -/
  | smLdb (h : Hdr) (x : Nat)
  /-- SM_CLAMP (R314) -/
  | smClamp (h : Hdr) (x : Nat)
  /-- SM_INIT (R315) -/
  | smInit (h : Hdr) (x : Nat)
  /-- SM_SWEEP (R317) -/
  | smSweep (h : Hdr) (x : Nat)
  /-- SM_READ (R318) -/
  | smRead (h : Hdr) (x : Nat)
  /-- SM_HLTH (R319) -/
  | smHlth (h : Hdr) (x : Nat)
  /-- SM_BX (R320) -/
  | smBx (h : Hdr) (x : Nat)
  /-- COL_BCAST (R402) -/
  | colBcast (h : Hdr) (x : Nat)
  /-- COL_GATH (R402) -/
  | colGath (h : Hdr) (x : Nat)
  /-- C_MOV (R57) -/
  | cMov (d a : Nat)
  /-- C_IADD (R57) -/
  | cIadd (d a : Nat)
  /-- C_ISUB (R57) -/
  | cIsub (d a : Nat)
  /-- C_AND (R57) -/
  | cAnd (d a : Nat)
  /-- C_OR (R57) -/
  | cOr (d a : Nat)
  /-- C_XOR (R57) -/
  | cXor (d a : Nat)
  /-- C_SHL (R57) -/
  | cShl (d a : Nat)
  /-- C_SHR (R57) -/
  | cShr (d a : Nat)
  /-- C_FADD (R57) -/
  | cFadd (d a : Nat)
  /-- C_FMUL (R57) -/
  | cFmul (d a : Nat)
  /-- C_FSUB (R57) -/
  | cFsub (d a : Nat)
  /-- C_FMAX (R57) -/
  | cFmax (d a : Nat)
  /-- C_FMIN (R57) -/
  | cFmin (d a : Nat)
  /-- C_IMUL (R57) -/
  | cImul (d a : Nat)
  /-- C_SRA (R57) -/
  | cSra (d a : Nat)
  /-- OVF (R149) -/
  | ovf (gid : Nat)
  /-- ACCESS_COMPLETE (R196) -/
  | accessComplete (gid path : Nat)
  /-- SPLIT_MERGE (R87) -/
  | splitMerge (gid : Nat)
  /-- HELD_LANE_RETURN (R88) -/
  | heldLaneReturn (gid : Nat)
  /-- PAIR_COMPARE (R386) -/
  | pairCompare (gid : Nat) (differ : Bool)
  /-- DRAIN_QUIESCENT (R389) -/
  | drainQuiescent (core : Nat)
  /-- SCAN_END (R390) -/
  | scanEnd (core observed : Nat)
  /-- FIRMWARE_SCAN_ABORT (R428) -/
  | firmwareScanAbort (core : Nat)
  /-- SLUICE_COMMAND_RUN (R260) -/
  | sluiceCommandRun (bid ctx : Nat)
  /-- COPY_COMMAND_COMPLETE (R250) -/
  | copyCommandComplete (bid ctx num : Nat)
  /-- FOLLOW_ON_ISSUE (R263) -/
  | followOnIssue (bid ctx : Nat)
  /-- MMA_COMMAND_START (R279) -/
  | mmaCommandStart (core part : Nat)
  /-- K_STEP (R271) -/
  | kStep (core part : Nat)
  /-- ADAPTER_STAGE (R282) -/
  | adapterStage (core part : Nat)
  /-- ADAPTER_FILL_LAND (R284) -/
  | adapterFillLand (die key : Nat)
  /-- ADAPTER_FILL_FAIL (R288) -/
  | adapterFillFail (die key : Nat)
  /-- MMA_COMMAND_COMPLETE (R279) -/
  | mmaCommandComplete (core part : Nat)
  /-- SAMPLING_COMMAND_RUN (R300) -/
  | samplingCommandRun (bid ctx : Nat)
  /-- COLOUR_STEP (R302) -/
  | colourStep (core : Nat)
  /-- BX_LANDING (R308) -/
  | bxLanding (bid ctx : Nat)
  /-- ARRAY_UNBIND (R297) -/
  | arrayUnbind (core : Nat)
  /-- COLLECTIVE_COMPLETE (R403) -/
  | collectiveComplete (bid ctx num : Nat) (peers : List PeerPart)
  /-- HANDLER_ENTRY (R363) -/
  | handlerEntry (gid : Nat)
  /-- REGION_RESTART (R368) -/
  | regionRestart (gid : Nat)
  /-- DEFERRED_RECORD_ENQUEUE (R374) -/
  | deferredRecordEnqueue (die : Nat)
  /-- TQRACT_RESUME (R376) -/
  | tqractResume
  /-- TQRACT_KILL (R376) -/
  | tqractKill
  /-- CONTAIN_PARTITION (R381) -/
  | containPartition (core part : Nat)
  /-- CONTAIN_SLUICE (R381) -/
  | containSluice (die sluice : Nat)
  /-- CONTAIN_MATRIX_ARRAY (R381) -/
  | containMatrixArray (core part : Nat)
  /-- CONTAIN_SAMPLING_ARRAY (R381) -/
  | containSamplingArray (core : Nat)
  /-- CONTAIN_COLLECTIVE_ENGINE (R381) -/
  | containCollectiveEngine (die : Nat)
  /-- CONTAIN_DIE_LINK (R381) -/
  | containDieLink (die other : Nat)
  /-- CONTAIN_SHAGAL_PORT (R397) -/
  | containShagalPort (port : Nat)
  /-- CONTAIN_RESET_END (R381) -/
  | containResetEnd
  /-- KEYERASE (R392) -/
  | keyerase (cmd : Nat)
  /-- SECURITY_ALARM (R392) -/
  | securityAlarm (source : Nat)
  /-- TLB_INVALIDATE (R211) -/
  | tlbInvalidate (core : Nat)
  /-- TLB_INVALIDATE_DONE (R211) -/
  | tlbInvalidateDone (core : Nat)
  /-- ADIR_WRITE (R287) -/
  | adirWrite (reg value : Nat)
  /-- SMCTL_WRITE (R321) -/
  | smctlWrite (core value : Nat)
  /-- FABID_WRITE (R393) -/
  | fabidWrite (value : Nat)
  /-- TICKPER_WRITE (R404) -/
  | tickperWrite (value : Nat)
  /-- TICKLO_READ (R404) -/
  | tickloRead (gid d : Nat)
  /-- EXCHANGE_TICK (R405) -/
  | exchangeTick
  /-- TICK_FLITS_APPLY (R405) -/
  | tickFlitsApply
  /-- PTP_LOCK (R404) -/
  | ptpLock (tick : Nat)
  /-- MIRROR_ENABLE (R406) -/
  | mirrorEnable
  /-- MIRROR_RESYNC_DONE (R406) -/
  | mirrorResyncDone
  /-- MIRROR_ACK (R406) -/
  | mirrorAck
  /-- PEER_ACCESS (R394) -/
  | peerAccess (rank tick : Nat) (acc : PeerAcc)
  /-- PORT_PARTNER_DETECT (R397) -/
  | portPartnerDetect (port : Nat)
  /-- PORT_TRAIN_PASS (R397) -/
  | portTrainPass (port : Nat)
  /-- PORT_TRAIN_TIMEOUT (R397) -/
  | portTrainTimeout (port : Nat)
  /-- PORT_RECOVER_ENTER (R397) -/
  | portRecoverEnter (port : Nat)
  /-- PORT_RECOVER_DONE (R397) -/
  | portRecoverDone (port : Nat)
  /-- PORT_RECOVER_FAIL (R397) -/
  | portRecoverFail (port : Nat)
  /-- FLIT_REPLAY (R396) -/
  | flitReplay (port : Nat)
  /-- DIE_LINK_RETRY (R380) -/
  | dieLinkRetry (die other : Nat)
  /-- INLET_WRITE (R409) -/
  | inletWrite (q : Nat) (bytes : List Byte)
  /-- OUTLET_WRITE (R410) -/
  | outletWrite (q : Nat)
  /-- OUTCONS_WRITE (R410) -/
  | outconsWrite (q value : Nat)
  /-- HOST_APERTURE_ACCESS (R411) -/
  | hostApertureAccess (acc : HostAcc)
  /-- ATTESTATION_REQUEST (R413) -/
  | attestationRequest (nonce : List Byte)
  /-- PROVISIONING_COMMAND (R413) -/
  | provisioningCommand (signed : Bool)
  /-- POWER_UP (R412) -/
  | powerUp (img : BootImage)
  /-- MODULE_RESET (R380) -/
  | moduleReset
  /-- HEADGATE_FAULT (R380) -/
  | headgateFault (die : Nat)
  /-- CONTROL_GRID_RESTART (R414) -/
  | controlGridRestart
  /-- THERMAL_THROTTLE (R415) -/
  | thermalThrottle (celsius khz : Nat)
  /-- CORRECTABLE_ERROR (R380) -/
  | correctableError (die : Nat)
  /-- UNCORRECTABLE_ERROR (R380) -/
  | uncorrectableError (die : Nat) (u : ErrUnit)
  /-- GRID_ADMIT (R336) -/
  | gridAdmit (grid : Nat)
  /-- BLOCK_BIND (R350) -/
  | blockBind (grid blk : Nat) (cores : List Nat)
  /-- GROUP_SLOT_RELEASE (R102) -/
  | groupSlotRelease (gid : Nat)
  /-- TILE_UNBIND (R269) -/
  | tileUnbind (core tile : Nat)
  /-- GRID_COMPLETE (R333) -/
  | gridComplete (grid : GridEnd)
  /-- PREEMPT_REQUEST (R383) -/
  | preemptRequest (bid : Nat)
  /-- DRAIN_TO_SAVE (R383) -/
  | drainToSave (bid : Nat)
  /-- PREEMPTION_SAVE (R384) -/
  | preemptionSave (bid : Nat)
  /-- FLUSH_AND_RESTART (R384) -/
  | flushAndRestart (bid : Nat)
  /-- UNIT_RESTORE (R385) -/
  | unitRestore (bid : Nat) (cores : List Nat)
  /-- WATCHDOG (R382) -/
  | watchdog (gid : Nat)
  /-- REMOTE_TIMEOUT (R382) -/
  | remoteTimeout (gid slot : Nat)
  /-- POWER_LOSS (R28) -/
  | powerLoss
  /-- POWER_LIMIT_CLOCK (R37) -/
  | powerLimitClock (khz : Nat)
  /-- ADAPTER_KEY_EVICT (R285) -/
  | adapterKeyEvict (die key : Nat)
  /-- TLB_ENTRY_DROP (R209) -/
  | tlbEntryDrop (shared : Bool) (unit va : Nat)
  /-- FIRMWARE_UPDATE_REQUEST (R392) -/
  | firmwareUpdateRequest (signed : Bool)
  deriving DecidableEq, Repr

end Sys2Proof
end

