-- ==== Sys2Proof/WellFormed.lean ====
section
/-! DEFINITION. Which instructions are well formed: the conditions that 02_encoding.md and the
entries of the instructions put on the words alone (R66 step 2), apart from the number of vector
registers a group has (R68) and the length of the text (R39), which depend on the state. A word that
breaks one raises ILLEGAL. -/

namespace Sys2Proof

/-- Why an instruction's words are not allowed. -/
inductive WFError where
  /-- A field does not fit its bits, or an unguarded word names a guard (R42, R45). -/
  | field
  /-- A register number breaks the alignment of a pair, quad or block, or does not exist (R46). -/
  | register
  /-- An immediate is outside the range the entry gives (R47). -/
  | range
  /-- The value of a field is reserved (R49, R50, R52, R53). -/
  | reserved
  /-- A special or system register that may not be written (R70, R71). -/
  | readOnly
  deriving DecidableEq, Repr

/-- The guard fields: with GE = 0, GP and GS are 0 (R42). -/
def Hdr.ok (h : Hdr) : Bool :=
  decide (h.gp < 16) && decide (h.stl < 4) && (h.ge || (!h.gs && decide (h.gp = 0)))

/-- The guard fields of a word of majors 22 to 27, which owes no stall (R43). -/
def Hdr.okMem (h : Hdr) : Bool := h.ok && decide (h.stl = 0)

/-- The fields of an arm word (R60). -/
def Arm.fits (a : Arm) : Bool := decide (a.off < 2 ^ 18) && decide (a.p < 16)

/-- Every field of the instruction fits the bits its word gives it (R45, R49-R60). -/
def Instr.fits : Instr → Bool
  | .ffma h d a b | .fadd h d a b | .fmul h d a b | .iadd h d a b | .isub h d a b | .imad h d a b
  | .and h d a b | .or h d a b
    => h.ok && decide (d < 64) && decide (a < 64) && decide (b < 64)
  | .xor h d a | .shl h d a | .shr h d a | .sra h d a | .mul h d a | .mulhs h d a | .mulhu h d a
  | .mins h d a | .maxs h d a | .minu h d a | .maxu h d a | .andn h d a | .not h d a | .neg h d a
  | .abs h d a | .clz h d a | .popc h d a | .brev h d a | .mov h d a | .fsub h d a | .fmin h d a
  | .fmax h d a | .fabs h d a | .fneg h d a | .rndn h d a | .rndz h d a | .rndd h d a | .rndu h d a
  | .rcp h d a | .rsq h d a | .sqrt h d a | .exp2 h d a | .log2 h d a | .sinpi h d a | .cospi h d a
  | .tanh h d a | .sigm h d a | .fclass h d a | .hadd2 h d a | .hmul2 h d a | .hmax2 h d a
  | .cvtF32Bf16 h d a | .cvtF32Fp16 h d a | .cvtF32E4m3 h d a | .cvtF32E5m2 h d a | .cvtF32E2m1 h d a
  | .cvtF32Int8 h d a | .scanadd h d a | .scanfadd h d a | .matchEq h d a | .shfl h d a | .tagL h d a
  | .tagI h d a | .tagE h d a
    => h.ok && decide (d < 64) && decide (a < 64)
  | .bcast h d s
    => h.ok && decide (d < 64) && decide (s < 64)
  | .lane h d | .pget h d | .srget h d
    => h.ok && decide (d < 64)
  | .psetv h q a
    => h.ok && decide (q < 16) && decide (a < 64)
  | .pgetv h d b
    => h.ok && decide (d < 64) && decide (b < 16)
  | .pand h q b | .por h q b | .pxor h q b | .pnot h q b | .pmov h q b
    => h.ok && decide (q < 16) && decide (b < 16)
  | .cvtF32I32 h d a r | .cvtF32Ui32 h d a r | .cvtI32F32 h d a r | .cvtUi32F32 h d a r
  | .cvtBf16F32 h d a r | .cvtFp16F32 h d a r | .cvtE4m3F32 h d a r | .cvtE5m2F32 h d a r
  | .cvtE2m1F32 h d a r | .cvtInt8I32 h d a r
    => h.ok && decide (d < 64) && decide (a < 64) && decide (r < 4)
  | .voteany h s q | .voteall h s q | .ballot h s q
    => h.ok && decide (s < 64) && decide (q < 16)
  | .redadd h s a | .redfadd h s a | .redfmax h s a | .redmaxs h s a | .amax h s a | .rdlane h s a
    => h.ok && decide (s < 64) && decide (a < 64)
  | .elect h s | .setmm h s | .getmm h s
    => h.ok && decide (s < 64)
  | .cmpI32 h q r a b | .cmpUi32 h q r a b | .cmpF32 h q r a b
    => h.ok && decide (q < 16) && decide (r < 4) && decide (a < 64) && decide (b < 64)
  | .mxRd h m s t i v | .mxWr h m s t i v
    => h.ok && decide (m < 4) && decide (s < 2) && decide (t < 8) && decide (i < 64) && decide (v < 64)
  | .movi h d m | .addi h d m | .andi h d m | .ori h d m | .xori h d m | .shli h d m | .shri h d m
  | .srai h d m | .muli h d m | .inshi h d m
    => h.ok && decide (d < 64) && decide (m < 256)
  | .sMov h d a | .sAdd h d a | .sSub h d a | .sMul h d a | .sMulhu h d a | .sAnd h d a | .sOr h d a
  | .sXor h d a | .sShl h d a | .sShr h d a | .sSra h d a | .sMin h d a | .sMax h d a | .sMinu h d a
  | .sMaxu h d a | .sSlt h d a | .sAdd64 h d a | .sSub64 h d a | .sLea h d a | .sLeas h d a
  | .sSltu h d a | .sSeq h d a | .sNot h d a | .sNeg h d a | .sClz h d a | .sPopc h d a | .sGetsr h d a
  | .sSetsr h d a | .sRdsys h d a | .sWrsys h d a
    => h.ok && decide (d < 128) && decide (a < 128)
  | .sPset h d q
    => h.ok && decide (d < 128) && decide (q < 16)
  | .sMovi h d m | .sAddi h d m | .sAndi h d m | .sOri h d m | .sXori h d m | .sShli h d m | .sShri h d m
  | .sSrai h d m | .sMuli h d m | .sSlti h d m | .sAddi64 h d m
    => h.ok && decide (d < 128) && decide (m < 128)
  | .sLit h d lit
    => h.ok && decide (d < 128) && decide (lit < 4294967296)
  | .sLit64 h d lo hi
    => h.ok && decide (d < 128) && decide (lo < 4294967296) && decide (hi < 4294967296)
  | .ld h o c z a v | .st h o c z a v
    => h.okMem && decide (o < 4) && decide (c < 16) && decide (z < 8) && decide (a < 32) && decide (v < 64)
  | .lds h o z a v | .ldsBcast h o z a v | .sts h o z a v
    => h.okMem && decide (o < 4) && decide (z < 8) && decide (a < 64) && decide (v < 64)
  | .atomAdd h o c a d | .atomAnd h o c a d | .atomOr h o c a d | .atomXor h o c a d
  | .atomSmin h o c a d | .atomSmax h o c a d | .atomUmin h o c a d | .atomUmax h o c a d
  | .atomExch h o c a d | .atomCas h o c a d | .atomFadd h o c a d | .atomFmin h o c a d
  | .atomFmax h o c a d | .atomAdd64 h o c a d | .atomExch64 h o c a d | .atomCas64 h o c a d
    => h.okMem && decide (o < 4) && decide (c < 16) && decide (a < 32) && decide (d < 64)
  | .sLdW h c d a | .sLdD h c d a | .sLdQ h c d a | .sLdO h c d a | .sStW h c d a | .sStD h c d a
  | .sStQ h c d a | .sAtomAdd h c d a | .sAtomCas h c d a | .sLdAcqW h c d a | .sStRelW h c d a
    => h.okMem && decide (c < 4) && decide (d < 128) && decide (a < 128)
  | .bra h o | .call h o
    => h.ok && decide (o < 262144)
  | .nop h | .exit h | .join h | .yield h | .trig h | .cbar h | .tret h | .region h | .brk h | .ret h
    => h.ok
  | .brx h a | .pset h a | .srseed h a | .callx h a
    => h.ok && decide (a < 64)
  | .mbr h arms
    => h.ok && arms.all Arm.fits
  | .pseti h x | .sbArv h x | .fenceMir h x | .wqNext h x | .pref h x | .ovtld h x | .cpLin h x
  | .cpCancel h x | .mxApf h x | .mxAinv h x | .smCfg h x | .smLdc h x | .smLdb h x | .smClamp h x
  | .smInit h x | .smSweep h x | .smRead h x | .smHlth h x | .smBx h x | .colRed h x | .colBcast h x
  | .colGath h x
    => h.ok && decide (x < 64)
  | .pmask h y x | .bar h y x | .barArv h y x | .sbInit h y x | .sbWait h y x | .sbTest h y x
  | .waitc h y x | .tlwait h y x | .tlread h y x | .fence h y x | .recv h y x | .send h y x
  | .launch h y x | .joinw h y x | .drain h y x | .drainPreempt h y x | .drainClear h y x
  | .scanRun h y x | .scanRunAbort h y x | .scanSig h y x | .cmapSet h y x | .cmapSetRemove h y x
  | .tqPop h y x | .cpTensor h y x | .cpGather h y x | .cpScatter h y x | .mxAqry h y x
    => h.ok && decide (y < 64) && decide (x < 64)
  | .trap h c
    => h.ok && decide (c < 4096)
  | .sigchk h lit
    => h.ok && decide (lit < 4294967296)
  | .pchk h y a | .mxMma h y a
    => h.ok && decide (y < 64) && decide (a < 64)
  | .cpFollow h a x
    => h.ok && decide (a < 64) && decide (x < 64)
  | .mxAcq h t | .mxRel h t
    => h.ok && decide (t < 64)
  | .mxZero h y t | .mxStraw h y t | .mxAddraw h y t | .mxStat h y t
    => h.ok && decide (y < 64) && decide (t < 64)
  | .smKey h y m
    => h.ok && decide (y < 64) && decide (m < 64)
  | .cMov d a | .cIadd d a | .cIsub d a | .cAnd d a | .cOr d a | .cXor d a | .cShl d a | .cShr d a
  | .cFadd d a | .cFmul d a | .cFsub d a | .cFmax d a | .cFmin d a | .cImul d a | .cSra d a
    => decide (d < 64) && decide (a < 32)
  | .cNop
    => true
  | _ => true

/-- The first of some conditions that fails. -/
def firstFail : List (Bool × WFError) → Option WFError
  | [] => none
  | (true, _) :: r => firstFail r
  | (false, e) :: _ => some e

/-- The register rules and ranges of a global or scratchpad access of a size (R52, R188, R192): the sizes
allowed, the order, and the alignment of the data registers. -/
def memRule (sizes orders : List Nat) (z o v : Nat) : Option WFError :=
  firstFail [(decide (z ∈ sizes), .reserved), (decide (o ∈ orders), .reserved),
    (decide (z ≠ 5 ∨ v % 2 = 0), .register), (decide (z ≠ 6 ∨ v % 4 = 0), .register)]

/-- A block of 8 scalar registers named by a scaled field (R46, R56): a multiple of 8, at most s120. -/
def blockRule (x : Nat) : Option WFError := firstFail [(decide (x % 4 = 0 ∧ x ≤ 60), .register)]

/-- The conditions on the words that go beyond the width of a field: alignment, ranges and reserved
values (R46, R47, R49-R56 and the entry of each instruction). -/
def Instr.rule : Instr → Option WFError
  | .cMov d a => firstFail [(decide (d ≠ 0 ∨ a ≠ 0), .reserved)]
  | .shli _ _ m | .shri _ _ m | .srai _ _ m => firstFail [(decide (m ≤ 31), .range)]
  | .sShli _ _ m | .sShri _ _ m | .sSrai _ _ m => firstFail [(decide (m ≤ 31), .range)]
  | .mxRd _ _ _ _ _ v | .mxWr _ _ _ _ _ v => firstFail [(decide (v % 2 = 0), .register)]
  | .sAdd64 _ d a | .sSub64 _ d a => firstFail [(decide (d % 2 = 0 ∧ a % 2 = 0), .register)]
  | .sLea _ d _ | .sLeas _ d _ | .sAddi64 _ d _ | .sLit64 _ d _ _ => firstFail [(decide (d % 2 = 0), .register)]
  | .sSetsr _ _ a => firstFail [(decide (a = 11 ∨ a = 17), .readOnly)]
  | .ld _ o c z _ v => (firstFail [(decide (c ≤ 9), .reserved)]).or (memRule [0, 1, 2, 3, 4, 5, 6] [0, 1] z o v)
  | .st _ o c z _ v => (firstFail [(decide (c ≤ 9), .reserved)]).or (memRule [0, 2, 4, 5, 6] [0, 2] z o v)
  | .lds _ o z _ v | .ldsBcast _ o z _ v => memRule [0, 1, 2, 3, 4, 5, 6] [0, 1] z o v
  | .sts _ o z _ v => memRule [0, 2, 4, 5, 6] [0, 2] z o v
  | .atomAdd _ _ c _ _ | .atomAnd _ _ c _ _ | .atomOr _ _ c _ _ | .atomXor _ _ c _ _ | .atomSmin _ _ c _ _
  | .atomSmax _ _ c _ _ | .atomUmin _ _ c _ _ | .atomUmax _ _ c _ _ | .atomExch _ _ c _ _
  | .atomFadd _ _ c _ _ | .atomFmin _ _ c _ _ | .atomFmax _ _ c _ _ => firstFail [(decide (c ≤ 9), .reserved)]
  | .atomCas _ _ c _ d | .atomAdd64 _ _ c _ d | .atomExch64 _ _ c _ d =>
    firstFail [(decide (c ≤ 9), .reserved), (decide (d % 2 = 0), .register)]
  | .atomCas64 _ _ c _ d => firstFail [(decide (c ≤ 9), .reserved), (decide (d % 4 = 0), .register)]
  | .sLdW _ _ _ a | .sStW _ _ _ a | .sAtomAdd _ _ _ a | .sLdAcqW _ _ _ a | .sStRelW _ _ _ a =>
    firstFail [(decide (a % 2 = 0), .register)]
  | .sLdD _ _ d a | .sStD _ _ d a | .sAtomCas _ _ d a => firstFail [(decide (a % 2 = 0 ∧ d % 2 = 0), .register)]
  | .sLdQ _ _ d a | .sStQ _ _ d a => firstFail [(decide (a % 2 = 0 ∧ d % 4 = 0), .register)]
  | .sLdO _ _ d a => firstFail [(decide (a % 2 = 0 ∧ d % 8 = 0), .register)]
  | .mbr _ arms => firstFail [(decide (1 ≤ arms.length ∧ arms.length ≤ 4), .range)]
  | .pseti _ x => firstFail [(decide (x < 4), .range)]
  | .pmask _ y x => firstFail [(decide (x < 4 ∧ y < 16), .range)]
  | .bar _ _ x | .barArv _ _ x => firstFail [(decide (x < 16), .range)]
  | .waitc _ _ x => firstFail [(decide (x < 6), .range)]
  | .tlwait _ y x => firstFail [(decide (y < 10), .range), (decide (x % 4 = 0), .register)]
  | .tlread _ y _ => firstFail [(decide (y % 2 = 0), .register)]
  | .fence _ y x => firstFail [(decide (y ≤ 2 ∧ x ≤ 9), .range)]
  | .fenceMir _ x => firstFail [(decide (6 ≤ x ∧ x ≤ 9), .range)]
  | .pchk _ y _ => firstFail [(decide (y < 16), .range)]
  | .pref _ x => firstFail [(decide (x % 2 = 0), .register)]
  | .launch _ _ x | .cmapSet _ _ x | .cmapSetRemove _ _ x => firstFail [(decide (x % 2 = 0), .register)]
  | .scanSig _ y _ => firstFail [(decide (y % 4 = 0), .register)]
  | .cpTensor _ y x => firstFail [(decide (x % 4 = 0 ∧ x ≤ 52 ∧ y % 8 = 0 ∧ y ≤ 56), .register)]
  | .cpLin _ x | .colRed _ x | .colBcast _ x | .colGath _ x => blockRule x
  | .smCfg _ x | .smLdc _ x | .smLdb _ x | .smClamp _ x | .smInit _ x | .smSweep _ x | .smRead _ x | .smHlth _ x
  | .smBx _ x => blockRule x
  | .cpGather _ _ x | .cpScatter _ _ x => blockRule x
  | .cpFollow _ _ x => blockRule x
  | .mxMma _ y _ => blockRule y
  | .mxAcq _ t | .mxRel _ t => firstFail [(decide (t < 8), .range)]
  | .mxZero _ _ t | .mxStraw _ _ t | .mxAddraw _ _ t => firstFail [(decide (t < 8), .range)]
  | .mxStat _ y t => firstFail [(decide (t < 8), .range), (decide (y % 2 = 0), .register)]
  | .smKey _ y m => firstFail [(decide (m ≤ 1), .range), (decide (y ≤ 62), .register)]
  | _ => none

/-- Why the words of an instruction raise ILLEGAL, if they do (R66 step 2). DEDUCED, log entry 36. -/
def wfError (i : Instr) : Option WFError := if i.fits then i.rule else some .field

/-- A well-formed instruction. -/
def WellFormed (i : Instr) : Prop := wfError i = none

end Sys2Proof
end

