-- ==== Sys2Proof/Decode.lean ====
section
/-! DEFINITION. Decoding and encoding of instructions (02_encoding.md R38-R61). A decoder error is one
of the conditions that raise ILLEGAL by the word alone; `WellFormed` holds the others. -/

namespace Sys2Proof

/-- Why no instruction is read from some code. -/
inductive DecodeError where
  /-- The code ends inside an instruction. -/
  | truncated
  /-- The major or the function is not assigned (R48-R56). -/
  | unassigned
  /-- A field the instruction does not use is not zero (R47). -/
  | reservedBits
  /-- The arm count of MBR is not 1 to 4 (R55). -/
  | badCount
  /-- An arm word of MBR has bit 0 clear or a bit of [13:6] set (R60). -/
  | badArm
  /-- The parcel 0x0000 (R61). -/
  | illegalWord
  deriving DecidableEq, Repr

/-- The bits of one instruction: a compact parcel, or a 32-bit word with the words that follow it
(R38, R59). -/
inductive Code where
  | parcel (p : Nat)
  | word (w : Nat) (lits : List Nat)
  deriving DecidableEq, Repr, Inhabited

/-- Field A, bits [31:26] of the word: bits [17:12] of the payload (R45). -/
def fA (p : Nat) : Nat := p / 4096 % 64
/-- Field B, bits [25:20]. -/
def fB (p : Nat) : Nat := p / 64 % 64
/-- Field C, bits [19:14]. -/
def fC (p : Nat) : Nat := p % 64
/-- The relation of a compare, bits [19:18]. -/
def fRel (p : Nat) : Nat := p / 16 % 4
/-- The predicate a compare writes, bits [17:14]. -/
def fPd (p : Nat) : Nat := p % 16
/-- The tile of MX.RD and MX.WR, bits [19:17]. -/
def fTile (p : Nat) : Nat := p / 8 % 8
/-- The slice of MX.RD and MX.WR, bit 16. -/
def fSlice (p : Nat) : Nat := p / 4 % 2
/-- The imm2 of MX.RD and MX.WR, bits [15:14]. -/
def fImm2 (p : Nat) : Nat := p % 4
/-- The immediate of a VI word, bits [31:24]. -/
def fImm8 (p : Nat) : Nat := p / 1024 % 256
/-- The function of a VI word, bits [23:20]. -/
def fViFn (p : Nat) : Nat := p / 64 % 16
/-- The function of a scalar word, bits [31:28]. -/
def fScFn (p : Nat) : Nat := p / 16384 % 16
/-- The source or immediate of a scalar word, bits [27:21]. -/
def fSa (p : Nat) : Nat := p / 128 % 128
/-- The destination of a scalar word, bits [20:14]. -/
def fSd (p : Nat) : Nat := p % 128
/-- The address pair of LD, ST and the atomics, bits [25:21]. -/
def fPair (p : Nat) : Nat := p / 128 % 32
/-- The size or operation of LD, ST and the atomics, bits [20:18]. -/
def fSize (p : Nat) : Nat := p / 16 % 8
/-- The scope, bits [17:14]. -/
def fScope (p : Nat) : Nat := p % 16
/-- The size of SPAD, bits [19:17]. -/
def fSpSize (p : Nat) : Nat := p / 8 % 8
/-- The direction of SPAD, bit 16. -/
def fDir (p : Nat) : Nat := p / 4 % 2
/-- The mode of SPAD, bits [15:14]. -/
def fMode (p : Nat) : Nat := p % 4
/-- The code of TRAP, X:Y, bits [25:14]. -/
def fTrap (p : Nat) : Nat := p % 4096

/-- The payload of the three-field formats V3, VX, CTL and ENG (R45). -/
def pV3 (a b c : Nat) : Nat := a * 4096 + b * 64 + c
/-- The payload of a compare. -/
def pCmp (a b rel pd : Nat) : Nat := a * 4096 + b * 64 + rel * 16 + pd
/-- The payload of MX.RD and MX.WR. -/
def pTile (a b tile slice imm2 : Nat) : Nat := a * 4096 + b * 64 + tile * 8 + slice * 4 + imm2
/-- The payload of a VI word. -/
def pVi (imm8 fn c : Nat) : Nat := imm8 * 1024 + fn * 64 + c
/-- The payload of a scalar word. -/
def pSc (fn sa sd : Nat) : Nat := fn * 16384 + sa * 128 + sd
/-- The payload of LD, ST and the atomics. -/
def pLd (a pair size scope : Nat) : Nat := a * 4096 + pair * 128 + size * 16 + scope
/-- The payload of SPAD. -/
def pSpad (a b size dir mode : Nat) : Nat := a * 4096 + b * 64 + size * 8 + dir * 4 + mode
/-- The payload of TRAP. -/
def pTrap (c : Nat) : Nat := 22 * 4096 + c

/-- The word of a major, a header and a payload (R41). -/
def mkWord (maj : Nat) (h : Hdr) (p : Nat) : Nat :=
  1 + maj * 2 + h.stl * 64 + h.ge.toNat * 256 + h.gp * 512 + h.gs.toNat * 8192 + p * 16384

/-- The header of a word (R41). -/
def hdrOf (w : Nat) : Hdr :=
  { ge := decide (w / 256 % 2 = 1), gs := decide (w / 8192 % 2 = 1), gp := w / 512 % 16, stl := w / 64 % 4 }

/-- The header with bits [7:6] taken as an order or a scope class (R43). -/
def Hdr.noStl (h : Hdr) : Hdr := { h with stl := 0 }
/-- The header with these bits [7:6]. -/
def Hdr.withStl (h : Hdr) (n : Nat) : Hdr := { h with stl := n }

/-- The word of an arm (R60). -/
def armWord (a : Arm) : Nat := 1 + a.p * 2 + a.sense.toNat * 32 + a.off * 16384
/-- The arm of a word. -/
def armOf (w : Nat) : Arm := { off := w / 16384, sense := decide (w / 32 % 2 = 1), p := w / 2 % 16 }
/-- An arm word has bit 0 set and bits [13:6] clear (R60). -/
def armWordOk (w : Nat) : Bool := decide (w % 2 = 1) && decide (w / 64 % 256 = 0)

/-- Major 10, VX-INT (R48). -/
def decodeVxInt (h : Hdr) (p : Nat) : Except DecodeError Instr :=
  match fA p with
  | 0 => .ok (.xor h (fC p) (fB p))
  | 1 => .ok (.shl h (fC p) (fB p))
  | 2 => .ok (.shr h (fC p) (fB p))
  | 3 => .ok (.sra h (fC p) (fB p))
  | 4 => .ok (.mul h (fC p) (fB p))
  | 5 => .ok (.mulhs h (fC p) (fB p))
  | 6 => .ok (.mulhu h (fC p) (fB p))
  | 7 => .ok (.mins h (fC p) (fB p))
  | 8 => .ok (.maxs h (fC p) (fB p))
  | 9 => .ok (.minu h (fC p) (fB p))
  | 10 => .ok (.maxu h (fC p) (fB p))
  | 11 => .ok (.andn h (fC p) (fB p))
  | 12 => .ok (.not h (fC p) (fB p))
  | 13 => .ok (.neg h (fC p) (fB p))
  | 14 => .ok (.abs h (fC p) (fB p))
  | 15 => .ok (.clz h (fC p) (fB p))
  | 16 => .ok (.popc h (fC p) (fB p))
  | 17 => .ok (.brev h (fC p) (fB p))
  | 18 => .ok (.mov h (fC p) (fB p))
  | 19 => .ok (.bcast h (fC p) (fB p))
  | 20 => if fB p = 0 then .ok (.lane h (fC p)) else .error .reservedBits
  | 21 => .ok (.psetv h (fC p) (fB p))
  | 22 => .ok (.pgetv h (fC p) (fB p))
  | 23 => .ok (.pand h (fC p) (fB p))
  | 24 => .ok (.por h (fC p) (fB p))
  | 25 => .ok (.pxor h (fC p) (fB p))
  | 26 => .ok (.pnot h (fC p) (fB p))
  | 27 => .ok (.pmov h (fC p) (fB p))
  | _ => .error .unassigned

/-- Major 11, VX-FLT (R48). -/
def decodeVxFlt (h : Hdr) (p : Nat) : Except DecodeError Instr :=
  match fA p with
  | 0 => .ok (.fsub h (fC p) (fB p))
  | 1 => .ok (.fmin h (fC p) (fB p))
  | 2 => .ok (.fmax h (fC p) (fB p))
  | 3 => .ok (.fabs h (fC p) (fB p))
  | 4 => .ok (.fneg h (fC p) (fB p))
  | 5 => .ok (.rndn h (fC p) (fB p))
  | 6 => .ok (.rndz h (fC p) (fB p))
  | 7 => .ok (.rndd h (fC p) (fB p))
  | 8 => .ok (.rndu h (fC p) (fB p))
  | 9 => .ok (.rcp h (fC p) (fB p))
  | 10 => .ok (.rsq h (fC p) (fB p))
  | 11 => .ok (.sqrt h (fC p) (fB p))
  | 12 => .ok (.exp2 h (fC p) (fB p))
  | 13 => .ok (.log2 h (fC p) (fB p))
  | 14 => .ok (.sinpi h (fC p) (fB p))
  | 15 => .ok (.cospi h (fC p) (fB p))
  | 16 => .ok (.tanh h (fC p) (fB p))
  | 17 => .ok (.sigm h (fC p) (fB p))
  | 18 => .ok (.fclass h (fC p) (fB p))
  | 19 => .ok (.hadd2 h (fC p) (fB p))
  | 20 => .ok (.hmul2 h (fC p) (fB p))
  | 21 => .ok (.hmax2 h (fC p) (fB p))
  | _ => .error .unassigned

/-- Major 12, VX-CVT (R49). -/
def decodeVxCvt (h : Hdr) (p : Nat) : Except DecodeError Instr :=
  match fA p % 16 with
  | 0 => .ok (.cvtF32I32 h (fC p) (fB p) (fA p / 16))
  | 1 => .ok (.cvtF32Ui32 h (fC p) (fB p) (fA p / 16))
  | 2 => .ok (.cvtI32F32 h (fC p) (fB p) (fA p / 16))
  | 3 => .ok (.cvtUi32F32 h (fC p) (fB p) (fA p / 16))
  | 4 => .ok (.cvtBf16F32 h (fC p) (fB p) (fA p / 16))
  | 5 => .ok (.cvtFp16F32 h (fC p) (fB p) (fA p / 16))
  | 6 => if fA p / 16 = 0 then .ok (.cvtF32Bf16 h (fC p) (fB p)) else .error .reservedBits
  | 7 => if fA p / 16 = 0 then .ok (.cvtF32Fp16 h (fC p) (fB p)) else .error .reservedBits
  | 8 => .ok (.cvtE4m3F32 h (fC p) (fB p) (fA p / 16))
  | 9 => .ok (.cvtE5m2F32 h (fC p) (fB p) (fA p / 16))
  | 10 => .ok (.cvtE2m1F32 h (fC p) (fB p) (fA p / 16))
  | 11 => if fA p / 16 = 0 then .ok (.cvtF32E4m3 h (fC p) (fB p)) else .error .reservedBits
  | 12 => if fA p / 16 = 0 then .ok (.cvtF32E5m2 h (fC p) (fB p)) else .error .reservedBits
  | 13 => if fA p / 16 = 0 then .ok (.cvtF32E2m1 h (fC p) (fB p)) else .error .reservedBits
  | 14 => .ok (.cvtInt8I32 h (fC p) (fB p) (fA p / 16))
  | 15 => if fA p / 16 = 0 then .ok (.cvtF32Int8 h (fC p) (fB p)) else .error .reservedBits
  | _ => .error .unassigned

/-- Major 13, XLANE (R48). -/
def decodeXlane (h : Hdr) (p : Nat) : Except DecodeError Instr :=
  match fA p with
  | 0 => .ok (.voteany h (fC p) (fB p))
  | 1 => .ok (.voteall h (fC p) (fB p))
  | 2 => .ok (.ballot h (fC p) (fB p))
  | 3 => .ok (.redadd h (fC p) (fB p))
  | 4 => .ok (.redfadd h (fC p) (fB p))
  | 5 => .ok (.redfmax h (fC p) (fB p))
  | 6 => .ok (.redmaxs h (fC p) (fB p))
  | 7 => .ok (.scanadd h (fC p) (fB p))
  | 8 => .ok (.scanfadd h (fC p) (fB p))
  | 9 => .ok (.amax h (fC p) (fB p))
  | 10 => .ok (.matchEq h (fC p) (fB p))
  | 11 => if fB p = 0 then .ok (.elect h (fC p)) else .error .reservedBits
  | 12 => .ok (.rdlane h (fC p) (fB p))
  | 13 => .ok (.shfl h (fC p) (fB p))
  | 14 => if fC p = 0 then .ok (.setmm h (fB p)) else .error .reservedBits
  | 15 => if fB p = 0 then .ok (.getmm h (fC p)) else .error .reservedBits
  | _ => .error .unassigned

/-- Major 18, VI (R50). -/
def decodeVi (h : Hdr) (p : Nat) : Except DecodeError Instr :=
  match fViFn p with
  | 0 => .ok (.movi h (fC p) (fImm8 p))
  | 1 => .ok (.addi h (fC p) (fImm8 p))
  | 2 => .ok (.andi h (fC p) (fImm8 p))
  | 3 => .ok (.ori h (fC p) (fImm8 p))
  | 4 => .ok (.xori h (fC p) (fImm8 p))
  | 5 => .ok (.shli h (fC p) (fImm8 p))
  | 6 => .ok (.shri h (fC p) (fImm8 p))
  | 7 => .ok (.srai h (fC p) (fImm8 p))
  | 8 => .ok (.muli h (fC p) (fImm8 p))
  | 9 => .ok (.inshi h (fC p) (fImm8 p))
  | _ => .error .unassigned

/-- Major 19, SC (R51). -/
def decodeSc (h : Hdr) (p : Nat) : Except DecodeError Instr :=
  match fScFn p with
  | 0 => .ok (.sMov h (fSd p) (fSa p))
  | 1 => .ok (.sAdd h (fSd p) (fSa p))
  | 2 => .ok (.sSub h (fSd p) (fSa p))
  | 3 => .ok (.sMul h (fSd p) (fSa p))
  | 4 => .ok (.sMulhu h (fSd p) (fSa p))
  | 5 => .ok (.sAnd h (fSd p) (fSa p))
  | 6 => .ok (.sOr h (fSd p) (fSa p))
  | 7 => .ok (.sXor h (fSd p) (fSa p))
  | 8 => .ok (.sShl h (fSd p) (fSa p))
  | 9 => .ok (.sShr h (fSd p) (fSa p))
  | 10 => .ok (.sSra h (fSd p) (fSa p))
  | 11 => .ok (.sMin h (fSd p) (fSa p))
  | 12 => .ok (.sMax h (fSd p) (fSa p))
  | 13 => .ok (.sMinu h (fSd p) (fSa p))
  | 14 => .ok (.sMaxu h (fSd p) (fSa p))
  | 15 => .ok (.sSlt h (fSd p) (fSa p))
  | _ => .error .unassigned

/-- Major 20, SC2 (R51). -/
def decodeSc2 (h : Hdr) (p : Nat) : Except DecodeError Instr :=
  match fScFn p with
  | 0 => .ok (.sAdd64 h (fSd p) (fSa p))
  | 1 => .ok (.sSub64 h (fSd p) (fSa p))
  | 2 => .ok (.sLea h (fSd p) (fSa p))
  | 3 => .ok (.sLeas h (fSd p) (fSa p))
  | 4 => .ok (.sSltu h (fSd p) (fSa p))
  | 5 => .ok (.sSeq h (fSd p) (fSa p))
  | 6 => .ok (.sNot h (fSd p) (fSa p))
  | 7 => .ok (.sNeg h (fSd p) (fSa p))
  | 8 => .ok (.sClz h (fSd p) (fSa p))
  | 9 => .ok (.sPopc h (fSd p) (fSa p))
  | 10 => .ok (.sGetsr h (fSd p) (fSa p))
  | 11 => .ok (.sSetsr h (fSd p) (fSa p))
  | 12 => .ok (.sPset h (fSd p) (fSa p))
  | 13 => .ok (.sRdsys h (fSd p) (fSa p))
  | 14 => .ok (.sWrsys h (fSd p) (fSa p))
  | _ => .error .unassigned

/-- Major 21, SI (R51). -/
def decodeSi (h : Hdr) (p : Nat) (lits : List Nat) : Except DecodeError Instr :=
  match fScFn p with
  | 0 => .ok (.sMovi h (fSd p) (fSa p))
  | 1 => .ok (.sAddi h (fSd p) (fSa p))
  | 2 => .ok (.sAndi h (fSd p) (fSa p))
  | 3 => .ok (.sOri h (fSd p) (fSa p))
  | 4 => .ok (.sXori h (fSd p) (fSa p))
  | 5 => .ok (.sShli h (fSd p) (fSa p))
  | 6 => .ok (.sShri h (fSd p) (fSa p))
  | 7 => .ok (.sSrai h (fSd p) (fSa p))
  | 8 => match lits with
    | [lit] => if fSa p = 0 then .ok (.sLit h (fSd p) lit) else .error .reservedBits
    | _ => .error .truncated
  | 9 => match lits with
    | [lo, hi] => if fSa p = 0 then .ok (.sLit64 h (fSd p) lo hi) else .error .reservedBits
    | _ => .error .truncated
  | 10 => .ok (.sMuli h (fSd p) (fSa p))
  | 11 => .ok (.sSlti h (fSd p) (fSa p))
  | 12 => .ok (.sAddi64 h (fSd p) (fSa p))
  | _ => .error .unassigned

/-- Major 25, ATOM-A (R52, R227). -/
noncomputable def decodeAtomA (h : Hdr) (p : Nat) : Except DecodeError Instr :=
  match fSize p with
  | 0 => .ok (.atomAdd h.noStl h.stl (fScope p) (fPair p) (fA p))
  | 1 => .ok (.atomAnd h.noStl h.stl (fScope p) (fPair p) (fA p))
  | 2 => .ok (.atomOr h.noStl h.stl (fScope p) (fPair p) (fA p))
  | 3 => .ok (.atomXor h.noStl h.stl (fScope p) (fPair p) (fA p))
  | 4 => .ok (.atomSmin h.noStl h.stl (fScope p) (fPair p) (fA p))
  | 5 => .ok (.atomSmax h.noStl h.stl (fScope p) (fPair p) (fA p))
  | 6 => .ok (.atomUmin h.noStl h.stl (fScope p) (fPair p) (fA p))
  | 7 => .ok (.atomUmax h.noStl h.stl (fScope p) (fPair p) (fA p))
  | _ => .error .unassigned

/-- Major 26, ATOM-B (R52, R227). -/
def decodeAtomB (h : Hdr) (p : Nat) : Except DecodeError Instr :=
  match fSize p with
  | 0 => .ok (.atomExch h.noStl h.stl (fScope p) (fPair p) (fA p))
  | 1 => .ok (.atomCas h.noStl h.stl (fScope p) (fPair p) (fA p))
  | 2 => .ok (.atomFadd h.noStl h.stl (fScope p) (fPair p) (fA p))
  | 3 => .ok (.atomFmin h.noStl h.stl (fScope p) (fPair p) (fA p))
  | 4 => .ok (.atomFmax h.noStl h.stl (fScope p) (fPair p) (fA p))
  | 5 => .ok (.atomAdd64 h.noStl h.stl (fScope p) (fPair p) (fA p))
  | 6 => .ok (.atomExch64 h.noStl h.stl (fScope p) (fPair p) (fA p))
  | 7 => .ok (.atomCas64 h.noStl h.stl (fScope p) (fPair p) (fA p))
  | _ => .error .unassigned

/-- Major 27, SMEM (R53). -/
def decodeSmem (h : Hdr) (p : Nat) : Except DecodeError Instr :=
  match fScFn p with
  | 0 => .ok (.sLdW h.noStl h.stl (fSd p) (fSa p))
  | 1 => .ok (.sLdD h.noStl h.stl (fSd p) (fSa p))
  | 2 => .ok (.sLdQ h.noStl h.stl (fSd p) (fSa p))
  | 3 => .ok (.sLdO h.noStl h.stl (fSd p) (fSa p))
  | 4 => .ok (.sStW h.noStl h.stl (fSd p) (fSa p))
  | 5 => .ok (.sStD h.noStl h.stl (fSd p) (fSa p))
  | 6 => .ok (.sStQ h.noStl h.stl (fSd p) (fSa p))
  | 7 => .ok (.sAtomAdd h.noStl h.stl (fSd p) (fSa p))
  | 8 => .ok (.sAtomCas h.noStl h.stl (fSd p) (fSa p))
  | 9 => .ok (.sLdAcqW h.noStl h.stl (fSd p) (fSa p))
  | 10 => .ok (.sStRelW h.noStl h.stl (fSd p) (fSa p))
  | _ => .error .unassigned

/-- Major 30, CTL (R55). -/
def decodeCtl (h : Hdr) (p : Nat) (lits : List Nat) : Except DecodeError Instr :=
  match fA p with
  | 0 => if fB p = 0 ∧ fC p = 0 then .ok (.nop h) else .error .reservedBits
  | 1 => if fB p = 0 ∧ fC p = 0 then .ok (.exit h) else .error .reservedBits
  | 2 => if fC p = 0 then .ok (.brx h (fB p)) else .error .reservedBits
  | 3 => if fC p ≠ 0 then .error .reservedBits
    else if fB p < 1 ∨ 4 < fB p then .error .badCount
    else if lits.length ≠ fB p then .error .truncated
    else if lits.all armWordOk then .ok (.mbr h (lits.map armOf)) else .error .badArm
  | 4 => if fB p = 0 ∧ fC p = 0 then .ok (.join h) else .error .reservedBits
  | 5 => if fB p = 0 ∧ fC p = 0 then .ok (.yield h) else .error .reservedBits
  | 6 => if fB p = 0 ∧ fC p = 0 then .ok (.trig h) else .error .reservedBits
  | 7 => if fC p = 0 then .ok (.pset h (fB p)) else .error .reservedBits
  | 8 => if fC p = 0 then .ok (.pseti h (fB p)) else .error .reservedBits
  | 9 => if fB p = 0 then .ok (.pget h (fC p)) else .error .reservedBits
  | 10 => .ok (.pmask h (fC p) (fB p))
  | 11 => .ok (.bar h (fC p) (fB p))
  | 12 => .ok (.barArv h (fC p) (fB p))
  | 13 => if fB p = 0 ∧ fC p = 0 then .ok (.cbar h) else .error .reservedBits
  | 14 => .ok (.sbInit h (fC p) (fB p))
  | 15 => if fC p = 0 then .ok (.sbArv h (fB p)) else .error .reservedBits
  | 16 => .ok (.sbWait h (fC p) (fB p))
  | 17 => .ok (.sbTest h (fC p) (fB p))
  | 18 => .ok (.waitc h (fC p) (fB p))
  | 19 => .ok (.tlwait h (fC p) (fB p))
  | 20 => .ok (.tlread h (fC p) (fB p))
  | 21 => if fC p = 3 then .ok (.fenceMir h (fB p)) else .ok (.fence h (fC p) (fB p))
  | 22 => .ok (.trap h (fTrap p))
  | 23 => if fB p = 0 ∧ fC p = 0 then .ok (.tret h) else .error .reservedBits
  | 24 => if fB p = 0 ∧ fC p = 0 then .ok (.region h) else .error .reservedBits
  | 25 => match lits with
    | [lit] => if fB p = 0 ∧ fC p = 0 then .ok (.sigchk h lit) else .error .reservedBits
    | _ => .error .truncated
  | 26 => if fB p = 0 ∧ fC p = 0 then .ok (.brk h) else .error .reservedBits
  | 27 => if fC p = 0 then .ok (.wqNext h (fB p)) else .error .reservedBits
  | 28 => .ok (.recv h (fC p) (fB p))
  | 29 => .ok (.send h (fC p) (fB p))
  | 30 => .ok (.launch h (fC p) (fB p))
  | 31 => .ok (.joinw h (fC p) (fB p))
  | 32 => .ok (.tagL h (fC p) (fB p))
  | 33 => .ok (.tagI h (fC p) (fB p))
  | 34 => .ok (.tagE h (fC p) (fB p))
  | 35 => if fC p = 0 then .ok (.pref h (fB p)) else .error .reservedBits
  | 36 => if fC p = 0 then .ok (.ovtld h (fB p)) else .error .reservedBits
  | 37 => if fC p = 0 then .ok (.srseed h (fB p)) else .error .reservedBits
  | 38 => if fB p = 0 then .ok (.srget h (fC p)) else .error .reservedBits
  | 39 => .ok (.pchk h (fC p) (fB p))
  | 40 => .ok (.drain h (fC p) (fB p))
  | 41 => .ok (.scanRun h (fC p) (fB p))
  | 42 => .ok (.scanSig h (fC p) (fB p))
  | 43 => .ok (.cmapSet h (fC p) (fB p))
  | 44 => .ok (.tqPop h (fC p) (fB p))
  | 45 => if fC p = 0 then .ok (.callx h (fB p)) else .error .reservedBits
  | 46 => if fB p = 0 ∧ fC p = 0 then .ok (.ret h) else .error .reservedBits
  | _ => .error .unassigned

/-- Major 31, ENG (R56). -/
noncomputable def decodeEng (h : Hdr) (p : Nat) : Except DecodeError Instr :=
  match fA p with
  | 0 => .ok (.cpTensor h (fC p) (fB p))
  | 1 => if fC p = 0 then .ok (.cpLin h (fB p)) else .error .reservedBits
  | 2 => .ok (.cpGather h (fC p) (fB p))
  | 3 => .ok (.cpScatter h (fC p) (fB p))
  | 4 => .ok (.cpFollow h (fC p) (fB p))
  | 5 => if fC p = 0 then .ok (.cpCancel h (fB p)) else .error .reservedBits
  | 8 => .ok (.mxMma h (fC p) (fB p))
  | 9 => if fC p = 0 then .ok (.mxAcq h (fB p)) else .error .reservedBits
  | 10 => if fC p = 0 then .ok (.mxRel h (fB p)) else .error .reservedBits
  | 11 => .ok (.mxZero h (fC p) (fB p))
  | 12 => .ok (.mxStraw h (fC p) (fB p))
  | 13 => .ok (.mxAddraw h (fC p) (fB p))
  | 14 => .ok (.mxStat h (fC p) (fB p))
  | 15 => if fC p = 0 then .ok (.mxApf h (fB p)) else .error .reservedBits
  | 16 => if fC p = 0 then .ok (.mxAinv h (fB p)) else .error .reservedBits
  | 17 => .ok (.mxAqry h (fC p) (fB p))
  | 20 => if fC p = 0 then .ok (.smCfg h (fB p)) else .error .reservedBits
  | 21 => if fC p = 0 then .ok (.smLdc h (fB p)) else .error .reservedBits
  | 22 => if fC p = 0 then .ok (.smLdb h (fB p)) else .error .reservedBits
  | 23 => if fC p = 0 then .ok (.smClamp h (fB p)) else .error .reservedBits
  | 24 => if fC p = 0 then .ok (.smInit h (fB p)) else .error .reservedBits
  | 25 => .ok (.smKey h (fC p) (fB p))
  | 26 => if fC p = 0 then .ok (.smSweep h (fB p)) else .error .reservedBits
  | 27 => if fC p = 0 then .ok (.smRead h (fB p)) else .error .reservedBits
  | 28 => if fC p = 0 then .ok (.smHlth h (fB p)) else .error .reservedBits
  | 29 => if fC p = 0 then .ok (.smBx h (fB p)) else .error .reservedBits
  | 32 => if fC p = 0 then .ok (.colRed h (fB p)) else .error .reservedBits
  | 33 => if fC p = 0 then .ok (.colBcast h (fB p)) else .error .reservedBits
  | 34 => if fC p = 0 then .ok (.colGath h (fB p)) else .error .reservedBits
  | _ => .error .unassigned

/-- The instruction of a 32-bit word by its major (R44, R48). Major 0 is unassigned. -/
noncomputable def decodeMaj (maj : Nat) (h : Hdr) (p : Nat) (lits : List Nat) : Except DecodeError Instr :=
  match maj with
  | 1 => .ok (.ffma h (fC p) (fB p) (fA p))
  | 2 => .ok (.fadd h (fC p) (fB p) (fA p))
  | 3 => .ok (.fmul h (fC p) (fB p) (fA p))
  | 4 => .ok (.iadd h (fC p) (fB p) (fA p))
  | 5 => .ok (.isub h (fC p) (fB p) (fA p))
  | 6 => .ok (.imad h (fC p) (fB p) (fA p))
  | 7 => .ok (.and h (fC p) (fB p) (fA p))
  | 8 => .ok (.or h (fC p) (fB p) (fA p))
  | 9 => .ok (.mxRd h (fImm2 p) (fSlice p) (fTile p) (fB p) (fA p))
  | 10 => decodeVxInt h p
  | 11 => decodeVxFlt h p
  | 12 => decodeVxCvt h p
  | 13 => decodeXlane h p
  | 14 => .ok (.cmpI32 h (fPd p) (fRel p) (fB p) (fA p))
  | 15 => .ok (.cmpUi32 h (fPd p) (fRel p) (fB p) (fA p))
  | 16 => .ok (.cmpF32 h (fPd p) (fRel p) (fB p) (fA p))
  | 17 => .ok (.mxWr h (fImm2 p) (fSlice p) (fTile p) (fB p) (fA p))
  | 18 => decodeVi h p
  | 19 => decodeSc h p
  | 20 => decodeSc2 h p
  | 21 => decodeSi h p lits
  | 22 => .ok (.ld h.noStl h.stl (fScope p) (fSize p) (fPair p) (fA p))
  | 23 => .ok (.st h.noStl h.stl (fScope p) (fSize p) (fPair p) (fA p))
  | 24 =>
    if fDir p = 1 then
      if fMode p = 0 then .ok (.sts h.noStl h.stl (fSpSize p) (fB p) (fA p)) else .error .reservedBits
    else if fMode p = 0 then .ok (.lds h.noStl h.stl (fSpSize p) (fB p) (fA p))
    else if fMode p = 1 then .ok (.ldsBcast h.noStl h.stl (fSpSize p) (fB p) (fA p))
    else .error .reservedBits
  | 25 => decodeAtomA h p
  | 26 => decodeAtomB h p
  | 27 => decodeSmem h p
  | 28 => .ok (.bra h p)
  | 29 => .ok (.call h p)
  | 30 => decodeCtl h p lits
  | 31 => decodeEng h p
  | _ => .error .unassigned

/-- How many words follow a 32-bit word (R59). DESIGN CHOICE, log entry 136. -/
def followWords (w : Nat) : Nat :=
  match w / 2 % 32, w / 16384 with
  | 21, p => if fScFn p = 8 then 1 else if fScFn p = 9 then 2 else 0
  | 30, p => if fA p = 25 then 1 else if fA p = 3 ∧ fB p ≤ 4 then fB p else 0
  | _, _ => 0

/-- The instruction of a compact parcel (R57, R58, R61). -/
noncomputable def decodeParcel (p : Nat) : Except DecodeError Instr :=
  if p = 0 then .error .illegalWord
  else
    match p / 2 % 16 with
    | 0 => .ok (.cMov (p / 32 % 64) (p / 2048))
    | 1 => .ok (.cIadd (p / 32 % 64) (p / 2048))
    | 2 => .ok (.cIsub (p / 32 % 64) (p / 2048))
    | 3 => .ok (.cAnd (p / 32 % 64) (p / 2048))
    | 4 => .ok (.cOr (p / 32 % 64) (p / 2048))
    | 5 => .ok (.cXor (p / 32 % 64) (p / 2048))
    | 6 => .ok (.cShl (p / 32 % 64) (p / 2048))
    | 7 => .ok (.cShr (p / 32 % 64) (p / 2048))
    | 8 => .ok (.cFadd (p / 32 % 64) (p / 2048))
    | 9 => .ok (.cFmul (p / 32 % 64) (p / 2048))
    | 10 => .ok (.cFsub (p / 32 % 64) (p / 2048))
    | 11 => .ok (.cFmax (p / 32 % 64) (p / 2048))
    | 12 => .ok (.cFmin (p / 32 % 64) (p / 2048))
    | 13 => .ok (.cImul (p / 32 % 64) (p / 2048))
    | 14 => .ok (.cSra (p / 32 % 64) (p / 2048))
    | _ => if p = 0x001E then .ok .cNop else .error .reservedBits

/-- The instruction of some code (R38, R59). -/
noncomputable def decodeCode : Code → Except DecodeError Instr
  | .parcel p => decodeParcel p
  | .word w lits => decodeMaj (w / 2 % 32) (hdrOf w) (w / 16384) lits

/-- The bytes of a number, least significant first. -/
def leBytes : Nat → Nat → List Byte
  | 0, _ => []
  | n + 1, w => BitVec.ofNat 8 w :: leBytes n (w / 256)

/-- The number that some bytes hold, least significant first. -/
def leNat : List Byte → Nat
  | [] => 0
  | b :: r => b.toNat + 256 * leNat r

/-- Read n 32-bit words from the front of some bytes. -/
def readWords : Nat → List Byte → Option (List Nat × List Byte)
  | 0, bs => some ([], bs)
  | n + 1, b0 :: b1 :: b2 :: b3 :: r =>
    match readWords n r with
    | some (ws, r') => some (leNat [b0, b1, b2, b3] :: ws, r')
    | none => none
  | _ + 1, _ => none

/-- The first instruction's code in some bytes and the bytes after it (R38, R59). -/
def readCode : List Byte → Option (Code × List Byte)
  | b0 :: b1 :: r =>
    if b0.toNat % 2 = 0 then some (.parcel (leNat [b0, b1]), r)
    else
      match r with
      | b2 :: b3 :: r' =>
        match readWords (followWords (leNat [b0, b1, b2, b3])) r' with
        | some (ls, r'') => some (.word (leNat [b0, b1, b2, b3]) ls, r'')
        | none => none
      | _ => none
  | _ => none

/-- The first instruction in some bytes and the bytes after it. -/
noncomputable def decode (bs : List Byte) : Except DecodeError (Instr × List Byte) :=
  match readCode bs with
  | none => .error .truncated
  | some (c, r) =>
    match decodeCode c with
    | .ok i => .ok (i, r)
    | .error e => .error e

/-- How many bytes some code takes (R38, R59). -/
def Code.length : Code → Nat
  | .parcel _ => 2
  | .word _ lits => 4 + 4 * lits.length

/-- The stored bytes of some code (R38). -/
def Code.bytes : Code → List Byte
  | .parcel p => leBytes 2 p
  | .word w lits => leBytes 4 w ++ lits.flatMap (leBytes 4)

/-- The code of an instruction: the encodings of R45-R60, read the other way. An event of the machine
has none. DRAIN, SCAN.RUN and CMAP.SET have one word each for all their modes, which a register holds. -/
def encode : Instr → Option Code
  | .ffma h d a b => some (.word (mkWord 1 h (pV3 b a d)) [])
  | .fadd h d a b => some (.word (mkWord 2 h (pV3 b a d)) [])
  | .fmul h d a b => some (.word (mkWord 3 h (pV3 b a d)) [])
  | .iadd h d a b => some (.word (mkWord 4 h (pV3 b a d)) [])
  | .isub h d a b => some (.word (mkWord 5 h (pV3 b a d)) [])
  | .imad h d a b => some (.word (mkWord 6 h (pV3 b a d)) [])
  | .and h d a b => some (.word (mkWord 7 h (pV3 b a d)) [])
  | .or h d a b => some (.word (mkWord 8 h (pV3 b a d)) [])
  | .xor h d a => some (.word (mkWord 10 h (pV3 0 a d)) [])
  | .shl h d a => some (.word (mkWord 10 h (pV3 1 a d)) [])
  | .shr h d a => some (.word (mkWord 10 h (pV3 2 a d)) [])
  | .sra h d a => some (.word (mkWord 10 h (pV3 3 a d)) [])
  | .mul h d a => some (.word (mkWord 10 h (pV3 4 a d)) [])
  | .mulhs h d a => some (.word (mkWord 10 h (pV3 5 a d)) [])
  | .mulhu h d a => some (.word (mkWord 10 h (pV3 6 a d)) [])
  | .mins h d a => some (.word (mkWord 10 h (pV3 7 a d)) [])
  | .maxs h d a => some (.word (mkWord 10 h (pV3 8 a d)) [])
  | .minu h d a => some (.word (mkWord 10 h (pV3 9 a d)) [])
  | .maxu h d a => some (.word (mkWord 10 h (pV3 10 a d)) [])
  | .andn h d a => some (.word (mkWord 10 h (pV3 11 a d)) [])
  | .not h d a => some (.word (mkWord 10 h (pV3 12 a d)) [])
  | .neg h d a => some (.word (mkWord 10 h (pV3 13 a d)) [])
  | .abs h d a => some (.word (mkWord 10 h (pV3 14 a d)) [])
  | .clz h d a => some (.word (mkWord 10 h (pV3 15 a d)) [])
  | .popc h d a => some (.word (mkWord 10 h (pV3 16 a d)) [])
  | .brev h d a => some (.word (mkWord 10 h (pV3 17 a d)) [])
  | .mov h d a => some (.word (mkWord 10 h (pV3 18 a d)) [])
  | .bcast h d s => some (.word (mkWord 10 h (pV3 19 s d)) [])
  | .lane h d => some (.word (mkWord 10 h (pV3 20 0 d)) [])
  | .psetv h q a => some (.word (mkWord 10 h (pV3 21 a q)) [])
  | .pgetv h d b => some (.word (mkWord 10 h (pV3 22 b d)) [])
  | .pand h q b => some (.word (mkWord 10 h (pV3 23 b q)) [])
  | .por h q b => some (.word (mkWord 10 h (pV3 24 b q)) [])
  | .pxor h q b => some (.word (mkWord 10 h (pV3 25 b q)) [])
  | .pnot h q b => some (.word (mkWord 10 h (pV3 26 b q)) [])
  | .pmov h q b => some (.word (mkWord 10 h (pV3 27 b q)) [])
  | .fsub h d a => some (.word (mkWord 11 h (pV3 0 a d)) [])
  | .fmin h d a => some (.word (mkWord 11 h (pV3 1 a d)) [])
  | .fmax h d a => some (.word (mkWord 11 h (pV3 2 a d)) [])
  | .fabs h d a => some (.word (mkWord 11 h (pV3 3 a d)) [])
  | .fneg h d a => some (.word (mkWord 11 h (pV3 4 a d)) [])
  | .rndn h d a => some (.word (mkWord 11 h (pV3 5 a d)) [])
  | .rndz h d a => some (.word (mkWord 11 h (pV3 6 a d)) [])
  | .rndd h d a => some (.word (mkWord 11 h (pV3 7 a d)) [])
  | .rndu h d a => some (.word (mkWord 11 h (pV3 8 a d)) [])
  | .rcp h d a => some (.word (mkWord 11 h (pV3 9 a d)) [])
  | .rsq h d a => some (.word (mkWord 11 h (pV3 10 a d)) [])
  | .sqrt h d a => some (.word (mkWord 11 h (pV3 11 a d)) [])
  | .exp2 h d a => some (.word (mkWord 11 h (pV3 12 a d)) [])
  | .log2 h d a => some (.word (mkWord 11 h (pV3 13 a d)) [])
  | .sinpi h d a => some (.word (mkWord 11 h (pV3 14 a d)) [])
  | .cospi h d a => some (.word (mkWord 11 h (pV3 15 a d)) [])
  | .tanh h d a => some (.word (mkWord 11 h (pV3 16 a d)) [])
  | .sigm h d a => some (.word (mkWord 11 h (pV3 17 a d)) [])
  | .fclass h d a => some (.word (mkWord 11 h (pV3 18 a d)) [])
  | .hadd2 h d a => some (.word (mkWord 11 h (pV3 19 a d)) [])
  | .hmul2 h d a => some (.word (mkWord 11 h (pV3 20 a d)) [])
  | .hmax2 h d a => some (.word (mkWord 11 h (pV3 21 a d)) [])
  | .cvtF32I32 h d a r => some (.word (mkWord 12 h (pV3 (r * 16 + 0) a d)) [])
  | .cvtF32Ui32 h d a r => some (.word (mkWord 12 h (pV3 (r * 16 + 1) a d)) [])
  | .cvtI32F32 h d a r => some (.word (mkWord 12 h (pV3 (r * 16 + 2) a d)) [])
  | .cvtUi32F32 h d a r => some (.word (mkWord 12 h (pV3 (r * 16 + 3) a d)) [])
  | .cvtBf16F32 h d a r => some (.word (mkWord 12 h (pV3 (r * 16 + 4) a d)) [])
  | .cvtFp16F32 h d a r => some (.word (mkWord 12 h (pV3 (r * 16 + 5) a d)) [])
  | .cvtF32Bf16 h d a => some (.word (mkWord 12 h (pV3 6 a d)) [])
  | .cvtF32Fp16 h d a => some (.word (mkWord 12 h (pV3 7 a d)) [])
  | .cvtE4m3F32 h d a r => some (.word (mkWord 12 h (pV3 (r * 16 + 8) a d)) [])
  | .cvtE5m2F32 h d a r => some (.word (mkWord 12 h (pV3 (r * 16 + 9) a d)) [])
  | .cvtE2m1F32 h d a r => some (.word (mkWord 12 h (pV3 (r * 16 + 10) a d)) [])
  | .cvtF32E4m3 h d a => some (.word (mkWord 12 h (pV3 11 a d)) [])
  | .cvtF32E5m2 h d a => some (.word (mkWord 12 h (pV3 12 a d)) [])
  | .cvtF32E2m1 h d a => some (.word (mkWord 12 h (pV3 13 a d)) [])
  | .cvtInt8I32 h d a r => some (.word (mkWord 12 h (pV3 (r * 16 + 14) a d)) [])
  | .cvtF32Int8 h d a => some (.word (mkWord 12 h (pV3 15 a d)) [])
  | .voteany h s q => some (.word (mkWord 13 h (pV3 0 q s)) [])
  | .voteall h s q => some (.word (mkWord 13 h (pV3 1 q s)) [])
  | .ballot h s q => some (.word (mkWord 13 h (pV3 2 q s)) [])
  | .redadd h s a => some (.word (mkWord 13 h (pV3 3 a s)) [])
  | .redfadd h s a => some (.word (mkWord 13 h (pV3 4 a s)) [])
  | .redfmax h s a => some (.word (mkWord 13 h (pV3 5 a s)) [])
  | .redmaxs h s a => some (.word (mkWord 13 h (pV3 6 a s)) [])
  | .scanadd h d a => some (.word (mkWord 13 h (pV3 7 a d)) [])
  | .scanfadd h d a => some (.word (mkWord 13 h (pV3 8 a d)) [])
  | .amax h s a => some (.word (mkWord 13 h (pV3 9 a s)) [])
  | .matchEq h d a => some (.word (mkWord 13 h (pV3 10 a d)) [])
  | .elect h s => some (.word (mkWord 13 h (pV3 11 0 s)) [])
  | .rdlane h s a => some (.word (mkWord 13 h (pV3 12 a s)) [])
  | .shfl h d a => some (.word (mkWord 13 h (pV3 13 a d)) [])
  | .setmm h s => some (.word (mkWord 13 h (pV3 14 s 0)) [])
  | .getmm h s => some (.word (mkWord 13 h (pV3 15 0 s)) [])
  | .cmpI32 h q r a b => some (.word (mkWord 14 h (pCmp b a r q)) [])
  | .cmpUi32 h q r a b => some (.word (mkWord 15 h (pCmp b a r q)) [])
  | .cmpF32 h q r a b => some (.word (mkWord 16 h (pCmp b a r q)) [])
  | .mxRd h m s t i v => some (.word (mkWord 9 h (pTile v i t s m)) [])
  | .mxWr h m s t i v => some (.word (mkWord 17 h (pTile v i t s m)) [])
  | .movi h d m => some (.word (mkWord 18 h (pVi m 0 d)) [])
  | .addi h d m => some (.word (mkWord 18 h (pVi m 1 d)) [])
  | .andi h d m => some (.word (mkWord 18 h (pVi m 2 d)) [])
  | .ori h d m => some (.word (mkWord 18 h (pVi m 3 d)) [])
  | .xori h d m => some (.word (mkWord 18 h (pVi m 4 d)) [])
  | .shli h d m => some (.word (mkWord 18 h (pVi m 5 d)) [])
  | .shri h d m => some (.word (mkWord 18 h (pVi m 6 d)) [])
  | .srai h d m => some (.word (mkWord 18 h (pVi m 7 d)) [])
  | .muli h d m => some (.word (mkWord 18 h (pVi m 8 d)) [])
  | .inshi h d m => some (.word (mkWord 18 h (pVi m 9 d)) [])
  | .sMov h d a => some (.word (mkWord 19 h (pSc 0 a d)) [])
  | .sAdd h d a => some (.word (mkWord 19 h (pSc 1 a d)) [])
  | .sSub h d a => some (.word (mkWord 19 h (pSc 2 a d)) [])
  | .sMul h d a => some (.word (mkWord 19 h (pSc 3 a d)) [])
  | .sMulhu h d a => some (.word (mkWord 19 h (pSc 4 a d)) [])
  | .sAnd h d a => some (.word (mkWord 19 h (pSc 5 a d)) [])
  | .sOr h d a => some (.word (mkWord 19 h (pSc 6 a d)) [])
  | .sXor h d a => some (.word (mkWord 19 h (pSc 7 a d)) [])
  | .sShl h d a => some (.word (mkWord 19 h (pSc 8 a d)) [])
  | .sShr h d a => some (.word (mkWord 19 h (pSc 9 a d)) [])
  | .sSra h d a => some (.word (mkWord 19 h (pSc 10 a d)) [])
  | .sMin h d a => some (.word (mkWord 19 h (pSc 11 a d)) [])
  | .sMax h d a => some (.word (mkWord 19 h (pSc 12 a d)) [])
  | .sMinu h d a => some (.word (mkWord 19 h (pSc 13 a d)) [])
  | .sMaxu h d a => some (.word (mkWord 19 h (pSc 14 a d)) [])
  | .sSlt h d a => some (.word (mkWord 19 h (pSc 15 a d)) [])
  | .sAdd64 h d a => some (.word (mkWord 20 h (pSc 0 a d)) [])
  | .sSub64 h d a => some (.word (mkWord 20 h (pSc 1 a d)) [])
  | .sLea h d a => some (.word (mkWord 20 h (pSc 2 a d)) [])
  | .sLeas h d a => some (.word (mkWord 20 h (pSc 3 a d)) [])
  | .sSltu h d a => some (.word (mkWord 20 h (pSc 4 a d)) [])
  | .sSeq h d a => some (.word (mkWord 20 h (pSc 5 a d)) [])
  | .sNot h d a => some (.word (mkWord 20 h (pSc 6 a d)) [])
  | .sNeg h d a => some (.word (mkWord 20 h (pSc 7 a d)) [])
  | .sClz h d a => some (.word (mkWord 20 h (pSc 8 a d)) [])
  | .sPopc h d a => some (.word (mkWord 20 h (pSc 9 a d)) [])
  | .sGetsr h d a => some (.word (mkWord 20 h (pSc 10 a d)) [])
  | .sSetsr h d a => some (.word (mkWord 20 h (pSc 11 a d)) [])
  | .sPset h d q => some (.word (mkWord 20 h (pSc 12 q d)) [])
  | .sRdsys h d a => some (.word (mkWord 20 h (pSc 13 a d)) [])
  | .sWrsys h d a => some (.word (mkWord 20 h (pSc 14 a d)) [])
  | .sMovi h d m => some (.word (mkWord 21 h (pSc 0 m d)) [])
  | .sAddi h d m => some (.word (mkWord 21 h (pSc 1 m d)) [])
  | .sAndi h d m => some (.word (mkWord 21 h (pSc 2 m d)) [])
  | .sOri h d m => some (.word (mkWord 21 h (pSc 3 m d)) [])
  | .sXori h d m => some (.word (mkWord 21 h (pSc 4 m d)) [])
  | .sShli h d m => some (.word (mkWord 21 h (pSc 5 m d)) [])
  | .sShri h d m => some (.word (mkWord 21 h (pSc 6 m d)) [])
  | .sSrai h d m => some (.word (mkWord 21 h (pSc 7 m d)) [])
  | .sLit h d lit => some (.word (mkWord 21 h (pSc 8 0 d)) [lit])
  | .sLit64 h d lo hi => some (.word (mkWord 21 h (pSc 9 0 d)) [lo, hi])
  | .sMuli h d m => some (.word (mkWord 21 h (pSc 10 m d)) [])
  | .sSlti h d m => some (.word (mkWord 21 h (pSc 11 m d)) [])
  | .sAddi64 h d m => some (.word (mkWord 21 h (pSc 12 m d)) [])
  | .ld h o c z a v => some (.word (mkWord 22 (h.withStl o) (pLd v a z c)) [])
  | .st h o c z a v => some (.word (mkWord 23 (h.withStl o) (pLd v a z c)) [])
  | .lds h o z a v => some (.word (mkWord 24 (h.withStl o) (pSpad v a z 0 0)) [])
  | .ldsBcast h o z a v => some (.word (mkWord 24 (h.withStl o) (pSpad v a z 0 1)) [])
  | .sts h o z a v => some (.word (mkWord 24 (h.withStl o) (pSpad v a z 1 0)) [])
  | .atomAdd h o c a d => some (.word (mkWord 25 (h.withStl o) (pLd d a 0 c)) [])
  | .atomAnd h o c a d => some (.word (mkWord 25 (h.withStl o) (pLd d a 1 c)) [])
  | .atomOr h o c a d => some (.word (mkWord 25 (h.withStl o) (pLd d a 2 c)) [])
  | .atomXor h o c a d => some (.word (mkWord 25 (h.withStl o) (pLd d a 3 c)) [])
  | .atomSmin h o c a d => some (.word (mkWord 25 (h.withStl o) (pLd d a 4 c)) [])
  | .atomSmax h o c a d => some (.word (mkWord 25 (h.withStl o) (pLd d a 5 c)) [])
  | .atomUmin h o c a d => some (.word (mkWord 25 (h.withStl o) (pLd d a 6 c)) [])
  | .atomUmax h o c a d => some (.word (mkWord 25 (h.withStl o) (pLd d a 7 c)) [])
  | .atomExch h o c a d => some (.word (mkWord 26 (h.withStl o) (pLd d a 0 c)) [])
  | .atomCas h o c a d => some (.word (mkWord 26 (h.withStl o) (pLd d a 1 c)) [])
  | .atomFadd h o c a d => some (.word (mkWord 26 (h.withStl o) (pLd d a 2 c)) [])
  | .atomFmin h o c a d => some (.word (mkWord 26 (h.withStl o) (pLd d a 3 c)) [])
  | .atomFmax h o c a d => some (.word (mkWord 26 (h.withStl o) (pLd d a 4 c)) [])
  | .atomAdd64 h o c a d => some (.word (mkWord 26 (h.withStl o) (pLd d a 5 c)) [])
  | .atomExch64 h o c a d => some (.word (mkWord 26 (h.withStl o) (pLd d a 6 c)) [])
  | .atomCas64 h o c a d => some (.word (mkWord 26 (h.withStl o) (pLd d a 7 c)) [])
  | .sLdW h c d a => some (.word (mkWord 27 (h.withStl c) (pSc 0 a d)) [])
  | .sLdD h c d a => some (.word (mkWord 27 (h.withStl c) (pSc 1 a d)) [])
  | .sLdQ h c d a => some (.word (mkWord 27 (h.withStl c) (pSc 2 a d)) [])
  | .sLdO h c d a => some (.word (mkWord 27 (h.withStl c) (pSc 3 a d)) [])
  | .sStW h c d a => some (.word (mkWord 27 (h.withStl c) (pSc 4 a d)) [])
  | .sStD h c d a => some (.word (mkWord 27 (h.withStl c) (pSc 5 a d)) [])
  | .sStQ h c d a => some (.word (mkWord 27 (h.withStl c) (pSc 6 a d)) [])
  | .sAtomAdd h c d a => some (.word (mkWord 27 (h.withStl c) (pSc 7 a d)) [])
  | .sAtomCas h c d a => some (.word (mkWord 27 (h.withStl c) (pSc 8 a d)) [])
  | .sLdAcqW h c d a => some (.word (mkWord 27 (h.withStl c) (pSc 9 a d)) [])
  | .sStRelW h c d a => some (.word (mkWord 27 (h.withStl c) (pSc 10 a d)) [])
  | .bra h o => some (.word (mkWord 28 h o) [])
  | .call h o => some (.word (mkWord 29 h o) [])
  | .nop h => some (.word (mkWord 30 h (pV3 0 0 0)) [])
  | .exit h => some (.word (mkWord 30 h (pV3 1 0 0)) [])
  | .brx h a => some (.word (mkWord 30 h (pV3 2 a 0)) [])
  | .mbr h arms => some (.word (mkWord 30 h (pV3 3 arms.length 0)) (arms.map armWord))
  | .join h => some (.word (mkWord 30 h (pV3 4 0 0)) [])
  | .yield h => some (.word (mkWord 30 h (pV3 5 0 0)) [])
  | .trig h => some (.word (mkWord 30 h (pV3 6 0 0)) [])
  | .pset h a => some (.word (mkWord 30 h (pV3 7 a 0)) [])
  | .pseti h x => some (.word (mkWord 30 h (pV3 8 x 0)) [])
  | .pget h d => some (.word (mkWord 30 h (pV3 9 0 d)) [])
  | .pmask h y x => some (.word (mkWord 30 h (pV3 10 x y)) [])
  | .bar h y x => some (.word (mkWord 30 h (pV3 11 x y)) [])
  | .barArv h y x => some (.word (mkWord 30 h (pV3 12 x y)) [])
  | .cbar h => some (.word (mkWord 30 h (pV3 13 0 0)) [])
  | .sbInit h y x => some (.word (mkWord 30 h (pV3 14 x y)) [])
  | .sbArv h x => some (.word (mkWord 30 h (pV3 15 x 0)) [])
  | .sbWait h y x => some (.word (mkWord 30 h (pV3 16 x y)) [])
  | .sbTest h y x => some (.word (mkWord 30 h (pV3 17 x y)) [])
  | .waitc h y x => some (.word (mkWord 30 h (pV3 18 x y)) [])
  | .tlwait h y x => some (.word (mkWord 30 h (pV3 19 x y)) [])
  | .tlread h y x => some (.word (mkWord 30 h (pV3 20 x y)) [])
  | .fence h y x => some (.word (mkWord 30 h (pV3 21 x y)) [])
  | .fenceMir h x => some (.word (mkWord 30 h (pV3 21 x 3)) [])
  | .trap h c => some (.word (mkWord 30 h (pTrap c)) [])
  | .tret h => some (.word (mkWord 30 h (pV3 23 0 0)) [])
  | .region h => some (.word (mkWord 30 h (pV3 24 0 0)) [])
  | .sigchk h lit => some (.word (mkWord 30 h (pV3 25 0 0)) [lit])
  | .brk h => some (.word (mkWord 30 h (pV3 26 0 0)) [])
  | .wqNext h x => some (.word (mkWord 30 h (pV3 27 x 0)) [])
  | .recv h y x => some (.word (mkWord 30 h (pV3 28 x y)) [])
  | .send h y x => some (.word (mkWord 30 h (pV3 29 x y)) [])
  | .launch h y x => some (.word (mkWord 30 h (pV3 30 x y)) [])
  | .joinw h y x => some (.word (mkWord 30 h (pV3 31 x y)) [])
  | .tagL h d a => some (.word (mkWord 30 h (pV3 32 a d)) [])
  | .tagI h d a => some (.word (mkWord 30 h (pV3 33 a d)) [])
  | .tagE h d a => some (.word (mkWord 30 h (pV3 34 a d)) [])
  | .pref h x => some (.word (mkWord 30 h (pV3 35 x 0)) [])
  | .ovtld h x => some (.word (mkWord 30 h (pV3 36 x 0)) [])
  | .srseed h a => some (.word (mkWord 30 h (pV3 37 a 0)) [])
  | .srget h d => some (.word (mkWord 30 h (pV3 38 0 d)) [])
  | .pchk h y a => some (.word (mkWord 30 h (pV3 39 a y)) [])
  | .drain h y x => some (.word (mkWord 30 h (pV3 40 x y)) [])
  | .drainPreempt h y x => some (.word (mkWord 30 h (pV3 40 x y)) [])
  | .drainClear h y x => some (.word (mkWord 30 h (pV3 40 x y)) [])
  | .scanRun h y x => some (.word (mkWord 30 h (pV3 41 x y)) [])
  | .scanRunAbort h y x => some (.word (mkWord 30 h (pV3 41 x y)) [])
  | .scanSig h y x => some (.word (mkWord 30 h (pV3 42 x y)) [])
  | .cmapSet h y x => some (.word (mkWord 30 h (pV3 43 x y)) [])
  | .cmapSetRemove h y x => some (.word (mkWord 30 h (pV3 43 x y)) [])
  | .tqPop h y x => some (.word (mkWord 30 h (pV3 44 x y)) [])
  | .callx h a => some (.word (mkWord 30 h (pV3 45 a 0)) [])
  | .ret h => some (.word (mkWord 30 h (pV3 46 0 0)) [])
  | .cpTensor h y x => some (.word (mkWord 31 h (pV3 0 x y)) [])
  | .cpLin h x => some (.word (mkWord 31 h (pV3 1 x 0)) [])
  | .cpGather h y x => some (.word (mkWord 31 h (pV3 2 x y)) [])
  | .cpScatter h y x => some (.word (mkWord 31 h (pV3 3 x y)) [])
  | .cpFollow h a x => some (.word (mkWord 31 h (pV3 4 x a)) [])
  | .cpCancel h x => some (.word (mkWord 31 h (pV3 5 x 0)) [])
  | .mxMma h y a => some (.word (mkWord 31 h (pV3 8 a y)) [])
  | .mxAcq h t => some (.word (mkWord 31 h (pV3 9 t 0)) [])
  | .mxRel h t => some (.word (mkWord 31 h (pV3 10 t 0)) [])
  | .mxZero h y t => some (.word (mkWord 31 h (pV3 11 t y)) [])
  | .mxStraw h y t => some (.word (mkWord 31 h (pV3 12 t y)) [])
  | .mxAddraw h y t => some (.word (mkWord 31 h (pV3 13 t y)) [])
  | .mxStat h y t => some (.word (mkWord 31 h (pV3 14 t y)) [])
  | .mxApf h x => some (.word (mkWord 31 h (pV3 15 x 0)) [])
  | .mxAinv h x => some (.word (mkWord 31 h (pV3 16 x 0)) [])
  | .mxAqry h y x => some (.word (mkWord 31 h (pV3 17 x y)) [])
  | .smCfg h x => some (.word (mkWord 31 h (pV3 20 x 0)) [])
  | .smLdc h x => some (.word (mkWord 31 h (pV3 21 x 0)) [])
  | .smLdb h x => some (.word (mkWord 31 h (pV3 22 x 0)) [])
  | .smClamp h x => some (.word (mkWord 31 h (pV3 23 x 0)) [])
  | .smInit h x => some (.word (mkWord 31 h (pV3 24 x 0)) [])
  | .smKey h y m => some (.word (mkWord 31 h (pV3 25 m y)) [])
  | .smSweep h x => some (.word (mkWord 31 h (pV3 26 x 0)) [])
  | .smRead h x => some (.word (mkWord 31 h (pV3 27 x 0)) [])
  | .smHlth h x => some (.word (mkWord 31 h (pV3 28 x 0)) [])
  | .smBx h x => some (.word (mkWord 31 h (pV3 29 x 0)) [])
  | .colRed h x => some (.word (mkWord 31 h (pV3 32 x 0)) [])
  | .colBcast h x => some (.word (mkWord 31 h (pV3 33 x 0)) [])
  | .colGath h x => some (.word (mkWord 31 h (pV3 34 x 0)) [])
  | .cMov d a => some (.parcel (a * 2048 + d * 32 + 0))
  | .cIadd d a => some (.parcel (a * 2048 + d * 32 + 2))
  | .cIsub d a => some (.parcel (a * 2048 + d * 32 + 4))
  | .cAnd d a => some (.parcel (a * 2048 + d * 32 + 6))
  | .cOr d a => some (.parcel (a * 2048 + d * 32 + 8))
  | .cXor d a => some (.parcel (a * 2048 + d * 32 + 10))
  | .cShl d a => some (.parcel (a * 2048 + d * 32 + 12))
  | .cShr d a => some (.parcel (a * 2048 + d * 32 + 14))
  | .cFadd d a => some (.parcel (a * 2048 + d * 32 + 16))
  | .cFmul d a => some (.parcel (a * 2048 + d * 32 + 18))
  | .cFsub d a => some (.parcel (a * 2048 + d * 32 + 20))
  | .cFmax d a => some (.parcel (a * 2048 + d * 32 + 22))
  | .cFmin d a => some (.parcel (a * 2048 + d * 32 + 24))
  | .cImul d a => some (.parcel (a * 2048 + d * 32 + 26))
  | .cSra d a => some (.parcel (a * 2048 + d * 32 + 28))
  | .cNop => some (.parcel 0x001E)
  | _ => none

/-- The bytes of an instruction, where it has an encoding. -/
def encodeBytes (i : Instr) : Option (List Byte) := (encode i).map Code.bytes

/-- The decoder on the word of an opcode-table row: bit 0 of w is bit 0 of the first parcel, and the
bytes above are the following parcels and words. The longest instruction, MBR with four arms, takes
20 bytes. -/
noncomputable def decodeTableWord (_nbits w : Nat) : Option Instr :=
  match decode (leBytes 20 w) with
  | .ok (i, _) => some i
  | .error _ => none

end Sys2Proof
end

