-- ==== Sys2Proof/Config.lean ====
section
/-! DEFINITION. What the spec leaves open. Each value is an opaque constant: no proof can see what it is,
so a statement about the machine holds whatever it is. A constant that takes a number n is drawn with the
counter `State.free`, which every draw advances. -/

namespace Sys2Proof.Config

/-- Which of several things that may happen next does (timing: 01_machine.md R22, 12_launch.md R349,
R356). -/
opaque choice : Nat → Nat

/-- Which of several equal candidates an operation takes: a slot, a core, a handle, an order. -/
opaque pick : Nat → Nat

/-- How many of the newest writes a read misses, and where in the order of writes a new one falls, among the possible
numbers, by draw and address (R216, R218). -/
opaque cut : Nat → Nat → Nat

/-- A free bit: an outcome that the spec says depends on timing and nothing else decides (R9, R40, R264). -/
opaque freeBit : Nat → Bool

/-- A free word: a field the spec calls undefined (R84). -/
opaque freeWord : Nat → Word

/-- A draw of a node's physical noise source, 16 bits (R304). -/
opaque noise : Nat → BitVec 16

/-- The byte of host memory at an address that the module has neither written nor read (R394). -/
opaque hostByte : Nat → Byte

/-- The byte of a peer's memory at rank × 2^46 + PA (R394). -/
opaque peerByte : Nat → Byte

/-- Which of several poisoned scalar registers a POISON trap reports, by the cycle and the group (R378 does not say): a free
value, log entry 104. -/
opaque whichPoison : Nat → Nat → Nat

/-- The SHA-512 digest of some bytes, and the signature of some under the attestation key (R413).
DESIGN CHOICE, log entry 117. -/
opaque sha512 : List Byte → List Byte
opaque attest : List Byte → List Byte

/-- The lowest core clock, in kHz (R415). -/
opaque lowClock : Nat

/-- The signature a sound physical core gives for a scan pattern (R390). -/
opaque scanSignature : Nat → Nat → Word

end Sys2Proof.Config
end

