-- ==== Sys2Proof/Machine/SMap.lean ====
section
/-! DEFINITION. Reading and writing sparse data (`SMap`). A key that is not listed reads as the
type's default value (0, false, the empty record); writing that value removes the entry, so that
equal contents are equal lists. -/

namespace Sys2Proof

/-- The entry of key k, if one is listed. -/
def SMap.find {α : Type} : SMap α → Nat → Option α
  | [], _ => none
  | (j, a) :: r, k => if j = k then some a else SMap.find r k

/-- What key k reads as. -/
def SMap.get {α : Type} [Inhabited α] (m : SMap α) (k : Nat) : α :=
  match m.find k with
  | some a => a
  | none => default

/-- m without key k. -/
def SMap.erase {α : Type} : SMap α → Nat → SMap α
  | [], _ => []
  | (j, a) :: r, k => if j = k then SMap.erase r k else (j, a) :: SMap.erase r k

/-- Put the entry (k, a) at its place in rising order. -/
def SMap.place {α : Type} : SMap α → Nat → α → SMap α
  | [], k, a => [(k, a)]
  | (j, b) :: r, k, a => if k < j then (k, a) :: (j, b) :: r else (j, b) :: SMap.place r k a

/-- m with key k reading as a. -/
def SMap.put {α : Type} [Inhabited α] [DecidableEq α] (m : SMap α) (k : Nat) (a : α) : SMap α :=
  if a = default then m.erase k else (m.erase k).place k a

/-- Keys strictly rising from `lo`, and no entry that reads as an unlisted key does. -/
def SMap.canonFrom {α : Type} [Inhabited α] [DecidableEq α] : Nat → SMap α → Bool
  | _, [] => true
  | lo, (j, a) :: r => decide (lo ≤ j) && decide (a ≠ default) && SMap.canonFrom (j + 1) r

/-- The canonical form. -/
def SMap.canon {α : Type} [Inhabited α] [DecidableEq α] (m : SMap α) : Bool :=
  SMap.canonFrom 0 m

/-- Change the value of key k. -/
def SMap.upd {α : Type} [Inhabited α] [DecidableEq α] (m : SMap α) (k : Nat) (f : α → α) : SMap α :=
  m.put k (f (m.get k))

/-- Change the value of every listed key. -/
def SMap.mapv {α : Type} [Inhabited α] [DecidableEq α] (m : SMap α) (f : α → α) : SMap α :=
  m.filterMap fun e => if f e.2 = default then none else some (e.1, f e.2)

/-- The listed keys. -/
def SMap.keys {α : Type} (m : SMap α) : List Nat := m.map (·.1)

/-- The sparse form of a function on the numbers below n. -/
def SMap.tab {α : Type} [Inhabited α] [DecidableEq α] (n : Nat) (f : Nat → α) : SMap α :=
  (List.range n).filterMap fun k => if f k = default then none else some (k, f k)

end Sys2Proof
end

