-- ==== Sys2Proof/Machine/State.lean ====
section
/-! DEFINITION. The state of a Deord module as plain data: lanes, groups, blocks, grids, cores, dies,
the device and what stands between it and the outside. INVENTORY.md lists every piece with its rule
and its value after reset. A number of something sparse that is not listed reads as the type's default
value (zero, false, nothing). -/

namespace Sys2Proof.Machine

open Sys2Proof

/-- What stops the model. -/
inductive Fault where
  /-- `exec` was asked to run an instruction of the table that has an encoding while `State.cur` names no
  split of a running group. Raised by every such meaning; `step` never asks for it. Safe. -/
  | noIssuer
  deriving DecidableEq, Repr

/-- Why an instruction has no meaning. -/
inductive Refusal where
  /-- The row of this mnemonic has no meaning yet. Raised only by an arm of `exec`. Safe. -/
  | notModelled (mnemonic : String)
  deriving DecidableEq, Repr

/-- The memory of the device: bytes at 46-bit physical addresses. A byte that is not listed reads 0 (R218). HBM4 is fitted
below `Part.hbm` (R20, R31); what an access at or beyond it does the spec does not say, and here every 46-bit address holds
bytes alike. DESIGN CHOICE, log entry 120. -/
abbrev Memory := SMap Byte

/-- The canonical form of a memory: addresses strictly rising, no byte equal to 0. -/
def Memory.wf (m : Memory) : Bool := SMap.canon m

/-- The parts of the family (R13, R31). -/
inductive Part where
  | dx192
  | dx96
  deriving DecidableEq, Repr, Inhabited

/-- A trap with what it reports (R359). `tpc` is the TPC word of the frame. -/
structure Trap where
  code : Nat := 0
  sub : Nat := 0
  tval : Word := 0
  taddr : Nat := 0
  tpc : Nat := 0
  deriving DecidableEq, Repr, Inhabited

/-- A tag-table entry (R200). `st`: 0 free, 1 pending, 2 valid. -/
structure TagEntry where
  st : Nat := 0
  key : Nat := 0
  data : Nat := 0
  owner : Nat := 0
  deriving DecidableEq, Repr, Inhabited
/-- What the hardware keeps of a code object's header (R72): the text geometry and the chunk map. -/
structure CodeObj where
  va : Nat := 0
  pshift : Nat := 16
  planes : Nat := 1
  textlen : Nat := 0
  /-- The specialised chunks. -/
  chunks : SMap Bool := []
  deriving DecidableEq, Repr, Inhabited

/-! ### The memory consistency model (R213-R222) -/

/-- Where the bytes of an access lie: scratchpad of a block at member × 2^21 + offset, device memory with its
page's mirror bit, host memory, or a peer's memory (R185, R187, R206, R394). -/
inductive Place where
  | scratch (bid key : Nat)
  | dev (pa : Nat) (mir : Bool)
  | host (a : Nat)
  | peer (rank pa : Nat)
  deriving DecidableEq, Repr, Inhabited

/-- A party of the memory model, or several lanes that act together (R213), and where it stands (R214): `kind` 0 lanes of
group `who`, 1 to 4 the copy, matrix, sampling or collective context `index` of block `who`, 5 the module of rank `who`,
6 the host, 7 the memory system itself. -/
structure Origin where
  kind : Nat := 0
  who : Nat := 0
  index : Nat := 0
  lanes : LaneMask := 0
  core : Nat := 0
  part : Nat := 0
  deriving DecidableEq, Repr, Inhabited

/-- An event of the memory model (R213): who made it and at what scope (R215), the orders it carries, where it reads or
writes (a kind of place, a number, an address) and how many bytes, the bytes a write leaves and those below it in
coherence order, the writes a read returned, and the earlier events that synchronise with it (R219, R220, R234, R238).
`tag` names what later events look for, `instr` the instruction that several lanes' writes belong to (R190), or the copy whose
writes keep an order (R262), `unit` the element of a copy that several writes make up (R260); `spad` marks a TAG instruction,
which orders scratchpad accesses alone (R202). -/
structure Event where
  num : Nat := 0
  by_ : Origin := {}
  scope : Nat := 0
  acq : Bool := false
  rel : Bool := false
  fence : Bool := false
  rmw : Bool := false
  spad : Bool := false
  at_ : Nat × Nat × Nat := (0, 0, 0)
  len : Nat := 0
  bytes : List Byte := []
  old : List Byte := []
  ret : List Nat := []
  from_ : List Nat := []
  tag : List Nat := []
  instr : Nat := 0
  unit : Nat := 0
  deriving DecidableEq, Repr, Inhabited

/-! ### Engine contexts -/

/-- The numbering of a context's commands (R231, R232): how many it has accepted, which of them are not
complete, the traps recorded against them and not raised yet, the numbers of those that a wait has covered, and the
copies that clamped a value (R259). -/
structure Ctx where
  accepted : Nat := 0
  open_ : List Nat := []
  traps : List (Nat × Trap) := []
  seen : List Nat := []
  clamped : List Nat := []
  deriving DecidableEq, Repr, Inhabited

/-- An accepted MX.MMA (R277-R280, R282): its operands as read at issue, and how far it has got. -/
structure Mma where
  bid : Nat := 0
  ctx : Nat := 0
  num : Nat := 0
  part : Nat := 0
  member : Nat := 0
  seq : Nat := 0
  tile : Nat := 0
  a : Nat := 0
  b : Nat := 0
  k : Nat := 0
  wa : Nat := 0
  wb : Nat := 0
  adpt : Bool := false
  rcode : Nat := 0
  layer : Nat := 0
  koff : Nat := 0
  ids : List Nat := []
  /-- The events that its reads follow: its issue, and for a follow-on the writes of the copy that issued it (R233). -/
  after : List Nat := []
  /-- Its tile writes carry the poison mark (R372). -/
  marked : Bool := false
  started : Bool := false
  staged : Bool := false
  /-- The trap recorded against it so far (R288, R289). -/
  trap : Option Trap := none
  deriving DecidableEq, Repr, Inhabited

/-- What a copy command does, with the registers it read (R252-R262). -/
inductive CopyOp where
  | tensor (layout : List Word) (window : List Word)
  | lin (blk : List Word)
  | gather (blk : List Word) (dst : Nat)
  | scatter (blk : List Word) (src : Nat)
  deriving DecidableEq, Repr, Inhabited

/-- An accepted copy command. -/
structure CopyCmd where
  num : Nat := 0
  op : CopyOp := .lin []
  member : Nat := 0
  core : Nat := 0
  priv : Bool := false
  /-- The data has been moved. -/
  ran : Bool := false
  /-- The trap it records (R265). -/
  fault : Option Trap := none
  /-- What its peer traffic still waits for, as in `Access`. -/
  notBefore : Nat := 0
  peers : List (Nat × Trap) := []
  /-- The follow-on that this copy issues when its writes have been performed. -/
  follow : Option Mma := none
  /-- The writes carry the poison mark (R372). -/
  marked : Bool := false
  deriving DecidableEq, Repr, Inhabited

/-- A copy context (R247-R250, R263). `landed` holds the follow-ons whose copies have completed. -/
structure CopyCtx where
  c : Ctx := {}
  queue : List CopyCmd := []
  armed : Option Mma := none
  landed : List Mma := []
  deriving DecidableEq, Repr, Inhabited

/-- A sampling command with the operand block it read (R311-R320). -/
structure SmCmd where
  num : Nat := 0
  fn : Nat := 0
  mode : Nat := 0
  blk : List Word := []
  core : Nat := 0
  member : Nat := 0
  marked : Bool := false
  /-- The trap that a running SM.BX records when it completes (R325). -/
  trap : Option Trap := none
  deriving DecidableEq, Repr, Inhabited

/-- The place of a sweep that is running (R317, R326): its sweep and its slot. -/
structure Sweep where
  t : Nat := 0
  slot : Nat := 0
  deriving DecidableEq, Repr, Inhabited

/-- A sampling context (R299). `st` and `latched` hold true for +1; `st` holds ghost g at N + g; `j` holds the weight
of the coupling of nodes i < m at 4096 i + m as an 8-bit value, never 0; `clamp` holds 0 none, 1 at -1, 2 at +1; `pos`
holds the array position of each local node (R322). -/
structure SmCtx where
  c : Ctx := {}
  queue : List SmCmd := []
  /-- The configuration of the most recently accepted SM.CFG (R298): N, G and C. -/
  cfgN : Nat := 0
  cfgG : Nat := 0
  cfgC : Nat := 0
  configured : Bool := false
  n : Nat := 0
  g : Nat := 0
  colours : Nat := 0
  beta : Nat := 0
  bsh : Nat := 0
  mode : Nat := 0
  pos : SMap Nat := []
  st : SMap Bool := []
  h : SMap Nat := []
  colour : SMap Nat := []
  j : SMap Nat := []
  clamp : SMap Nat := []
  x : SMap Nat := []
  count : SMap Nat := []
  latched : SMap Bool := []
  nodePo : SMap Bool := []
  badent : Bool := false
  bxdrop : Bool := false
  poison : Bool := false
  sweeps : Nat := 0
  updates : Nat := 0
  running : Option Sweep := none
  /-- The entries of a running SM.BX that have not landed: ghost and state. -/
  bx : Option (List (Nat × Bool)) := none
  deriving DecidableEq, Repr, Inhabited

/-- An accepted collective command (R398). -/
structure ColCmd where
  num : Nat := 0
  fn : Nat := 0
  src : Nat := 0
  dst : Nat := 0
  n : Nat := 0
  comm : Nat := 0
  root : Nat := 0
  op : Nat := 0
  ty : Nat := 0
  mask : Nat := 0
  core : Nat := 0
  priv : Bool := false
  marked : Bool := false
  /-- How many commands of its COMM the module accepted before it (R400). -/
  k : Nat := 0
  /-- The tick boundary before which its data cannot have travelled (R405). -/
  notBefore : Nat := 0
  deriving DecidableEq, Repr, Inhabited

/-- A collective context. -/
structure ColCtx where
  c : Ctx := {}
  queue : List ColCmd := []
  deriving DecidableEq, Repr, Inhabited

/-- An accumulator tile (R69, R268). `tok` is the group that holds the token; none is the engine. -/
structure Tile where
  elems : SMap DWord := []
  anchor : Nat := 0
  acnt : Nat := 0
  mtmask : Nat := 0
  wovf : SMap Bool := []
  guard : Bool := false
  tok : Option Nat := none
  blk : Option Nat := none
  apend : Nat := 0
  amis : Bool := false
  pois : SMap Bool := []
  /-- The commands on it that ended in a fault which no MX.ACQ has covered, by context and number (R289). -/
  faulted : List (Nat × Nat) := []
  /-- The commands on it that have completed since the last MX.ACQ, by context and number (R273). -/
  done : List (Nat × Nat) := []
  deriving DecidableEq, Repr, Inhabited

/-- A sampling array (R297, R318, R322): its block, the health state, the window counts and draws of each
monitor, the last value plus 1 and the run length of each position, and the context whose command is running. -/
structure SmArray where
  bound : Option Nat := none
  failed : Bool := false
  mon : Nat := 0xFFFFFFFF
  /-- By monitor: 1 + the count of its last complete window (R318). -/
  propcnt : SMap Nat := []
  draws : SMap Nat := []
  below : SMap Nat := []
  last : SMap Nat := []
  run : SMap Nat := []
  busy : Option Nat := none
  /-- The context whose turn it is (R300). -/
  turn : Nat := 0
  deriving DecidableEq, Repr, Inhabited

/-! ### Groups -/

/-- The file of a register as STALL_CHECK reports it (R359): v, s, p, tile slice, lane LFSR. -/
inductive RegFile where
  | v | s | p | tile | lfsr
  deriving DecidableEq, Repr, Inhabited

/-- A read that returns old contents: the file, the number, the lane (for a tile the element), the contents and the mark. -/
abbrev Stale := RegFile × Nat × Nat × Nat × Bool
/-- A plane issue that an instruction still has to make: what was fetched for it, and the reads that were settled when the
instruction began: those that return old contents, and its scalar registers (R62, R66, R92). DEDUCED, log entry 125. -/
structure Later where
  plane : Nat := 0
  code : Code := .parcel 0
  stale : List Stale := []
  deriving DecidableEq, Repr, Inhabited

/-- A register or tile slice whose last result may not be read yet (R62-R64): its old contents by lane, and the cycle
from which a consumer may read it; or, for a variable-latency result (`onPath`), its path, the number of its access on that
path and whether it has landed: it may be read once a WAITC has covered the access. For the s file lane 0 stands for the
whole; for a tile, `old` holds the elements written, each plus 1. DEDUCED, log entry 29. -/
structure Pend where
  file : RegFile := .v
  reg : Nat := 0
  lanes : LaneMask := 0
  ready : Nat := 0
  onPath : Bool := false
  path : Nat := 0
  seq : Nat := 0
  landed : Bool := false
  old : SMap Nat := []
  oldPo : LaneMask := 0
  deriving DecidableEq, Repr, Inhabited

/-- What a split that waits has begun (R235, R341): these of its lanes have arrived in a phase of a barrier (16 is the
cluster barrier); it has read the operands of a TLWAIT, the context and the value, at a time in ns; or it waits at a
JOINW or for a full outlet queue (R382). -/
inductive Wait where
  | bar (id phase : Nat) (lanes : LaneMask)
  | timeline (ctx value since : Nat)
  | joinw
  | outlet
  deriving DecidableEq, Repr, Inhabited

/-- A split-table slot (R82). A slot that has been freed has every field at its default: R84 leaves
those fields undefined, and nothing reads them but the trap frame, which writes free values; one that has held no split
since the entry of its group has its reset values.
DESIGN CHOICE, log entry 12. -/
structure Split where
  valid : Bool := false
  offset : Nat := 0
  mask : LaneMask := 0
  age : Nat := 0
  stall : Nat := 0
  sig : Word := 0
  joinw : Bool := false
  /-- The split yielded in its last issue (R103). -/
  yielded : Bool := false
  /-- The cycle after its last plane issue: its stall cycles count from there (R63). -/
  busyTo : Nat := 0
  /-- The plane issues that its instruction still has to make (R92). -/
  more : List Later := []
  /-- The cycle of the first plane issue (R190), and the overflow table and the member mask that governed it, while further
  ones are to come (R153, R180). -/
  began : Nat := 0
  table : Word := 0
  members : LaneMask := 0
  /-- The instruction converts under overflow action 3, and the cycle from which the split may issue after it (R149). -/
  slow : Bool := false
  heldTo : Nat := 0
  /-- What its plane issues so far will have done if no lane overflows (R149): the results, each lane with its new contents
  and mark, the bits of XSTAT, and the lanes that die. -/
  kept : List Pend := []
  sticky : Word := 0
  doomed : LaneMask := 0
  /-- The OVF that its instruction raises 4 cycles after its last plane issue (R149). -/
  ovf : Option Trap := none
  /-- What the wait of its next instruction has begun. -/
  waitOn : Option Wait := none
  deriving DecidableEq, Repr, Inhabited

/-- The region record (R367). -/
structure Region where
  entry : Nat := 0
  rmask : LaneMask := 0
  plane : SMap Nat := []
  lfsr : SMap Word := []
  mmask : Word := 0
  sigtry : Nat := 0
  deriving DecidableEq, Repr, Inhabited

/-- What holds a resident group back (R358, R362-R376). -/
inductive Stop where
  /-- It runs. -/
  | running
  /-- A trap stopped it; the handler is entered when the in-flight counters are 0 (R363). -/
  | enter (t : Trap)
  /-- It restarts its region when the in-flight counters are 0 (R368). -/
  | restart
  /-- A fault that the supervisor resolves stopped it; its record is queued when the in-flight counters are 0 (R358). -/
  | faulted (t : Trap)
  /-- It waits for the supervisor with a replayable record; `queued` is false while the queue has no room
  for the record (R374). -/
  | replay (t : Trap) (token : Nat) (queued : Bool)
  /-- A fatal record found the reserve full; the group keeps its slot (R374). -/
  | reserve (t : Trap) (nest : Bool)
  /-- It has exited or ended; its slot is released when its accesses have completed (R102, R362). -/
  | ended
  deriving DecidableEq, Repr, Inhabited

/-- A deterministic FADD of a lane that waits at its home L2 for a line to leave the exact-reducing state there (R246): its
place, its register, its operand with its mark, and its order and scope. -/
structure HeldAdd where
  lane : Nat := 0
  va : Nat := 0
  pa : Nat := 0
  mir : Bool := false
  reg : Nat := 0
  x : Word := 0
  poison : Bool := false
  order : Nat := 0
  scope : Nat := 0
  deriving DecidableEq, Repr, Inhabited

/-- A load of some lanes that has not landed, and so may still come to return another write (R218), or an atomic of one lane,
whose flit leaves with the tick (`away`, R405): its registers (`n` bytes, of size `size` for a lane), its place, scope and
order, its number on its path, the event that stands for it in its program order and how many events there were before it;
for an atomic its operation and its operands with their mark. DESIGN CHOICE, log entry 133. -/
structure Bind where
  lanes : LaneMask := 0
  file : RegFile := .v
  reg : Nat := 0
  size : Nat := 0
  n : Nat := 0
  place : Place := .host 0
  scope : Nat := 0
  acq : Bool := false
  /-- The global address it came by (R211). -/
  va : Nat := 0
  ev : Option Nat := none
  since : Nat := 0
  away : Bool := false
  op : Option Nat := none
  args : List Word := []
  poison : Bool := false
  deriving DecidableEq, Repr, Inhabited

/-- An access still counted on a path (R196), with the tick boundary before which a peer's answer cannot
come (R405). -/
structure Access where
  path : Nat := 0
  /-- Its number among the group's accesses on the path. -/
  seq : Nat := 0
  regs : List (RegFile × Nat × LaneMask) := []
  notBefore : Nat := 0
  /-- It waits for a core to be quiescent (R389). -/
  hold : Bool := false
  /-- A fault that the access reports when it completes. -/
  fault : Option Trap := none
  /-- The ranks that a peer access goes to, each with the fault it reports should the rank become unreachable (R397). -/
  peers : List (Nat × Trap) := []
  /-- Its FADDs that have not been performed (R246). -/
  adds : List HeldAdd := []
  /-- Its loads while they have not landed, and its atomics whose flits have not left (R218, R405). -/
  binds : List Bind := []
  /-- The answer on path 4 that is still to be written to the scratchpad (R345, R348, R375). -/
  answer : Option (Place × List Byte) := none
  deriving DecidableEq, Repr, Inhabited

/-- A store held in the compare buffer of a redundant pair (R386): where it goes (`kind` 0 scratchpad of block
`who`, 1 device memory, 2 host memory, 3 memory of the module of rank `who`), its address, whether the page is
mirrored, its bytes, and the mark it carries. -/
structure PairStore where
  kind : Nat := 0
  who : Nat := 0
  addr : Nat := 0
  mir : Bool := false
  bytes : List Byte := []
  poison : Bool := false
  /-- The lanes that stored it, its scope, whether it is a release, and the plane issue and the instruction it belongs to. -/
  lanes : LaneMask := 0
  scope : Nat := 0
  rel : Bool := false
  issue : Nat := 0
  instr : Nat := 0
  /-- The global address it came by (R211). -/
  va : Nat := 0
  deriving DecidableEq, Repr, Inhabited

/-- What leaves for other modules at the tick boundary, in the order of its generation (R405): an access of a group, by path
and number, or a store, by the number of its event. -/
structure PeerOut where
  gid : Nat := 0
  path : Nat := 0
  seq : Nat := 0
  store : Option (PairStore × Nat) := none
  deriving DecidableEq, Repr, Inhabited

/-- A resident group. -/
structure Group where
  /-- The slot of a resident group: false for a number no group has. -/
  live : Bool := false
  bid : Nat := 0
  index : Nat := 0
  core : Nat := 0
  slot : Nat := 0
  vr : SMap Word := []
  vpo : SMap LaneMask := []
  sr : SMap Word := []
  spo : SMap Bool := []
  pr : SMap LaneMask := []
  ppo : SMap LaneMask := []
  lfsr : SMap Word := []
  plane : SMap Nat := []
  held : LaneMask := 0
  holdoff : SMap Nat := []
  exited : LaneMask := 0
  dead : LaneMask := 0
  splits : SMap Split := []
  mmask : Word := 0
  /-- A member mask written in this cycle: instructions that issue from the next one on use it (R115, R180). -/
  mmaskNext : Option Word := none
  /-- An overflow table loaded in this cycle: conversions that issue from the next one on use it (R153). -/
  ovfNext : Option Word := none
  xstat : Word := 0
  clockHi : Word := 0
  ovf : Word := 0
  recno : Word := 0
  region : Region := {}
  priv : Bool := false
  handler : Bool := false
  /-- The handler code object while the handler runs (R363). -/
  hobj : CodeObj := {}
  /-- Where the frame of its last entry into the handler stands (R363). -/
  frameVa : Nat := 0
  /-- The split table as the handler's entry found it: the waits its splits had begun go on after TRET (R108). -/
  waits : SMap Split := []
  stop : Stop := .running
  inflight : List Access := []
  pend : List Pend := []
  /-- By path, how many accesses the group has issued, and how many of them a WAITC has covered (R64, R197). -/
  accs : SMap Nat := []
  covered : SMap Nat := []
  /-- The pipes to which the group has issued in this cycle (R17): 0 for P0 and P1, 1 for P2, 2 for P3. -/
  usedPipes : List Nat := []
  /-- The slots whose splits were ready when the group first issued in this cycle (R89, R174), and those that have been
  passed over in it (R89). -/
  readyNow : List Nat := []
  aged : List Nat := []
  /-- By pipe, as `usedPipes` numbers them, the cycles since the group's last issue to it in which it was ready for it (R356). -/
  waited : SMap Nat := []
  /-- The engine commands it has issued that are not known to be complete: kind, context and number (R102). -/
  cmds : List (Nat × Nat × Nat) := []
  triggered : Bool := false
  cbarPast : Bool := false
  noIssue : Nat := 0
  /-- The poison-mode pass of R372: the instructions it has issued, and the trap that ends it. -/
  poisonPass : Option (Nat × Trap) := none
  /-- The signature is known to mismatch in this region (pairs, R386): mismatches so far. -/
  pairTry : Nat := 0
  /-- The pair CRC (R386), as the running register. -/
  pairCrc : Word := 0
  /-- Stores held in the compare buffer (R386), oldest first. -/
  pairBuf : List PairStore := []
  /-- The members differ, as their next comparison will find; and the issuing instruction has compared (R386). -/
  pairBad : Bool := false
  compared : Bool := false
  deriving DecidableEq, Repr, Inhabited

/-! ### Blocks and grids -/

/-- A barrier phase (R341, R342): the expected count while a phase is open, and the lanes marked by
group number. -/
structure Barrier where
  isOpen : Bool := false
  count : Nat := 0
  marks : SMap LaneMask := []
  /-- How many phases have completed: a waiting split compares it with the phase it arrived in. -/
  phase : Nat := 0
  deriving DecidableEq, Repr, Inhabited

/-- Whether a block is bound (R350, R383-R385). -/
inductive BlockState where
  /-- The groups are resident. -/
  | bound
  /-- A drain pre-emption runs (R383), since this cycle. -/
  | draining (since : Nat)
  /-- A save pre-emption waits until what R384 names has completed. -/
  | saving
  /-- A flush-and-restart has been chosen: its groups have stopped (R384). -/
  | flushing
  /-- The block is saved and holds no slots. -/
  | saved
  /-- It has exited and its record is kept for its grid's completion. -/
  | exited
  deriving DecidableEq, Repr, Inhabited

/-- A block of a grid that has been bound. -/
structure Block where
  live : Bool := false
  grid : Nat := 0
  blk : Nat := 0
  members : List Nat := []
  /-- For a pair, the partner's slot of each group by its index. -/
  slots : SMap Nat := []
  state : BlockState := .bound
  /-- The cycle from which its groups may issue (R350), and the cycle of the first issue (R383). -/
  startAt : Nat := 0
  firstIssue : Option Nat := none
  scratch : SMap Byte := []
  /-- Poison marks of 4-byte scratchpad words. -/
  scratchPo : SMap Bool := []
  bars : SMap Barrier := []
  groups : List Nat := []
  groupsLeft : Nat := 0
  faulted : Bool := false
  /-- The blocks of a cluster launch bound with this one, in member order. -/
  cluster : List Nat := []
  /-- The partner core of a paired block (R386). -/
  partner : Option Nat := none
  copy : SMap CopyCtx := []
  mx : SMap Ctx := []
  sm : SMap SmCtx := []
  col : SMap ColCtx := []
  /-- Tag entries, tiles and commands of a saved block by member (R203, R296). -/
  savedTags : SMap (SMap TagEntry) := []
  savedTiles : SMap (SMap Tile) := []
  savedMmas : SMap (List Mma) := []
  savedArray : Option SmArray := none
  deriving DecidableEq, Repr, Inhabited

/-- The launch parameter block as LAUNCH read it (R329, R330). -/
structure Params where
  code : Nat := 0
  entry : Nat := 0
  clust : Nat := 1
  prio : Nat := 0
  swz : Nat := 0
  order : Nat := 0
  privileged : Bool := false
  persist : Bool := false
  det : Bool := false
  paired : Bool := false
  idem : Bool := false
  gridx : Nat := 0
  gridy : Nat := 0
  gridz : Nat := 0
  groups : Nat := 0
  scratch : Nat := 0
  vregs : Nat := 0
  stagger : Nat := 0
  percore : Nat := 0
  args : Nat := 0
  deps : List Nat := []
  wqCount : Nat := 0
  wqx : Nat := 0
  wqy : Nat := 0
  detanchor : Nat := 0
  deriving DecidableEq, Repr, Inhabited

/-- The life of a grid (R333). -/
inductive GridState where
  | queued | waiting | running | completed | faulted | killed
  deriving DecidableEq, Repr, Inhabited

/-- A grid record (R335). -/
structure Grid where
  live : Bool := false
  state : GridState := .queued
  p : Params := {}
  obj : CodeObj := {}
  detmix : Bool := false
  pre : Bool := false
  trap : Nat := 0
  sub : Nat := 0
  /-- A group of it ended by a fatal trap, or a recorded engine trap was never covered. -/
  anyFault : Bool := false
  bound : SMap Bool := []
  ended : SMap Bool := []
  /-- Blocks flushed and not bound again (R384): 1 plus twice the set of their triggered groups. -/
  flushed : SMap Nat := []
  triggers : Nat := 0
  /-- A group ended untriggered: the early-trigger condition can never hold. -/
  untriggered : Bool := false
  next : Nat := 0
  /-- The cluster barriers (R343), by cluster launch number. -/
  cbar : SMap Barrier := []
  /-- It has been admitted (R336). -/
  admitted : Bool := false
  /-- The events from which the first issue of each group acquires: its LAUNCH, and what its dependences held by (R332,
  R333, R339). -/
  after : List Nat := []
  /-- By core, 1 plus the cycle in which the latest of its blocks there began to issue (R350); by die, 1 plus the dispatch key
  of the last bind record written for it, z first (R351). -/
  begun : SMap Nat := []
  lastKey : SMap Nat := []
  /-- The supervisor has ended it (R333). -/
  killing : Bool := false
  /-- The cycle of its first fatal event, and the die on which it happened (R337). -/
  fatalAt : Nat := 0
  fatalDie : Nat := 0
  lives : Nat := 0
  lifeSum : Nat := 0
  queuedAt : Nat := 0
  deriving DecidableEq, Repr, Inhabited

/-! ### Cores, dies, the device -/

/-- A cached translation (R209): the page's VA and size as powers of two, the page's PA and the
permission bits of its leaf. -/
structure TlbEntry where
  va : Nat := 0
  bits : Nat := 16
  pa : Nat := 0
  mt : Nat := 0
  mir : Bool := false
  x : Bool := false
  u : Bool := false
  w : Bool := false
  deriving DecidableEq, Repr, Inhabited

/-- Scan state of a logical core (R390, R429): pattern, state, elapsed time in µs, the two signatures, and
the time a running scan began. -/
structure Scan where
  pattern : Nat := 0
  state : Nat := 0
  elapsed : Nat := 0
  observed : Nat := 0
  expected : Nat := 0
  since : Nat := 0
  deriving DecidableEq, Repr, Inhabited

/-- A DRAIN that waits for its core to be quiescent (R389): the group and register of its status. -/
structure DrainWait where
  gid : Nat := 0
  reg : Nat := 0
  deriving DecidableEq, Repr, Inhabited

/-- A logical core. DESIGN CHOICE, log entry 2. -/
structure Core where
  tiles : SMap Tile := []
  tags : SMap TagEntry := []
  mmas : List Mma := []
  array : SmArray := {}
  tlb : List TlbEntry := []
  /-- Parcels the instruction cache holds, by VA: the parcel plus 1 (R40, R211). -/
  icache : SMap Nat := []
  execctl : Word := 0
  tveclo : Word := 0
  tvechi : Word := 0
  tfblo : Word := 0
  tfbhi : Word := 0
  tdeleg : Word := 0
  tctl : Word := 0
  wdlimit : Word := 0x80000000
  scrblo : Word := 0
  scrbhi : Word := 0
  tlbinvlo : Word := 0
  tlbinvhi : Word := 0
  /-- By partition, the cycle from which pipe P2 is free: an issue holds it for 4 cycles (R17, R356). -/
  pipe2 : SMap Nat := []
  /-- By partition, the pipes that have taken an instruction in this cycle, as `Group.usedPipes` numbers them (R17). -/
  taken : SMap (List Nat) := []
  /-- The invalidation in progress (R211): the VA whose entry goes, or every entry. -/
  inv : Option (Option Nat) := none
  mxctl : Word := 0
  smctl : Word := 1
  drained : Bool := false
  drains : List DrainWait := []
  scan : Scan := {}
  deriving DecidableEq, Repr, Inhabited

/-- A record of the trap queue (R373). -/
structure QRec where
  fatal : Bool := false
  replay : Bool := false
  report : Bool := false
  nest : Bool := false
  t : Trap := {}
  token : Nat := 0
  grid : Nat := 0
  blk : Nat := 0
  core : Nat := 0
  index : Nat := 0
  partner : Nat := 0xFF
  phys : Nat := 0
  recno : Word := 0
  dead : LaneMask := 0
  cycle : Nat := 0
  /-- The record stands in one of the eight reserved slots. -/
  reserved : Bool := false
  deriving DecidableEq, Repr, Inhabited

/-- A key of the adapter cache (R285): present with the directory entry and record bytes it was filled
with (`st` 2), or filling (`st` 1). -/
structure AdKey where
  st : Nat := 0
  recva : Nat := 0
  bytes : List Byte := []
  valid : Bool := false
  poison : Bool := false
  deriving DecidableEq, Repr, Inhabited

/-- A bind record: a grid, the first block of what is bound together, and the member cores (R350). -/
structure BindRec where
  grid : Nat := 0
  blk : Nat := 0
  cores : List Nat := []
  deriving DecidableEq, Repr, Inhabited

/-- A die. DESIGN CHOICE, log entry 2. -/
structure Die where
  /-- Bind records that wait, in order, and the batches of the last cycles: the cycle and the groups of each (R350). -/
  binds : List BindRec := []
  bindLog : List (Nat × Nat) := []
  queue : List QRec := []
  /-- Groups whose replayable record waits for room, in the order of stopping (R374). -/
  deferred : List Nat := []
  /-- Groups whose fatal record waits for a reserved slot (R374). -/
  waiting : List Nat := []
  mchk : Bool := false
  badtok : Bool := false
  drop : Nat := 0
  corr : Nat := 0
  uncorr : Nat := 0
  tlb : List TlbEntry := []
  adapters : SMap AdKey := []
  /-- Spare physical cores that serve or have served a logical core (R33, R391). -/
  sparesUsed : List Nat := []
  deriving DecidableEq, Repr, Inhabited

/-- An exact-reducing L2 line (R241). -/
structure RedLine where
  live : Bool := false
  anchor : Nat := 0
  owners : List Nat := []
  acc : SMap DWord := []
  wovf : SMap Bool := []
  cnt : SMap Nat := []
  /-- The page it was entered through is mirrored (R244). -/
  mir : Bool := false
  /-- Who has folded into it: their FENCE.MIR waits for the line (R230). -/
  adders : List Origin := []
  deriving DecidableEq, Repr, Inhabited

/-- What leaves for the host besides its memory (R392, R410, R413). -/
inductive HostMsg where
  | msix (vector : Nat)
  | report (nonce : List Byte) (digests : List (List Byte)) (map : SMap Nat) (devcap : Word) (sig : List Byte)
  | refusedReport
  | alarm (source : Nat)
  | refusedUpdate
  | readData (bytes : List Byte)
  deriving DecidableEq, Repr, Inhabited

/-- A write on its way to the mirror (R406): who made it or had it made, its address, its bytes, and the tick boundary before
which it does not travel (R405). -/
structure MirWrite where
  who : List Origin := []
  pa : Nat := 0
  bytes : List Byte := []
  notBefore : Nat := 0
  deriving DecidableEq, Repr, Inhabited

/-- What a containment reset in progress resets (R381). -/
structure Contain where
  kind : Nat := 0
  target : Nat := 0
  index : Nat := 0
  deriving DecidableEq, Repr, Inhabited

/-- An entry of the logical core map (R14-R16): the core of the same place in its die, another physical
core of the die, or none. -/
inductive MapEntry where
  | home
  | phys (p : Nat)
  | removed
  deriving DecidableEq, Repr, Inhabited

/-- The split that is issuing. `lanes` and `plane` are those of the current plane issue; `issued` tells
whether the instruction issued or waits; `stale` holds the registers of this issue whose old value is
read (R9, R64). -/
structure Cur where
  valid : Bool := false
  gid : Nat := 0
  slot : Nat := 0
  here : Nat := 0
  next : Nat := 0
  word : Nat := 0
  plane : Nat := 0
  lanes : LaneMask := 0
  issued : Bool := false
  /-- The wait changed some state: it arrived, or read its operands. -/
  moved : Bool := false
  /-- A trap of this issue stopped the group, and which. -/
  trapped : Bool := false
  trap : Trap := {}
  /-- A plane issue after the first: the operand checks have been made (R66). -/
  checked : Bool := false
  stale : List Stale := []
  /-- A wait that raises a recorded engine trap has completed (R108, R358). -/
  completed : Bool := false
  /-- The pipe that the instruction needs, as in `Group.usedPipes`. -/
  pipe : Nat := 0
  deriving DecidableEq, Repr, Inhabited

/-- The module. -/
structure State where
  part : Part := .dx192
  powered : Bool := true
  broughtUp : Bool := false
  /-- Core cycles since module reset (R116), elapsed ns and the part of one that is over (in kHz), and the core clock in
  kHz (R22). -/
  cycle : Nat := 0
  ns : Nat := 0
  nsRem : Nat := 0
  khz : Nat := 3300000
  groups : SMap Group := []
  blocks : SMap Block := []
  grids : SMap Grid := []
  /-- Launch queues by priority (R349), oldest first. -/
  queues : SMap (List Nat) := []
  cores : SMap Core := []
  dies : SMap Die := []
  map : SMap MapEntry := []
  failedCores : List Nat := []
  mem : Memory := []
  /-- The events of the memory model since reset, the last one first; and the writes among them in the one order that every
  coherence order agrees with, the latest first (R216). Memory holds what each byte's latest write left. -/
  log : List Event := []
  writes : List Event := []
  /-- Poison marks of 32-byte sectors, by PA / 32 (R198). -/
  memPo : SMap Bool := []
  red : SMap RedLine := []
  rgrace : Word := 0x004C4B40
  prectl : Word := 0x00200040
  tqrtok : Word := 0
  tokens : Nat := 0
  contain : Word := 0
  containBusy : Option Contain := none
  containErr : Bool := false
  ttblo : Word := 0
  ttbhi : Word := 0
  fabid : Word := 0
  tickper : Word := 10000
  tickInUse : Nat := 10000
  tickNext : List (Nat × Nat) := []
  /-- The tick number, how many tick boundaries there have been, and the time in ns of the next. -/
  tick : Nat := 0
  bounds : Nat := 0
  tickAt : Nat := 0
  tickHi : Word := 0
  locked : Bool := false
  mirctl : Word := 0
  mirstat : Nat := 0
  mirror : List MirWrite := []
  ports : SMap Nat := []
  routes : SMap (List Nat) := []
  /-- Accesses of other modules received and not yet applied (R405), and the last end marker of each rank. -/
  received : List (Nat × Nat × PeerAcc) := []
  markers : SMap Nat := []
  /-- What waits for the boundary that ends the tick, and 1 plus the last tick for which an end marker was sent (R405). -/
  outgoing : List PeerOut := []
  sentMark : Nat := 0
  /-- By COMM, how many collective commands the module has accepted (R400). -/
  comms : SMap Nat := []
  adirlo : Word := 0
  adirhi : Word := 0
  alarmSrc : Nat := 0
  alarmed : Bool := false
  keys : Bool := true
  provisioned : Bool := true
  /-- Inlet queues, the writes the adapter holds back from a full queue (R409), and outlet queues. -/
  inlets : SMap (List (List Byte)) := []
  inletHeld : SMap (List (List Byte)) := []
  outlets : SMap (List (List Byte)) := []
  winbase : Nat := 0
  outbase : Nat := 0
  drops : Nat := 0
  outprod : SMap Nat := []
  outcons : SMap Nat := []
  linkUp : Bool := false
  hostOut : List HostMsg := []
  /-- Host and peer memory as the module last saw it: the byte plus 1, 0 where it never has. A peer's byte
  stands at rank × 2^46 + PA. -/
  hostMem : SMap Nat := []
  peerMem : SMap Nat := []
  ctlGrid : Option Nat := none
  ctlParams : List Byte := []
  /-- The firmware images that run (R413). -/
  images : List (List Byte) := []
  nextGid : Nat := 1
  nextBid : Nat := 1
  seq : Nat := 0
  /-- How many free values have been drawn. -/
  free : Nat := 0
  cur : Cur := {}
  /-- Outside events still to come, in order, each with the cycles that pass between the one before it and it. -/
  inputs : List (Nat × Instr) := []
  deriving DecidableEq, Repr, Inhabited

/-- How many dies a part has (R13, R31). -/
def Part.dies : Part → Nat
  | .dx192 => 4
  | .dx96 => 2

/-- The bytes of HBM4 that a part has: two stacks of 48 GiB on each die (R20, R31). DESIGN CHOICE, log entry 120. -/
def Part.hbm (p : Part) : Nat := 2 * p.dies * (48 * 2 ^ 30)

/-- How many Shagal ports a part has (R31, R32). -/
def Part.ports : Part → Nat
  | .dx192 => 16
  | .dx96 => 8

/-- A module of a part right after reset: every register at its reset value, nothing resident, memory
with nothing listed (R218), every logical core served by the physical core of the same place in its die
(R13; the map itself is a log entry). Each field's value at reset stands beside it in the structures above.
DESIGN CHOICE, log entry 1. -/
def State.resetPart (p : Part) : State := { part := p }

/-- The machine right after reset: a DX-192. DESIGN CHOICE, log entry 6. -/
def State.reset : State := State.resetPart .dx192

end Sys2Proof.Machine
end

