-- ==== Sys2Proof/Machine/Bits.lean ====
section
/-! DEFINITION. Bit fields, signed readings and small list helpers that the other operations use. -/

namespace Sys2Proof.Machine

open Sys2Proof

/-- Bits [hi:lo] of a number. -/
def bits (x hi lo : Nat) : Nat := x / 2 ^ lo % 2 ^ (hi - lo + 1)
/-- Bit b of a number. -/
def bit (x b : Nat) : Bool := decide (x / 2 ^ b % 2 = 1)
/-- SignExt(x, n) (R11): the n-bit two's-complement value x as an integer. -/
def sext (n x : Nat) : Int :=
  if 2 ^ (n - 1) ≤ x % 2 ^ n then (x % 2 ^ n : Nat) - (2 ^ n : Nat) else (x % 2 ^ n : Nat)
/-- Wrap to n bits (R11). -/
def wrap (n : Nat) (x : Int) : Nat := (x % (2 ^ n : Nat)).toNat
/-- Wrap32 (R11). -/
def wrap32 (x : Int) : Word := BitVec.ofNat 32 (wrap 32 x)
/-- Wrap64 (R11). -/
def wrap64 (x : Int) : DWord := BitVec.ofNat 64 (wrap 64 x)
/-- A word of a number, modulo 2^32. -/
def w32 (x : Nat) : Word := BitVec.ofNat 32 x
/-- A word as a signed number. -/
def sgn (w : Word) : Int := sext 32 w.toNat
/-- 1 or 0. -/
def ofBool (b : Bool) : Word := if b then 1#32 else 0#32
/-- A pair of words as one number, the low word first (R111). -/
def pair (lo hi : Word) : Nat := lo.toNat + 2 ^ 32 * hi.toNat
/-- The low word of a number. -/
def loW (x : Nat) : Word := BitVec.ofNat 32 x
/-- The high word of a 64-bit number. -/
def hiW (x : Nat) : Word := BitVec.ofNat 32 (x / 2 ^ 32)
/-- Floor(x / 2^n) of an integer. -/
def floorShift (x : Int) (n : Nat) : Int := x / (2 ^ n : Nat)

/-- How many bits a number has. -/
def bitLen (x : Nat) : Nat := if x = 0 then 0 else Nat.log2 x + 1
/-- Leading zeros of a word (R114). -/
def clz32 (w : Word) : Nat := 32 - bitLen w.toNat
/-- One bits of the low n bits of a number. -/
def popCount : Nat → Nat → Nat
  | 0, _ => 0
  | n + 1, x => x % 2 + popCount n (x / 2)
/-- The low n bits of a number in reverse order, on top of `acc`. -/
def bitRev : Nat → Nat → Nat → Nat
  | 0, _, acc => acc
  | n + 1, x, acc => bitRev n (x / 2) (acc * 2 + x % 2)

/-- The lanes of a set in ascending order. -/
def lanesOf (m : LaneMask) : List Nat := (List.range 32).filter (inMask m)
/-- The set of lanes that satisfy a condition. -/
def maskOf (f : Nat → Bool) : LaneMask :=
  BitVec.ofNat 32 ((List.range 32).foldl (fun a l => if f l then a + 2 ^ l else a) 0)
/-- The set of one lane. -/
def laneBit (l : Nat) : LaneMask := BitVec.ofNat 32 (2 ^ l)
/-- Every lane. -/
def allLanes : LaneMask := 0xFFFFFFFF#32
/-- The lowest lane of a set, 0 if it is empty. -/
def lowLane (m : LaneMask) : Nat := (lanesOf m).headD 0

/-- Give entry k of a list the value a. -/
def setAt {α : Type} : List α → Nat → α → List α
  | [], _, _ => []
  | _ :: r, 0, a => a :: r
  | x :: r, k + 1, a => x :: setAt r k a

/-- Insert a number into an ascending list without repeats. -/
def insertAsc (x : Nat) : List Nat → List Nat
  | [] => [x]
  | y :: r => if x < y then x :: y :: r else if x = y then y :: r else y :: insertAsc x r
/-- The distinct numbers of a list in ascending order. -/
def distinctAsc (l : List Nat) : List Nat := l.foldl (fun a x => insertAsc x a) []

/-- The first condition of a list that holds, with what it stands for. -/
def firstOf {α : Type} : List (Bool × α) → Option α
  | [] => none
  | (true, a) :: _ => some a
  | (false, _) :: r => firstOf r

/-- CRC-32C over one byte, least significant bit first (R75). -/
def crcByte (crc : Word) (b : Nat) : Word :=
  (List.range 8).foldl
    (fun c _ => if c.getLsbD 0 then (c >>> 1) ^^^ 0x82F63B78#32 else c >>> 1) (crc ^^^ BitVec.ofNat 32 b)
/-- CRC-32C over the four bytes of a word, lowest first. -/
def crcWord (crc : Word) (w : Nat) : Word :=
  crcByte (crcByte (crcByte (crcByte crc (w % 256)) (w / 256 % 256)) (w / 65536 % 256)) (w / 16777216 % 256)
/-- The signature register just after a reset (R75). -/
def crcInit : Word := 0xFFFFFFFF#32
/-- The finished signature of a running register (R75). -/
def crcFinish (c : Word) : Word := c ^^^ 0xFFFFFFFF#32

end Sys2Proof.Machine
end

