-- ==== Sys2Proof/Machine/Fp.lean ====
section
/-! DEFINITION. Number formats and rounding (05_numbers.md R123-R146): every value is an exact dyadic
number until the one rounding that the instruction names. -/

namespace Sys2Proof.Machine

open Sys2Proof

/-- A float format (R125): widths of the exponent and mantissa fields, the bias, and which special values
it has. -/
structure Fmt where
  eb : Nat
  mb : Nat
  bias : Nat
  hasInf : Bool
  hasNan : Bool
  /-- The canonical NaN (R126); 0 where the format has none (R144). -/
  nan : Nat
  deriving DecidableEq, Repr

def fp32 : Fmt := ⟨8, 23, 127, true, true, 0x7FC00000⟩
def fp16 : Fmt := ⟨5, 10, 15, true, true, 0x7E00⟩
def bf16 : Fmt := ⟨8, 7, 127, true, true, 0x7FC0⟩
def e4m3 : Fmt := ⟨4, 3, 7, false, true, 0x7F⟩
def e5m2 : Fmt := ⟨5, 2, 15, true, true, 0x7E⟩
def e2m1 : Fmt := ⟨2, 1, 1, false, false, 0⟩

/-- A value: NaN, an infinity, or a sign with m × 2^e. -/
inductive FV where
  | nan
  | inf (neg : Bool)
  | fin (neg : Bool) (m : Nat) (e : Int)
  deriving DecidableEq, Repr, Inhabited

/-- The value of a code (R125, R126, R128). -/
def Fmt.decode (f : Fmt) (x : Nat) : FV :=
  let neg := bit x (f.eb + f.mb)
  let ex := bits x (f.eb + f.mb - 1) f.mb
  let m := x % 2 ^ f.mb
  let top := 2 ^ f.eb - 1
  if f.hasInf ∧ ex = top then (if m = 0 then .inf neg else .nan)
  else if ¬ f.hasInf ∧ f.hasNan ∧ ex = top ∧ m = 2 ^ f.mb - 1 then .nan
  else if ex = 0 then .fin neg m (1 - (f.bias : Int) - f.mb)
  else .fin neg (m + 2 ^ f.mb) ((ex : Int) - f.bias - f.mb)

/-- The greatest exponent of a finite value. -/
def Fmt.emax (f : Fmt) : Int := (if f.hasInf then (2 ^ f.eb - 2 : Nat) else (2 ^ f.eb - 1 : Nat)) - (f.bias : Int)
/-- The mantissa of the largest finite value, in units of 2^(emax - mb). -/
def Fmt.mmax (f : Fmt) : Nat :=
  if f.hasNan ∧ ¬ f.hasInf then 2 ^ (f.mb + 1) - 2 else 2 ^ (f.mb + 1) - 1

/-- Rounding modes (R140). `rs u` is stochastic rounding with the draw u (R141). -/
inductive Rm where
  | rne | rz | rna | rd | ru
  | rs (u : Nat)
  deriving DecidableEq, Repr, Inhabited

/-- The magnitude m × 2^e, or a little more where `sticky` says so, rounded to a multiple of 2^q (R140,
R141): how many times 2^q it is. With `sticky`, q is above e. -/
def roundMag (rm : Rm) (neg : Bool) (m : Nat) (e : Int) (sticky : Bool) (q : Int) : Nat :=
  if q ≤ e then m * 2 ^ (e - q).toNat
  else
    let d := (q - e).toNat
    let n := m / 2 ^ d
    let r := m % 2 ^ d
    let inexact := decide (r ≠ 0) || sticky
    let up : Bool :=
      match rm with
      | .rne => decide (2 ^ d < 2 * r) || (decide (2 * r = 2 ^ d) && (sticky || decide (n % 2 = 1)))
      | .rna => decide (2 ^ d ≤ 2 * r)
      | .rz => false
      | .rd => neg && inexact
      | .ru => !neg && inexact
      | .rs u =>
        if r = 0 then false
        else if neg then !decide (u * 2 ^ d < (2 ^ d - r) * 2 ^ 32)
        else decide (u * 2 ^ d < r * 2 ^ 32)
    if up then n + 1 else n

/-- The exponent of the leading bit of m × 2^e. -/
def lead (m : Nat) (e : Int) : Int := (bitLen m : Int) - 1 + e

/-- The spacing of a format at a magnitude, as an exponent (R140). -/
def Fmt.quantum (f : Fmt) (m : Nat) (e : Int) : Int :=
  min (max (lead m e - f.mb) (1 - (f.bias : Int) - f.mb)) (f.emax - f.mb)

/-- A finite result of rounding: sign, how many times 2^q, and whether it is beyond the finite range. -/
structure Rounded where
  neg : Bool
  n : Nat
  q : Int
  beyond : Bool
  deriving DecidableEq, Repr

/-- Round(x, mode) into a float format (R140). -/
def Fmt.round (f : Fmt) (rm : Rm) (neg : Bool) (m : Nat) (e : Int) (sticky : Bool := false) : Rounded :=
  let q := f.quantum m e
  let n := roundMag rm neg m e sticky q
  { neg := neg, n := n, q := q
    beyond := decide (f.mmax * 2 ^ (f.emax - f.mb - (1 - (f.bias : Int) - f.mb)).toNat
      < n * 2 ^ (q - (1 - (f.bias : Int) - f.mb)).toNat) }

/-- The sign bit of a format. -/
def Fmt.signBit (f : Fmt) (neg : Bool) : Nat := if neg then 2 ^ (f.eb + f.mb) else 0

/-- The code of a rounded value inside the finite range. -/
def Fmt.code (f : Fmt) (r : Rounded) : Nat :=
  f.signBit r.neg +
    (if r.n < 2 ^ f.mb then r.n
     else
      let n := if r.n < 2 ^ (f.mb + 1) then r.n else r.n / 2
      let q := if r.n < 2 ^ (f.mb + 1) then r.q else r.q + 1
      (q + f.mb + f.bias).toNat * 2 ^ f.mb + (n - 2 ^ f.mb))

/-- The code of an infinity. -/
def Fmt.infCode (f : Fmt) (neg : Bool) : Nat := f.signBit neg + (2 ^ f.eb - 1) * 2 ^ f.mb
/-- The code of the largest finite magnitude. -/
def Fmt.maxCode (f : Fmt) (neg : Bool) : Nat :=
  f.signBit neg + (f.emax + f.bias).toNat * 2 ^ f.mb + (f.mmax - 2 ^ f.mb)

/-! ### FP32 arithmetic -/

/-- The value of an FP32 word. -/
def fv (w : Word) : FV := fp32.decode w.toNat

/-- The canonical NaN of FP32 (R126). -/
def nan32 : Word := 0x7FC00000#32
/-- An FP32 infinity. -/
def inf32 (neg : Bool) : Word := if neg then 0xFF800000#32 else 0x7F800000#32
/-- An FP32 zero. -/
def zero32 (neg : Bool) : Word := if neg then 0x80000000#32 else 0#32

/-- A finite value rounded into FP32; an overflow gives the infinity of its sign (R157). -/
def f32 (rm : Rm) (neg : Bool) (m : Nat) (e : Int) (sticky : Bool := false) : Word :=
  if m = 0 ∧ ¬ sticky then zero32 neg
  else
    let r := fp32.round rm neg m e sticky
    if r.beyond then inf32 neg else w32 (fp32.code r)

/-- A value as an FP32 word under RNE. -/
def FV.toF32 : FV → Word
  | .nan => nan32
  | .inf n => inf32 n
  | .fin n m e => f32 .rne n m e

/-- A signed mantissa. -/
def sm (neg : Bool) (m : Nat) : Int := if neg then -(m : Int) else m

/-- The exact sum of two finite values; an exact zero is +0 unless both are -0 (R159). -/
def addFin (n1 : Bool) (m1 : Nat) (e1 : Int) (n2 : Bool) (m2 : Nat) (e2 : Int) : FV :=
  let e := min e1 e2
  let x := sm n1 m1 * (2 ^ (e1 - e).toNat : Nat) + sm n2 m2 * (2 ^ (e2 - e).toNat : Nat)
  if x = 0 then .fin (decide (m1 = 0) && decide (m2 = 0) && n1 && n2) 0 e
  else .fin (decide (x < 0)) x.natAbs e

/-- The exact sum (R157-R159): an infinity with the opposite infinity is NaN. -/
def FV.add : FV → FV → FV
  | .nan, _ => .nan
  | _, .nan => .nan
  | .inf a, .inf b => if a = b then .inf a else .nan
  | .inf a, .fin _ _ _ => .inf a
  | .fin _ _ _, .inf b => .inf b
  | .fin n1 m1 e1, .fin n2 m2 e2 => addFin n1 m1 e1 n2 m2 e2

/-- The exact product: zero times infinity is NaN. -/
def FV.mul : FV → FV → FV
  | .nan, _ => .nan
  | _, .nan => .nan
  | .inf a, .inf b => .inf (a != b)
  | .inf a, .fin n m _ => if m = 0 then .nan else .inf (a != n)
  | .fin n m _, .inf b => if m = 0 then .nan else .inf (n != b)
  | .fin n1 m1 e1, .fin n2 m2 e2 => .fin (n1 != n2) (m1 * m2) (e1 + e2)

/-- The value with the other sign. -/
def FV.neg : FV → FV
  | .nan => .nan
  | .inf n => .inf (!n)
  | .fin n m e => .fin (!n) m e

/-- x × 2^k rounded to an integer under RNE, for a finite x. -/
def roundInt (rm : Rm) (neg : Bool) (m : Nat) (e : Int) : Int := sm neg (roundMag rm neg m e false 0)

/-- Compare two finite values: x < y. -/
def ltFin (n1 : Bool) (m1 : Nat) (e1 : Int) (n2 : Bool) (m2 : Nat) (e2 : Int) : Bool :=
  let e := min e1 e2
  decide (sm n1 m1 * (2 ^ (e1 - e).toNat : Nat) < sm n2 m2 * (2 ^ (e2 - e).toNat : Nat))

/-- x < y as numbers; false when either is NaN. -/
def FV.lt : FV → FV → Bool
  | .nan, _ => false
  | _, .nan => false
  | .inf a, .inf b => a && !b
  | .inf a, .fin _ _ _ => a
  | .fin _ _ _, .inf b => !b
  | .fin n1 m1 e1, .fin n2 m2 e2 => ltFin n1 m1 e1 n2 m2 e2

/-- x == y as numbers; false when either is NaN. Zeros are equal. -/
def FV.eqv (x y : FV) : Bool :=
  match x, y with
  | .nan, _ => false
  | _, .nan => false
  | _, _ => !(x.lt y) && !(y.lt x)

/-- One step of the lane LFSR (R142). -/
def lfsrStep (x : Word) : Word :=
  if x.getLsbD 0 then (x >>> 1) ^^^ 0xA3000000#32 else x >>> 1

end Sys2Proof.Machine
end

