-- ==== Sys2Proof/Machine/Regs.lean ====
section
/-! DEFINITION. Reading and writing the pieces of the state: groups, blocks, grids, cores, dies, the
registers of the issuing group with their poison marks (02_encoding.md R67, R70), and what the part and
the logical core map say (01_machine.md R13-R16, R32, R33). -/

namespace Sys2Proof.Machine

open Sys2Proof

/-! ### Pieces of the state -/

def State.g (s : State) (gid : Nat) : Group := s.groups.get gid
def State.setG (s : State) (gid : Nat) (g : Group) : State := { s with groups := s.groups.put gid g }
def State.updG (s : State) (gid : Nat) (f : Group → Group) : State := s.setG gid (f (s.g gid))
def State.b (s : State) (bid : Nat) : Block := s.blocks.get bid
def State.setB (s : State) (bid : Nat) (b : Block) : State := { s with blocks := s.blocks.put bid b }
def State.updB (s : State) (bid : Nat) (f : Block → Block) : State := s.setB bid (f (s.b bid))
def State.gr (s : State) (h : Nat) : Grid := s.grids.get h
def State.setGr (s : State) (h : Nat) (g : Grid) : State := { s with grids := s.grids.put h g }
def State.updGr (s : State) (h : Nat) (f : Grid → Grid) : State := s.setGr h (f (s.gr h))
def State.co (s : State) (c : Nat) : Core := s.cores.get c
def State.setCo (s : State) (c : Nat) (x : Core) : State := { s with cores := s.cores.put c x }
def State.updCo (s : State) (c : Nat) (f : Core → Core) : State := s.setCo c (f (s.co c))
def State.di (s : State) (d : Nat) : Die := s.dies.get d
def State.setDi (s : State) (d : Nat) (x : Die) : State := { s with dies := s.dies.put d x }
def State.updDi (s : State) (d : Nat) (f : Die → Die) : State := s.setDi d (f (s.di d))
def State.tile (s : State) (c t : Nat) : Tile := (s.co c).tiles.get t
def State.setTile (s : State) (c t : Nat) (x : Tile) : State :=
  s.updCo c fun k => { k with tiles := k.tiles.put t x }

/-- The issuing group. -/
def State.cg (s : State) : Group := s.g s.cur.gid
/-- Change the issuing group. -/
def State.updCG (s : State) (f : Group → Group) : State := s.updG s.cur.gid f
/-- The issuing split. -/
def State.cs (s : State) : Split := s.cg.splits.get s.cur.slot
/-- Change the issuing split. -/
def State.updCS (s : State) (f : Split → Split) : State :=
  s.updCG fun g => { g with splits := g.splits.upd s.cur.slot f }
/-- The block of the issuing group. -/
def State.cb (s : State) : Block := s.b s.cg.bid
/-- The grid of a group. -/
def State.gridOf (s : State) (g : Group) : Nat := (s.b g.bid).grid
/-- The launch parameters of a group's grid. -/
def State.paramsOf (s : State) (g : Group) : Params := (s.gr (s.gridOf g)).p
/-- The core of the issuing group. -/
def State.cc (s : State) : Core := s.co s.cg.core
/-- The die of a logical core (R13). -/
def dieOf (core : Nat) : Nat := core / 48
/-- The partition of a slot: 32 slots each (R17). -/
def partOf (slot : Nat) : Nat := slot / 32
/-- The member of its block that a group lies on (R24, R185): its place in a cluster launch, or its member
core. -/
def State.memberOf (_s : State) (g : Group) : Nat := g.index / 128

/-! ### The part and the core map -/

/-- How many logical core numbers the part has. -/
def State.ncores (s : State) : Nat := 48 * s.part.dies
/-- A logical core is in service (R16). DESIGN CHOICE, log entry 3. -/
def State.inService (s : State) (c : Nat) : Bool :=
  decide (c < s.ncores) && decide (s.map.get c ≠ .removed)
/-- The physical core that serves a logical core (R14). DESIGN CHOICE, log entry 3. -/
def State.physOf (s : State) (c : Nat) : Nat :=
  match s.map.get c with
  | .phys p => p
  | _ => 51 * (c / 48) + c % 48
/-- The cores in service (R16). -/
def State.lcores (s : State) : Nat := ((List.range s.ncores).filter s.inService).length
/-- DEVCAP (R32). -/
def State.devcap (s : State) : Word :=
  w32 (2 ^ 24 + s.lcores * 2 ^ 16 + 2 ^ 15 + 2 ^ 14 + (if s.part = .dx192 then 2 ^ 13 else 0)
    + s.part.ports * 2 ^ 8 + 2 * s.part.dies * 2 ^ 4 + s.part.dies)
/-- The spare cores left on a die (R33): three at manufacture. -/
def State.sparesLeft (s : State) (d : Nat) : Nat := if d < s.part.dies then 3 - (s.di d).sparesUsed.length else 0
/-- SPARECNT (R33). -/
def State.sparecnt (s : State) : Word :=
  w32 (s.sparesLeft 0 + 16 * s.sparesLeft 1 + 256 * s.sparesLeft 2 + 4096 * s.sparesLeft 3)
/-- INSVCk (R16). -/
def State.insvc (s : State) (k : Nat) : Word := maskOf fun b => s.inService (32 * k + b)
/-- Whether the part has sampling arrays (R31). -/
def State.hasSampling (s : State) : Bool := decide (s.part = .dx192)

/-! ### Free values -/

/-- The next free bit, and the state with the draw counted. DESIGN CHOICE, log entry 10. -/
def State.drawBit (s : State) : Bool × State := (Config.freeBit s.free, { s with free := s.free + 1 })
/-- The next free word. DESIGN CHOICE, log entry 10. -/
def State.drawWord (s : State) : Word × State := (Config.freeWord s.free, { s with free := s.free + 1 })

/-! ### Registers of the issuing group -/

/-- The stale contents of a register in this issue, if it reads old (R9, R64). -/
def staleFind : List Stale → RegFile → Nat → Nat → Option (Nat × Bool)
  | [], _, _, _ => none
  | (f, r, l, v, p) :: t, file, reg, lane =>
    if f = file ∧ r = reg ∧ l = lane then some (v, p) else staleFind t file reg lane

/-- Vector register r of lane l. -/
def State.v (s : State) (r l : Nat) : Word :=
  match staleFind s.cur.stale .v r l with
  | some (x, _) => w32 x
  | none => s.cg.vr.get (32 * r + l)
/-- Poison(v) of lane l (R198). -/
def State.vp (s : State) (r l : Nat) : Bool :=
  match staleFind s.cur.stale .v r l with
  | some (_, p) => p
  | none => inMask (s.cg.vpo.get r) l
/-- A mask with lane l set to b. -/
def withLane (m : LaneMask) (l : Nat) (b : Bool) : LaneMask :=
  if b then m ||| laneBit l else m &&& ~~~ (laneBit l)
/-- Group g with vector register r of lane l written. -/
def Group.setV (g : Group) (r l : Nat) (x : Word) (po : Bool) : Group :=
  { g with vr := g.vr.put (32 * r + l) x, vpo := g.vpo.upd r fun m => withLane m l po }
/-- Write vector register r of lane l, with its mark. -/
def State.setV (s : State) (r l : Nat) (x : Word) (po : Bool) : State := s.updCG fun g => g.setV r l x po
/-- Scalar register r. -/
def State.s (s : State) (r : Nat) : Word :=
  match staleFind s.cur.stale .s r 0 with
  | some (x, _) => w32 x
  | none => s.cg.sr.get r
/-- Poison(s) (R378). -/
def State.sp (s : State) (r : Nat) : Bool :=
  match staleFind s.cur.stale .s r 0 with
  | some (_, p) => p
  | none => s.cg.spo.get r
/-- Group g with scalar register r written. -/
def Group.setS (g : Group) (r : Nat) (x : Word) (po : Bool := false) : Group :=
  { g with sr := g.sr.put r x, spo := g.spo.put r po }
/-- Write scalar register r, with its mark. -/
def State.setS (s : State) (r : Nat) (x : Word) (po : Bool := false) : State := s.updCG fun g => g.setS r x po
/-- Write a pair, low word first. -/
def State.setS2 (s : State) (r x : Nat) (po : Bool := false) : State := (s.setS r (loW x) po).setS (r + 1) (hiW x) po
/-- The pair at r as one number. -/
def State.s2 (s : State) (r : Nat) : Nat := pair (s.s r) (s.s (r + 1))
/-- Predicate p of lane l. -/
def State.p (s : State) (p l : Nat) : Bool :=
  match staleFind s.cur.stale .p p l with
  | some (x, _) => decide (x = 1)
  | none => inMask (s.cg.pr.get p) l
/-- Poison(p) of lane l (R377). -/
def State.pp (s : State) (p l : Nat) : Bool :=
  match staleFind s.cur.stale .p p l with
  | some (_, q) => q
  | none => inMask (s.cg.ppo.get p) l
/-- Group g with predicate p of lane l written. -/
def Group.setP (g : Group) (p l : Nat) (x po : Bool) : Group :=
  { g with pr := g.pr.upd p fun m => withLane m l x, ppo := g.ppo.upd p fun m => withLane m l po }
/-- Write predicate p of lane l, with its mark. -/
def State.setP (s : State) (p l : Nat) (x : Bool) (po : Bool := false) : State := s.updCG fun g => g.setP p l x po
/-- Lane l's LFSR. -/
def State.lfsr (s : State) (l : Nat) : Word :=
  match staleFind s.cur.stale .lfsr 0 l with
  | some (x, _) => w32 x
  | none => s.cg.lfsr.get l
/-- Write lane l's LFSR. -/
def State.setLfsr (s : State) (l : Nat) (x : Word) : State :=
  s.updCG fun g => { g with lfsr := g.lfsr.put l x }

/-- Do f for each lane of a set, lowest first. -/
def forLanes (m : LaneMask) (s : State) (f : State → Nat → State) : State := (lanesOf m).foldl f s

/-! ### Lanes -/

/-- The lanes of a group that are neither exited nor dead. -/
def Group.alive (g : Group) : LaneMask := ~~~ (g.exited ||| g.dead)
/-- The numbers of the live splits (R82). -/
def Group.liveSlots (g : Group) : List Nat := (List.range 4).filter fun k => (g.splits.get k).valid
/-- No split of a group but perhaps one is between the plane issues of an instruction (R108). -/
def Group.othersWhole (g : Group) (k : Nat) : Bool :=
  (List.range 4).all fun j => decide (j = k) || decide ((g.splits.get j).more = [])
/-- The member mask and the overflow table that have been written take effect (R115, R153, R180). -/
def Group.settleMask (g : Group) : Group :=
  { g with mmask := g.mmaskNext.getD g.mmask, mmaskNext := none, ovf := g.ovfNext.getD g.ovf, ovfNext := none }
/-- The lanes of a group that lie on a plane. -/
def Group.onPlane (g : Group) (m : LaneMask) (k : Nat) : LaneMask :=
  maskOf fun l => inMask m l && decide (g.plane.get l = k)
/-- The set of planes of some lanes, plane k at bit k (R84). -/
def Group.planeOcc (g : Group) (m : LaneMask) : Nat :=
  (List.range 4).foldl (fun a k => if (lanesOf m).any (fun l => decide (g.plane.get l = k)) then a + 2 ^ k else a) 0

/-- The lanes that pass a guard, among some lanes (R42). A failed comparison keeps the lane out. -/
def State.passGuard (s : State) (h : Hdr) (m : LaneMask) : LaneMask :=
  if h.ge then maskOf fun l => inMask m l && (s.p h.gp l == !h.gs) else m
/-- Live(S) of the issuing split. -/
def State.liveS (s : State) : LaneMask := s.cs.mask
/-- Active(split) of the issuing split (R11): in the member mask, alive, passing the guard. -/
def State.active (s : State) (h : Hdr) : LaneMask := s.passGuard h (s.liveS &&& s.cg.mmask &&& s.cg.alive)
/-- The lanes of this plane issue of a lane-class instruction (R156). -/
def State.laneActive (s : State) (h : Hdr) : LaneMask := s.active h &&& s.cur.lanes
/-- Whether a scalar-class instruction executes (R42). With GS = 1 it does where no active lane holds the
predicate. -/
def State.scalarGuard (s : State) (h : Hdr) : Bool :=
  if !h.ge then true
  else
    let a := lanesOf (s.liveS &&& s.cg.mmask &&& s.cg.alive)
    if h.gs then a.all fun l => !(s.p h.gp l) else a.any fun l => s.p h.gp l

end Sys2Proof.Machine
end

