-- ==== Sys2Proof/Machine/Mem.lean ====
section
/-! DEFINITION. Memory: device memory with its poison marks and its exact-reducing lines, host and peer
memory, the scratchpad, the mirror, and address translation (07_memory.md R183-R212, 08_ordering.md
R240-R246, 14_fabric.md R394, R406). Accesses are performed in the order of issue. -/

namespace Sys2Proof.Machine

open Sys2Proof

/-! ### Exact-reducing lines -/

/-- The value of a word of an exact-reducing line (R243). -/
def RedLine.value (l : RedLine) (w : Nat) : Word :=
  if l.wovf.get w ∨ 32767 < l.cnt.get w then nan32
  else
    let a := sext 64 (l.acc.get w).toNat
    if a = 0 then 0#32 else f32 .rne (decide (a < 0)) a.natAbs (sext 8 l.anchor)

/-- Fold(w, x) (R241). -/
def RedLine.fold (l : RedLine) (w : Nat) (x : Word) : RedLine :=
  match fv x with
  | .fin neg m e =>
    let n := roundInt .rne neg m (e - sext 8 l.anchor)
    let big := decide (2 ^ 47 ≤ n.natAbs)
    let n' : Int := if big then (if 0 < n then 2 ^ 47 - 1 else -(2 ^ 47 - 1)) else n
    { l with
      wovf := if big then l.wovf.put w true else l.wovf
      acc := l.acc.upd w fun a => wrap64 (sext 64 a.toNat + n')
      cnt := l.cnt.upd w fun c => min (c + 1) 65535 }
  | _ => { l with wovf := l.wovf.put w true, cnt := l.cnt.upd w fun c => min (c + 1) 65535 }

/-- Set DETMIX in some grids (R245). -/
def State.setDetmix (s : State) (hs : List Nat) : State :=
  hs.foldl (fun t h => t.updGr h fun g => { g with detmix := g.live }) s

/-! ### The fabric and the mirror -/

/-- This module's rank and the number of modules in its domain (R393). -/
def State.rank (s : State) : Nat := bits s.fabid.toNat 4 0
def State.fabSize (s : State) : Nat := bits s.fabid.toNat 12 8 + 1
def State.detx (s : State) : Bool := s.fabid.getLsbD 16

/-- Mirroring is on and has not been lost (R406, R407). -/
def State.mirroring (s : State) : Bool := s.mirctl.getLsbD 31 && decide (s.mirstat ≠ 2)
/-- Send a write to the mirror (R406). -/
def State.mirWrite (s : State) (mir : Bool) (who : List Origin) (pa : Nat) (bytes : List Byte) : State :=
  if mir && s.mirroring then { s with mirror := s.mirror ++ [⟨who, pa, bytes, if s.detx then s.bounds + 1 else 0⟩] } else s

/-! ### Device memory -/

/-- Write bytes into device memory, without the rules of lines and marks. -/
def Memory.write (m : Memory) (pa : Nat) : List Byte → Memory
  | [] => m
  | b :: r => Memory.write (m.put pa b) (pa + 1) r

/-- The bytes of a word, lowest first. -/
def wordBytes (w : Word) : List Byte := [w.setWidth 8, (w >>> 8).setWidth 8, (w >>> 16).setWidth 8, (w >>> 24).setWidth 8]

/-- L2's own write of a line's values is the latest write to its bytes, and like a read-modify-write it follows the writes
that the values come from with none between (R216, R244). -/
def State.lineEvent (s : State) (line : Nat) (bytes : List Byte) : State :=
  let e : Event := { num := s.log.length, by_ := { kind := 7 }, scope := 9, rmw := true, at_ := (1, 0, 128 * line), len := bytes.length, bytes := bytes, old := bytes }
  if s.log = [] then s else { s with log := e :: s.log, writes := e :: s.writes }
/-- The line leaves the exact-reducing state: its values are written and it becomes normal (R244). -/
def State.leaveRed (s : State) (line : Nat) : State :=
  let l := s.red.get line
  if l.live then
    let bs := (List.range 32).flatMap fun w => wordBytes (l.value w)
    ({ s with mem := s.mem.write (128 * line) bs, red := s.red.erase line }.lineEvent line bs).mirWrite l.mir l.adders (128 * line) bs
  else s

/-- A byte of device memory as any reader sees it (R218, R243). DEDUCED, log entry 13. -/
def State.devByte (s : State) (pa : Nat) : Byte :=
  let l := s.red.get (pa / 128)
  if l.live then (l.value (pa % 128 / 4) >>> (8 * (pa % 4))).setWidth 8 else s.mem.get pa

/-- Bytes of device memory. -/
def State.devBytes (s : State) (pa n : Nat) : List Byte := (List.range n).map fun k => s.devByte (pa + k)

/-- The sector of a byte carries the poison mark (R198). -/
def State.devPo (s : State) (pa : Nat) : Bool := s.memPo.get (pa / 32)

/-- The numbers of the n-byte units that some bytes from an address on lie in. -/
def unitsOf (n pa len : Nat) : List Nat := (List.range ((pa + len - 1) / n - pa / n + 1)).map fun k => pa / n + k

/-- End the exact-reducing state of the lines that a write touches; a writer outside the owners sets DETMIX
(R244, R245). `grid` is the writer's grid, none for a writer that belongs to no grid. -/
def State.endRed (s : State) (grid : Option Nat) (pa n : Nat) : State :=
  (unitsOf 128 pa n).foldl
    (fun t line =>
      let l := t.red.get line
      if l.live then
        let t1 := match grid with
          | some h => if h ∈ l.owners then t else t.setDetmix l.owners
          | none => t.setDetmix l.owners
        t1.leaveRed line
      else t)
    s

/-- Mark the sectors of some bytes as poisoned (R199). -/
def State.markPo (s : State) (pa n : Nat) : State :=
  { s with memPo := (unitsOf 32 pa n).foldl (fun m k => m.put k true) s.memPo }

/-- Write at least one byte of device memory; a poisoned write marks its sectors, a clean one leaves their
marks (R199). -/
def State.devWrite (s : State) (grid : Option Nat) (pa : Nat) (bytes : List Byte) (po : Bool) : State :=
  if bytes = [] then s
  else
    let t := s.endRed grid pa bytes.length
    let t := { t with mem := t.mem.write pa bytes }
    if po then t.markPo pa bytes.length else t

/-- Clear the marks of the sectors that some clean writes of one plane issue cover wholly (R199). Each
write is an address and a length; the writes stay inside one sector each. -/
def State.clearCovered (s : State) (ws : List (Nat × Nat)) : State :=
  (distinctAsc (ws.map (·.1 / 32))).foldl
    (fun t k =>
      if (List.range 32).all fun i => ws.any fun w => decide (w.1 ≤ 32 * k + i ∧ 32 * k + i < w.1 + w.2) then
        { t with memPo := t.memPo.put k false }
      else t)
    s

/-! ### Host and peer memory -/

/-- A byte of host memory. DEDUCED, log entry 13. -/
def State.hostByte (s : State) (a : Nat) : Byte :=
  match s.hostMem.get a with
  | 0 => Config.hostByte a
  | n + 1 => BitVec.ofNat 8 n
/-- A byte of a peer's memory, at rank × 2^46 + PA. -/
def State.peerByte (s : State) (a : Nat) : Byte :=
  match s.peerMem.get a with
  | 0 => Config.peerByte a
  | n + 1 => BitVec.ofNat 8 n
/-- Write sparse bytes that are held plus 1. -/
def writeSeen (m : SMap Nat) (a : Nat) : List Byte → SMap Nat
  | [] => m
  | b :: r => writeSeen (m.put a (b.toNat + 1)) (a + 1) r

/-! ### Where an access goes -/


/-- A byte at an offset of a place. -/
def State.placeByte (s : State) (p : Place) (k : Nat) : Byte :=
  match p with
  | .scratch b key => (s.b b).scratch.get (key + k)
  | .dev pa _ => s.devByte (pa + k)
  | .host a => s.hostByte (a + k)
  | .peer r pa => s.peerByte (r * 2 ^ 46 + pa + k)
/-- The first n bytes of a place. -/
def State.placeBytes (s : State) (p : Place) (n : Nat) : List Byte := (List.range n).map (s.placeByte p)
/-- Some unit of the first n bytes of a place carries poison (R198). Host and peer data carry no mark. -/
def State.placePo (s : State) (p : Place) (n : Nat) : Bool :=
  match p with
  | .scratch b key => (List.range n).any fun k => (s.b b).scratchPo.get ((key + k) / 4)
  | .dev pa _ => (List.range n).any fun k => s.devPo (pa + k)
  | _ => false

/-- Block b with scratchpad bytes written; a poisoned write marks every word it touches, a clean one clears
the words it wholly rewrites (R199). The stores of several lanes come one after another: no two of them clear a word together,
and a later lane's clean store of a whole word clears a mark that an earlier one has set.
DESIGN CHOICE, log entry 121. -/
def Block.scratchWrite (b : Block) (key : Nat) (bytes : List Byte) (po : Bool) : Block :=
  let n := bytes.length
  let words := distinctAsc ((List.range n).map fun k => (key + k) / 4)
  { b with
    scratch := (List.range n).foldl (fun m k => m.put (key + k) (bytes.getD k 0)) b.scratch
    scratchPo := words.foldl
      (fun m w => if po then m.put w true
        else if key ≤ 4 * w ∧ 4 * w + 4 ≤ key + n then m.put w false else m) b.scratchPo }

/-- Write bytes at a place, for a grid and for some parties. -/
def State.placeWrite (s : State) (grid : Option Nat) (who : List Origin) (p : Place) (bytes : List Byte) (po : Bool) :
    State :=
  match p with
  | .scratch b key => s.updB b fun x => x.scratchWrite key bytes po
  | .dev pa mir => (s.devWrite grid pa bytes po).mirWrite mir who pa bytes
  | .host a => { s with hostMem := writeSeen s.hostMem a bytes }
  | .peer r pa => { s with peerMem := writeSeen s.peerMem (r * 2 ^ 46 + pa) bytes }

/-- A place some bytes on. -/
def Place.plus (p : Place) (k : Nat) : Place :=
  match p with
  | .scratch b key => .scratch b (key + k)
  | .dev pa mir => .dev (pa + k) mir
  | .host a => .host (a + k)
  | .peer r pa => .peer r (pa + k)
/-- A key for the byte a place names. -/
def Place.key : Place → Nat × Nat × Nat
  | .scratch b k => (0, b, k)
  | .dev pa _ => (1, 0, pa)
  | .host a => (2, 0, a)
  | .peer r pa => (3, r, pa)

/-! ### Scratchpad addresses (R185) -/

/-- The scratchpad of the launch the group belongs to, in bytes. -/
def State.scratchSize (s : State) (g : Group) : Nat := (s.paramsOf g).scratch
/-- Where a scratchpad address of n bytes leads for a group, if it is in range (R185). -/
def State.scratchPlace (s : State) (g : Group) (a n : Nat) : Option Place :=
  let b := s.b g.bid
  let size := s.scratchSize g
  if 2 ^ 26 ≤ a then none
  else if a < 2 ^ 25 then
    if a + n ≤ size then some (.scratch g.bid (s.memberOf g * 2 ^ 21 + a)) else none
  else
    let m := a / 2 ^ 21 % 16
    let off := a % 2 ^ 21
    if size < off + n then none
    else if 1 < b.cluster.length then
      (b.cluster[m]?).map fun q => .scratch q off
    else if 1 < b.members.length ∧ m < b.members.length then some (.scratch g.bid (m * 2 ^ 21 + off))
    else none

/-! ### Translation (R205-R212) -/

/-- The kinds of access (R207, R359). -/
inductive Acc where
  | fetch | load | store | atomic
  deriving DecidableEq, Repr, Inhabited

/-- The number of a kind in TVAL (R359). -/
def Acc.num : Acc → Nat
  | .fetch => 0
  | .load => 1
  | .store => 2
  | .atomic => 3

/-- The levels of the table tree: the bits of the VA that index them, and whether a leaf may or must stand
there (R205). -/
def levels : List (Nat × Nat × Nat) := [(51, 40, 0), (39, 29, 1), (28, 25, 1), (24, 21, 1), (20, 16, 2)]

/-- A walk from table t (R207): the cached form of the leaf, or the fault's code. -/
def State.walk (s : State) (va : Nat) : Nat → List (Nat × Nat × Nat) → Except Nat TlbEntry
  | _, [] => .error 0x09
  | t, (hi, lo, leafRule) :: rest =>
    let pa := (t + 8 * bits va hi lo) % 2 ^ 46
    let e := leNat (s.devBytes pa 8)
    let leaf := bit e 1
    if s.devPo pa then .error 0x09
    else if !bit e 0 then .error 0x08
    else if bits e 63 46 ≠ 0 ∨ (leaf ∧ leafRule = 0) ∨ (¬ leaf ∧ leafRule = 2)
        ∨ (¬ leaf ∧ bits e 7 2 ≠ 0) ∨ (leaf ∧ bits e 7 6 = 3)
        ∨ (leaf ∧ bits e 45 8 * 256 % 2 ^ lo ≠ 0) then .error 0x09
    else if leaf then
      .ok { va := va / 2 ^ lo * 2 ^ lo, bits := lo, pa := bits e 45 8 * 256, mt := bits e 7 6, mir := bit e 5
            x := bit e 4, u := bit e 3, w := bit e 2 }
    else s.walk va (bits e 45 8 * 256) rest

/-- TTB (R208). -/
def State.ttb (s : State) : Nat := bits s.ttbhi.toNat 13 0 * 2 ^ 32 + bits s.ttblo.toNat 31 8 * 256
/-- A cached translation of an address. -/
def tlbFind (l : List TlbEntry) (va : Nat) : Option TlbEntry :=
  l.find? fun e => decide (va / 2 ^ e.bits * 2 ^ e.bits = e.va)

/-- SCRBASE and SWEN of a core (R187). -/
def Core.scrBase (c : Core) : Nat := bits c.scrbhi.toNat 19 0 * 2 ^ 32 + bits c.scrblo.toNat 31 21 * 2 ^ 21
def Core.inWindow (c : Core) (va : Nat) : Bool :=
  c.scrblo.getLsbD 0 && decide (c.scrBase ≤ va ∧ va < c.scrBase + 2 ^ 21)

/-- Every port of the route to a rank is DOWN (R397). -/
def State.unreachable (s : State) (r : Nat) : Bool := (s.routes.get r).all fun p => decide (s.ports.get p = 0)
/-- No port of the route to a rank is UP (R397). -/
def State.routeWaits (s : State) (r : Nat) : Bool := (s.routes.get r).all fun p => decide (s.ports.get p ≠ 2)

/-- The end markers of a tick have come from every rank that can still be reached (R405). -/
def State.markersIn (s : State) (tick : Nat) : Bool :=
  (List.range s.fabSize).all fun r => decide (r = s.rank) || s.unreachable r || decide (tick < s.markers.get r)

/-- Translate an address that is not in the window for a core: the place, or the code of a fault. The
translation is cached (R209). DEDUCED, log entry 34. -/
def State.translate (s : State) (core : Nat) (priv : Bool) (k : Acc) (va : Nat) : Except Nat Place × State :=
  if 2 ^ 52 ≤ va ∨ ¬ s.ttblo.getLsbD 0 then (.error 0x09, s)
  else
    let hit := match tlbFind (s.co core).tlb va with
      | some e => some e
      | none => tlbFind (s.di (dieOf core)).tlb va
    let r : Except Nat TlbEntry := match hit with
      | some e => .ok e
      | none => s.walk va s.ttb levels
    match r with
    | .error c => (.error c, s)
    | .ok e =>
      if ((k = Acc.store ∨ k = Acc.atomic) ∧ ¬ e.w) ∨ (k = Acc.fetch ∧ ¬ e.x) ∨ (¬ priv ∧ ¬ e.u) then (.error 0x09, s)
      else
        let pa := e.pa + va % 2 ^ e.bits
        let t := match hit with
          | some _ => s
          | none => (s.updCo core fun c => { c with tlb := (e :: c.tlb).take 256 }).updDi (dieOf core)
              fun d => { d with tlb := (e :: d.tlb).take 32768 }
        if e.mt = 0 then (.ok (.dev pa e.mir), t)
        else if e.mt = 1 then (.ok (.host pa), t)
        else
          let r := pa / 2 ^ 41 % 32
          if s.fabSize ≤ r ∨ r = s.rank ∨ s.unreachable r then (.error 0x09, s)
          else (.ok (.peer r (pa % 2 ^ 41)), t)

end Sys2Proof.Machine
end

