-- ==== Sys2Proof/Machine/Order.lean ====
section
/-! DEFINITION. The memory consistency model (08_ordering.md R213-R222, R234, R238, R239): parties and scope instances, the
chain rule, which writes a read may return, and where a write falls in the order of writes. `State.log` holds the events,
`State.writes` the writes in their order; memory holds the latest write to each byte, and a read that no chain binds may
miss any of the newest. DEDUCED, log entry 113; DESIGN CHOICE, log entry 114. -/

namespace Sys2Proof.Machine

open Sys2Proof

/-! ### Parties and scope instances (R213, R214) -/

/-- The logical core of a member of a block (R24). -/
def Block.coreOf (b : Block) (member : Nat) : Nat := b.members.getD member 0
/-- Some lanes of a group. -/
def State.lanesAt (s : State) (gid : Nat) (m : LaneMask) : Origin :=
  { who := gid, lanes := m, core := (s.g gid).core, part := partOf (s.g gid).slot }
/-- An engine context of a block: it counts as located on member core 0 (R214). -/
def State.ctxAt (s : State) (bid kind i : Nat) : Origin :=
  { kind := kind + 1, who := bid, index := i, core := (s.b bid).coreOf 0 }
/-- Another module, and the host. -/
def peerAgent (rank : Nat) : Origin := { kind := 5, who := rank }
def hostAgent : Origin := { kind := 6 }

/-- Two origins have a party in common. -/
def Origin.same (p q : Origin) : Bool :=
  decide (p.kind = q.kind ∧ p.who = q.who ∧ p.index = q.index) && (decide (p.kind ≠ 0) || decide (p.lanes &&& q.lanes ≠ 0#32))
/-- A party of this module: a lane or an engine context. -/
def Origin.inside (p : Origin) : Bool := decide (p.kind ≤ 4)
/-- Whether q is in inst(p, scope) (R214). -/
def Origin.names (p : Origin) (scope : Nat) (q : Origin) : Bool :=
  p.same q ||
    match scope with
    | 0 => false
    | 1 => decide (p.kind = 0 ∧ q.kind = 0 ∧ p.who = q.who)
    | 2 => decide (p.kind = 0 ∧ q.kind = 0 ∧ p.core = q.core ∧ p.part = q.part)
    | 3 => p.inside && q.inside && decide (p.core = q.core)
    | 4 => p.inside && q.inside && decide (p.core / 16 = q.core / 16)
    | 5 => p.inside && q.inside && decide (dieOf p.core = dieOf q.core)
    | 6 => q.inside
    | 7 => q.inside || decide (q.kind = 5)
    | _ => true
/-- Mutual inclusion of two events (R215). DEDUCED, log entry 113. -/
def inclusive (x y : Event) : Bool := x.by_.names x.scope y.by_ && y.by_.names y.scope x.by_
/-- A party whose events have a program order: a lane, or the host; the accesses of an engine context have none (R213). -/
def Origin.ordered (p : Origin) : Bool := decide (p.kind = 0 ∨ p.kind = 6)
/-- The scope at which an access of a party takes effect: of lanes, CLUSTER at the widest in a scratchpad (R215).
DEDUCED, log entry 113. -/
def Origin.scopeAt (q : Origin) (p : Place) (c : Nat) : Nat :=
  match p with
  | .scratch _ _ => if q.kind = 0 then min c 4 else c
  | _ => c

/-- The bytes of an event, and those of an access, have one in common. -/
def Event.touches (e : Event) (k : Nat × Nat × Nat) (n : Nat) : Bool :=
  decide (e.at_.1 = k.1 ∧ e.at_.2.1 = k.2.1 ∧ e.at_.2.2 < k.2.2 + n ∧ k.2.2 < e.at_.2.2 + e.len)
/-- The key of a byte some bytes on. -/
def keyAt (k : Nat × Nat × Nat) (i : Nat) : Nat × Nat × Nat := (k.1, k.2.1, k.2.2 + i)

/-! ### Chains (R219-R221) -/

/-- What the walk back from an event has found: the parties all of whose earlier events lie on a chain to it, the events
that a synchronising step leads back to, the parties of releases on a chain, and the events on a chain. -/
structure Chain where
  parties : List Origin := []
  evs : List Nat := []
  rels : List Origin := []
  hits : List Nat := []
  deriving DecidableEq, Repr, Inhabited

/-- One event further back, for a party q at the end of the chain (R221): program order, a synchronising pair or edge whose
receiving side's scope instance includes q, or the step from a write to a release of a party that had read it. A TAG
instruction counts for scratchpad accesses alone (`spad`). A relaxed access of several lanes joins none of them to the others
(R223). -/
def Chain.step (ws : List Event) (q : Origin) (spad : Bool) (c : Chain) (e : Event) : Chain :=
  let on := c.parties.any (·.same e.by_) || c.evs.contains e.num
  let into := e.by_.names e.scope q && (spad || !e.spad)
  let d : Chain := if on then
      { parties := if e.by_.ordered && (e.acq || e.rel || e.fence || c.evs.contains e.num) then e.by_ :: c.parties else c.parties
        evs := if into then c.evs ++ e.from_ else c.evs
        rels := if e.rel && into then e.by_ :: c.rels else c.rels
        hits := e.num :: c.hits }
    else c
  if c.rels.any (·.same e.by_) then
    { d with evs := d.evs ++ e.ret.filter fun n => ws.any fun w => decide (w.num = n) && inclusive w e }
  else d
/-- The events that a chain joins to an event of q that follows all of its earlier ones, or follows the events `start`.
DEDUCED, log entry 113. -/
def State.before (s : State) (q : Origin) (start : List Nat) (spad : Bool) : List Nat :=
  (s.log.foldl (Chain.step s.writes q spad) { parties := if q.ordered then [q] else [], evs := start }).hits

/-- The writes that head, or stand in, the release sequence in which a write stands (R219): the write, and where it is a
read-modify-write those below it down to the first plain write by another party than the head. -/
def State.sequence (s : State) (w : Event) : List Event :=
  let below := (s.writes.dropWhile fun x => decide (x.num ≠ w.num)).drop 1
  let r := (below.filter fun x => x.touches w.at_ w.len).foldl
    (fun (acc : List Event × List Origin) x =>
      (if acc.2.all fun p => decide (p = x.by_) then acc.1 ++ [x] else acc.1, if x.rmw then acc.2 else acc.2 ++ [x.by_]))
    ([], [])
  if w.rmw then w :: r.1 else [w]
/-- The releases and release fences that synchronise with an acquire which returns a write, mutual inclusion apart
(R219, R220). -/
def State.heads (s : State) (w : Event) : List Event :=
  let seq := s.sequence w
  seq.filter (·.rel) ++ s.log.filter fun f =>
    f.fence && f.rel && seq.any fun x => f.by_.same x.by_ && decide (f.num < x.num)
/-- Those of the releases behind some returned writes that synchronise with an acquire. -/
def State.syncs (s : State) (ret : List Nat) (e : Event) : List Nat :=
  ((s.writes.filter fun w => decide (w.num ∈ ret)).flatMap fun w => (s.heads w).filter fun h => inclusive h e).map (·.num)

/-! ### Which writes a read may return (R216-R218, R221) -/

/-- Writes at a scope to a kind of place are multi-copy atomic: of DEVICE scope or wider to device memory or scratchpad (R216), of
FABRIC scope or wider to peer pages, and all to host pages (R395). -/
def wideAt (scope kind : Nat) : Bool := decide (6 ≤ scope ∧ kind ≤ 1 ∨ 7 ≤ scope ∧ kind = 3 ∨ kind = 2)
/-- A write that is multi-copy atomic. -/
def Event.wide (w : Event) : Bool := wideAt w.scope w.at_.1
/-- The multi-copy atomic writes that a party has seen by an acquire, or by a read that an acquire fence follows, before
event n. -/
def State.acquired (s : State) (q : Origin) (n : Nat) : List Nat :=
  (s.log.filter fun r => r.by_.same q && decide (r.num < n) &&
      (r.acq || s.log.any fun f => f.fence && f.acq && f.by_.same q && decide (r.num < f.num ∧ f.num < n))).flatMap
    fun r => r.ret.filter fun k => s.writes.any fun w => decide (w.num = k) && w.wide
/-- The writes at or below one of some writes, in the order of writes. -/
def State.downFrom (s : State) (ns : List Nat) : List Event := s.writes.dropWhile fun w => decide (w.num ∉ ns)

/-- The writes to the host or peer sectors of some bytes that stand at or below one that a party has made or read there: its
accesses to one sector are performed in its program order (R395). -/
def State.sectorFirm (s : State) (q : Origin) (k : Nat × Nat × Nat) (n : Nat) : List Nat :=
  if k.1 < 2 ∨ ¬ q.ordered then []
  else
    let base := k.2.2 / 32 * 32
    let near (e : Event) : Bool := e.touches (k.1, k.2.1, base) ((k.2.2 + n + 31) / 32 * 32 - base)
    let mine := s.log.filter fun e => e.by_.same q && near e
    ((s.downFrom (mine.flatMap fun e => e.num :: e.ret)).filter near).map (·.num)
/-- The writes to some bytes that an access of q to them cannot miss: those that reach it (R221), its own and those it has
read (R217, R395), and the multi-copy atomic ones that stand below another it has acquired (R216). -/
def State.firm (s : State) (q : Origin) (start : List Nat) (k : Nat × Nat × Nat) (n : Nat) : List Nat :=
  let hits := s.before q start (decide (k.1 = 0))
  let reads := s.log.filter fun r => q.ordered && r.by_.same q && r.touches k n
  let wide := (s.downFrom (if q.ordered then s.acquired q s.log.length else [])).filter (·.wide)
  ((s.writes.filter fun w => w.touches k n &&
      (hits.contains w.num && w.by_.names w.scope q || reads.any (·.ret.contains w.num) || wide.contains w)).map (·.num))
    ++ s.sectorFirm q k n
/-- Some bytes lie in a line in the exact-reducing state, which has one value (R243). -/
def State.inRed (s : State) (p : Place) (n : Nat) : Bool :=
  match p with
  | .dev pa _ => (unitsOf 128 pa n).any fun l => (s.red.get l).live
  | _ => false
/-- How many of the newest writes to some bytes an access may miss. -/
def State.missable (s : State) (q : Origin) (start : List Nat) (p : Place) (n : Nat) : Nat :=
  if s.writes = [] || s.inRed p n then 0
  else
    let firm := s.firm q start p.key n
    ((s.writes.filter (·.touches p.key n)).takeWhile fun w => !firm.contains w.num).length

/-- The bytes of a place without the j newest writes to them, and the writes that they come from. -/
def State.without (s : State) (p : Place) (n j : Nat) : List Byte × List Nat :=
  let here := s.writes.filter (·.touches p.key n)
  let left := here.drop j
  let top (i : Nat) : Option Event := left.find? (·.touches (keyAt p.key i) 1)
  let byte (i : Nat) : Byte :=
    match top i with
    | some w => w.bytes.getD (p.key.2.2 + i - w.at_.2.2) 0#8
    | none => match (here.filter (·.touches (keyAt p.key i) 1)).getLast? with
      | some w => w.old.getD (p.key.2.2 + i - w.at_.2.2) 0#8
      | none => s.placeByte p i
  (if j = 0 then s.placeBytes p n else (List.range n).map byte, distinctAsc ((List.range n).filterMap fun i => (top i).map (·.num)))

/-- Who reads, after which events, and a draw: what the accesses of an engine command have in common. -/
structure Reader where
  q : Origin := {}
  start : List Nat := []
  draw : Nat := 0
  deriving DecidableEq, Repr, Inhabited
/-- A single-copy-atomic unit as a party may see it: the bytes, and the writes they come from (R216, R218).
DESIGN CHOICE, log entry 114. -/
def State.peek (s : State) (r : Reader) (p : Place) (n : Nat) : List Byte × List Nat :=
  let m := s.missable r.q r.start p n
  s.without p n (if m = 0 then 0 else Config.cut r.draw p.key.2.2 % (m + 1))
/-- The bytes of an engine's read. -/
def State.see (s : State) (r : Reader) (p : Place) (n : Nat) : List Byte := (s.peek r p n).1
/-- The runs of bytes that lie side by side, each with its length. -/
def runsOf (ps : List Place) : List (Place × Nat) :=
  (ps.splitBy fun a b => decide (b.key = keyAt a.key 1)).map fun r => (r.headD default, r.length)
/-- The bytes of some runs that make up one unit (R190, R260): without the j newest of the writes that touch any of them, for
some j that parts no element of a copy. -/
def State.seeUnit (s : State) (r : Reader) (runs : List (Place × Nat)) : List Byte :=
  let here := s.writes.filter fun w => runs.any fun x => w.touches x.1.key x.2
  let firm := runs.flatMap fun x => s.firm r.q r.start x.1.key x.2
  let m := if runs.any (fun x => s.inRed x.1 x.2) then 0 else (here.takeWhile fun w => !firm.contains w.num).length
  let parts (j : Nat) : Bool := match here[j - 1]?, here[j]? with
    | some a, some b => decide (0 < j ∧ a.unit ≠ 0 ∧ a.unit = b.unit)
    | _, _ => false
  let js := (List.range (m + 1)).filter fun j => !parts j
  let j := js.getD (Config.cut r.draw ((runs.headD default).1.key.2.2) % max 1 js.length) 0
  runs.flatMap fun x => (s.without x.1 x.2 ((here.take j).filter (·.touches x.1.key x.2)).length).1
/-- Some bytes that an engine reads as one unit. -/
def State.seeAll (s : State) (r : Reader) (ps : List Place) : List Byte :=
  match runsOf ps with
  | [] => []
  | [(p, n)] => s.see r p n
  | runs => s.seeUnit r runs

/-! ### Events -/

/-- An event takes place. -/
def State.note (s : State) (e : Event) : State := { s with log := { e with num := s.log.length } :: s.log }
/-- A release, or another event that a later one looks for by its tag. -/
def State.release (s : State) (q : Origin) (scope : Nat) (tag : List Nat) : State :=
  s.note { by_ := q, scope := scope, rel := true, tag := tag }
/-- The events whose tags begin so. -/
def State.tagged (s : State) (tag : List Nat) : List Nat :=
  (s.log.filter fun e => decide (e.tag.take tag.length = tag)).map (·.num)
/-- An acquire from some events. -/
def State.acquire (s : State) (q : Origin) (scope : Nat) (from_ : List Nat) : State :=
  if from_ = [] then s else s.note { by_ := q, scope := scope, acq := true, from_ := from_ }

/-- The parties of some blocks and groups come to stand elsewhere, and with them what they did before (R214, R385).
DEDUCED, log entry 113. -/
def State.moveParties (s : State) (f : Origin → Origin) : State :=
  { s with log := s.log.map fun e => { e with by_ := f e.by_ }, writes := s.writes.map fun e => { e with by_ := f e.by_ } }
/-- A party reads a unit (R216-R219). -/
def State.readAs (s : State) (q : Origin) (scope : Nat) (acq : Bool) (p : Place) (n : Nat) : List Byte × State :=
  if s.writes = [] then (s.placeBytes p n, s)
  else
    let x := s.peek { q := q, draw := s.free } p n
    let e : Event := { by_ := q, scope := q.scopeAt p scope, acq := acq, at_ := p.key, len := n, ret := x.2 }
    (x.1, { s with free := s.free + 1 }.note { e with from_ := if acq then s.syncs x.2 e else [] })

/-- The places in the order of writes, as how many writes stand above it, that a new write may take: above every write
to its bytes that it cannot miss, above the multi-copy atomic writes that a party had acquired before it read these bytes
without this one, above those of the lanes and plane issues before it in its own instruction (R190, R225), or of the rows
before it in its own copy (R262), above what L2 wrote when a line left the exact-reducing state (R244), and never between a read-modify-write and the write it read (R216, R217, R225). -/
def State.slots (s : State) (e : Event) (scope : Nat) (p : Place) (n : Nat) : List Nat :=
  let firm := s.firm e.by_ e.from_ p.key n
  let passed := if wideAt scope p.key.1 then
      (s.log.filter fun r => decide (r.bytes = [] ∧ r.len ≠ 0) && r.touches p.key n).flatMap fun r => s.acquired r.by_ r.num
    else []
  let lim := s.writes.findIdx fun w => firm.contains w.num || passed.contains w.num ||
    (w.touches p.key n && decide (w.by_.kind = 7 ∨ e.instr ≠ 0 ∧ w.instr = e.instr ∧ w.by_.kind = e.by_.kind ∧ w.by_.who = e.by_.who))
  (List.range (lim + 1)).filter fun i =>
    match ((s.writes.take i).filter (·.touches p.key n)).getLast? with
    | some x => !x.rmw
    | none => true

/-- Who a write is for: its party, and the parties that had it made. -/
def State.makers (s : State) (e : Event) : List Origin :=
  e.by_ :: (s.log.filter fun x => decide (x.num ∈ e.from_)).map (·.by_)
/-- An event of the log becomes another. -/
def State.renote (s : State) (e : Event) : State := { s with log := s.log.map fun x => if x.num = e.num then e else x }
/-- Perform a write with i writes above it: a byte that one of them has written keeps their value. Its event takes place now, or
has done so before (`ev`). -/
def State.insert (s : State) (grid : Option Nat) (e : Event) (i : Nat) (p : Place) (bytes : List Byte) (po : Bool)
    (ev : Option Nat := none) : State :=
  let above := (s.writes.take i).filter (·.touches p.key bytes.length)
  let e : Event := { e with
    num := ev.getD s.log.length, scope := e.by_.scopeAt p e.scope, at_ := p.key, len := bytes.length, bytes := bytes
    old := (s.without p bytes.length above.length).1 }
  let top := bytes.zipIdx.map fun x => if above.any (·.touches (keyAt p.key x.2) 1) then s.placeByte p x.2 else x.1
  let t := s.placeWrite grid (s.makers e) p (if above = [] then bytes else top) po
  let u := if ev.isSome then t.renote e else { t with log := e :: t.log }
  { u with writes := t.writes.take i ++ e :: t.writes.drop i }
/-- The line of a write leaves the exact-reducing state first (R244). -/
def State.settleLine (s : State) (grid : Option Nat) (p : Place) (n : Nat) : State :=
  match p with
  | .dev pa _ => s.endRed grid pa n
  | _ => s
/-- How many writes stand above a new one of n bytes: a free choice of those possible (R216). -/
def State.pickSlot (s : State) (e : Event) (p : Place) (n : Nat) : Nat × State :=
  if s.writes = [] || s.inRed p n then (0, s)
  else
    let is := s.slots e (e.by_.scopeAt p e.scope) p n
    (is.getD (Config.cut s.free p.key.2.2 % max 1 is.length) 0, { s with free := s.free + 1 })
/-- A party writes a unit, after the events `e.from_` and its own earlier ones; a line in the exact-reducing state leaves it
and then takes the write (R244). -/
def State.writeAs (s : State) (grid : Option Nat) (e : Event) (p : Place) (bytes : List Byte) (po : Bool)
    (ev : Option Nat := none) : State :=
  let x := s.pickSlot e p bytes.length
  (x.2.settleLine grid p bytes.length).insert grid e x.1 p bytes po ev
/-- A party writes a unit that lies in several places: its writes stand next to one another (R190, R260). -/
def State.writeUnit (s : State) (grid : Option Nat) (e : Event) (xs : List (Place × List Byte)) (po : Bool) : State :=
  match xs with
  | [] => s
  | [(p, bs)] => s.writeAs grid e p bs po
  | _ =>
    let e : Event := { e with unit := s.log.length + 1 }
    let is := if s.writes = [] || xs.any (fun x => s.inRed x.1 x.2.length) then [0]
      else xs.foldl
        (fun l x => l.filter fun i => decide (i ∈ s.slots e (e.by_.scopeAt x.1 e.scope) x.1 x.2.length)) (List.range (s.writes.length + 1))
    let i := is.getD (Config.cut s.free ((xs.headD default).1.key.2.2) % max 1 is.length) 0
    let t := xs.foldl (fun t x => t.settleLine grid x.1 x.2.length) { s with free := s.free + 1 }
    xs.foldl (fun t x => t.insert grid e i x.1 x.2 po) t
/-- A write that is the latest to its bytes. DESIGN CHOICE, log entry 114. -/
def State.topWrite (s : State) (grid : Option Nat) (e : Event) (p : Place) (bytes : List Byte) (po : Bool) : State :=
  if bytes = [] then s else (s.settleLine grid p bytes.length).insert grid e 0 p bytes po
/-- An agent outside the programs writes: the latest write to its bytes. -/
def State.agentWrite (s : State) (grid : Option Nat) (q : Origin) (p : Place) (bytes : List Byte) (po : Bool) : State :=
  s.topWrite grid { by_ := q, scope := 9 } p bytes po

end Sys2Proof.Machine
end

