-- ==== Sys2Proof/Machine/Ops.lean ====
section
/-! DEFINITION. The shared operations: splits and lanes that leave (03_control.md R84-R107), barriers
(12_launch.md R341, R343), the trap queue (13_traps.md R373, R374), and taking a trap: its delivery
(R362), the entry of the handler (R363, R364), the region restart (R368) and the end of a group. -/

namespace Sys2Proof.Machine

open Sys2Proof

/-- What an outcome leaves; an instruction that stops changes nothing. -/
def outState (o : Host.Outcome State Fault Refusal) (s : State) : State :=
  match o with
  | .next t => t
  | _ => s

/-! ### Splits -/

/-- The lowest free split slot (R85). -/
def Group.freeSlot (g : Group) : Option Nat := (List.range 4).find? fun k => !(g.splits.get k).valid

/-- A fresh split at an offset. -/
def Split.at (offset : Nat) (mask : LaneMask) (stall : Nat := 0) : Split :=
  { valid := true, offset := offset, mask := mask, stall := stall, sig := crcInit }

/-- Lanes leave their splits and the held state; a split without lanes is freed (R84, R107). -/
def Group.dropLanes (g : Group) (m : LaneMask) : Group :=
  { g with
    splits := (List.range 4).foldl
      (fun t k =>
        let x := t.get k
        if x.valid then
          if x.mask &&& ~~~ m = 0#32 then t.put k {} else t.put k { x with mask := x.mask &&& ~~~ m }
        else t)
      g.splits
    held := g.held &&& ~~~ m }

/-! ### Barriers -/

/-- Marks with every group that has arrived held at all ones (R341). -/
def arrive (s : State) (gids : List Nat) (marks : SMap LaneMask) : SMap LaneMask :=
  gids.foldl
    (fun m gid =>
      let x := m.get gid
      if x ≠ 0#32 ∧ (s.g gid).alive ≠ 0#32 ∧ (s.g gid).alive &&& ~~~ x = 0#32 then m.put gid allLanes else m)
    marks

/-- A group that runs, or waits, and has not exited or ended. -/
def Group.here (g : Group) : Bool := g.live && decide (g.stop ≠ .ended)

/-- Arrivals of groups that have left their slots since (R341). -/
def goneArrivals (gids : List Nat) (marks : SMap LaneMask) : Nat :=
  (marks.filter fun e => decide (e.1 ∉ gids) && decide (e.2 = allLanes)).length
/-- A barrier after some change of its groups: it completes when its arrivals reach the expected count, or,
with count 0, when every group that has not exited has arrived (R341). -/
def Barrier.settle (s : State) (gids : List Nat) (x : Barrier) : Barrier :=
  if ¬ x.isOpen then x
  else
    let marks := arrive s gids x.marks
    let arrived := (gids.filter fun gid => decide (marks.get gid = allLanes)).length + goneArrivals gids x.marks
    let done : Bool :=
      if x.count = 0 then gids.all fun gid => !(s.g gid).here || decide (marks.get gid = allLanes)
      else decide (x.count ≤ arrived)
    if done then { isOpen := false, count := 0, marks := [], phase := x.phase + 1 } else { x with marks := marks }

/-- Settle every barrier of a block and the cluster barrier it takes part in. -/
def State.settleBars (s : State) (bid : Nat) : State :=
  let b := s.b bid
  let bars := (List.range 16).foldl
    (fun t k => if (t.get k).isOpen then t.put k ((t.get k).settle s b.groups) else t) b.bars
  let s1 := s.updB bid fun b => { b with bars := bars }
  let cl := if b.cluster = [] then [bid] else b.cluster
  let key := b.blk / max 1 (s.gr b.grid).p.clust
  let gids := cl.flatMap fun q => (s.b q).groups
  s1.updGr b.grid fun g =>
    if (g.cbar.get key).isOpen then { g with cbar := g.cbar.put key ((g.cbar.get key).settle s gids) } else g

/-! ### The trap queue -/

/-- Slots in use outside the reserve, and reserved slots in use (R374). -/
def Die.unreserved (d : Die) : Nat := (d.queue.filter fun r => !r.reserved).length
def Die.reservedUsed (d : Die) : Nat := (d.queue.filter fun r => r.reserved).length

/-- The record of a group (R373). -/
def State.record (s : State) (gid : Nat) (t : Trap) : QRec :=
  let g := s.g gid
  { t := t, grid := s.gridOf g, blk := (s.b g.bid).blk, core := g.core, index := g.index
    partner := match (s.b g.bid).partner with
      | some c => s.physOf c
      | none => 0xFF
    phys := s.physOf g.core, recno := g.recno, dead := g.dead, cycle := s.cycle }

/-- The grid's first fatal event, on a die, fixes TRAP and SUB; of those of one cycle the one on the lowest die counts
first (R337, R374). DEDUCED, log entry 49. -/
def State.fatalEvent (s : State) (h die : Nat) (t : Trap) : State :=
  s.updGr h fun g =>
    if g.anyFault ∧ ¬ (g.fatalAt = s.cycle ∧ die < g.fatalDie) then g
    else { g with anyFault := true, trap := t.code, sub := t.sub, fatalAt := s.cycle, fatalDie := die }

/-! ### A group ends -/

/-- The tokens that a group holds return to the engine (R269). -/
def State.returnTokens (s : State) (gid : Nat) : State :=
  s.updCo (s.g gid).core fun c =>
    let tiles := (List.range 8).foldl
      (fun t k => if (t.get k).tok = some gid then t.upd k fun x => { x with tok := none } else t) c.tiles
    { c with tiles := tiles }

/-- What the triggers of a grid, and the ends of its groups, are known by (R333, R339). -/
def trigTag (h : Nat) : List Nat := [6, h]
def endTag (h : Nat) : List Nat := [7, h]

/-- A group stops for good: it leaves its splits, its tokens return, and its barriers settle (R102, R269,
R341, R362). `byExit` tells an exit, which counts as a trigger, from any other end (R339). Both are releases of its lanes
at DEVICE scope (R333, R339). -/
def State.endGroup (s : State) (gid : Nat) (byExit : Bool) : State :=
  let g := s.g gid
  let h := s.gridOf g
  let all := s.lanesAt gid allLanes
  let s := s.release all 6 (endTag h)
  let s := if byExit && !g.triggered then s.release all 6 (trigTag h) else s
  let s1 := s.updGr h fun x =>
    if g.triggered then x
    else if byExit then { x with triggers := x.triggers + 1 }
    else { x with untriggered := true }
  let s2 := s1.updG gid fun g =>
    { g with stop := .ended, splits := [], held := 0#32, pend := [], pairBuf := [], poisonPass := none
             triggered := g.triggered || byExit }
  (s2.returnTokens gid).settleBars g.bid

/-- The queue of a die has a slot for another record, and for another fatal one (R374). -/
def Die.room (d : Die) : Bool := decide (d.unreserved < 248)
def Die.fatalRoom (d : Die) : Bool := d.room || decide (d.reservedUsed < 8)
/-- A record enters a queue. -/
def State.queueRec (s : State) (die : Nat) (r : QRec) : State := s.updDi die fun d => { d with queue := d.queue ++ [r] }

/-- A fatal record enters a free slot, the reserve's last, and its group ends (R362, R374). -/
def State.enterFatal (s : State) (gid : Nat) (t : Trap) (nest : Bool) : State :=
  let g := s.g gid
  let die := dieOf g.core
  let s1 := s.queueRec die { s.record gid t with fatal := true, nest := nest, reserved := !(s.di die).room }
  let s2 := s1.fatalEvent (s.gridOf g) die t
  (s2.updB g.bid fun b => { b with faulted := true }).endGroup gid false
/-- A replayable record enters a free slot (R374). -/
def State.enterReplay (s : State) (gid : Nat) (t : Trap) (token : Nat) : State :=
  (s.queueRec (dieOf (s.g gid).core) { s.record gid t with replay := true, token := token }).updG gid
    fun g => { g with stop := .replay t token true }

/-- The oldest fatal record that waits for a slot enters, and its group ends; else the oldest replayable one (R374). -/
def State.enqueueWaiting (s : State) (die : Nat) : State :=
  let d := s.di die
  match d.waiting, d.deferred with
  | gid :: rest, _ =>
    if d.fatalRoom then
      let t := s.updDi die fun d => { d with waiting := rest }
      match (s.g gid).stop with
      | .reserve tr nest => t.enterFatal gid tr nest
      | _ => t
    else s
  | [], gid :: rest =>
    if d.room then
      let t := s.updDi die fun d => { d with deferred := rest }
      match (s.g gid).stop with
      | .replay tr token false => t.enterReplay gid tr token
      | _ => t
    else s
  | [], [] => s
/-- A record that waits has a slot now (R374). -/
def Die.enqueues (d : Die) : Bool := (!d.waiting.isEmpty && d.fatalRoom) || (d.waiting.isEmpty && !d.deferred.isEmpty && d.room)
/-- Every record that waits and has a slot enters: they come before any later record (R374). -/
def State.catchUp (s : State) (die : Nat) : State :=
  (List.range ((s.di die).waiting.length + (s.di die).deferred.length)).foldl (fun t _ => t.enqueueWaiting die) s

/-- Queue a report record; it is dropped when the queue is full (R374). A group in the poison pass queues
none (R372). -/
def State.report (s : State) (gid : Nat) (t : Trap) : State :=
  let g := s.g gid
  if g.poisonPass.isSome then s
  else
    let s := s.catchUp (dieOf g.core)
    if (s.di (dieOf g.core)).room then s.queueRec (dieOf g.core) { s.record gid t with report := true }
    else s.updDi (dieOf g.core) fun d => { d with drop := min (d.drop + 1) 255 }

/-- A fatal record enters the queue, or the group waits for a reserved slot (R362, R374): then every register
of it carries poison and it keeps its slot. -/
def State.fatal (s : State) (gid : Nat) (t : Trap) (nest : Bool) : State :=
  let g := s.g gid
  let s := s.catchUp (dieOf g.core)
  if (s.di (dieOf g.core)).fatalRoom then s.enterFatal gid t nest
  else
    let s1 := s.updDi (dieOf g.core) fun d => { d with mchk := true, waiting := d.waiting ++ [gid] }
    s1.updG gid fun g =>
      { g with stop := .reserve t nest
               vpo := (List.range 64).foldl (fun m r => m.put r allLanes) g.vpo
               spo := (List.range 128).foldl (fun m r => m.put r true) g.spo }

/-! ### Region restart and handler entry -/

/-- Every in-flight counter is 0 (R196). -/
def Group.drained (g : Group) : Bool := g.inflight.isEmpty

/-- Install the region record: one split in slot 0 at its entry (R368 steps 2 and 3). -/
def Group.restartRegion (g : Group) : Group :=
  let m := g.region.rmask &&& g.alive
  { g with
    splits := if m = 0#32 then [] else SMap.put [] 0 (Split.at g.region.entry m)
    held := 0#32, plane := g.region.plane, lfsr := g.region.lfsr, mmask := g.region.mmask
    mmaskNext := none, stop := .running, pend := [] }

/-- Restart a group's region, at once or when its accesses have completed (R368 step 1). -/
def State.restart (s : State) (gid : Nat) : State :=
  s.updG gid fun g => if g.drained then g.restartRegion else { g with stop := .restart }

/-- The bytes of the trap frame (R364), and the state with the free values of R84 drawn for the slots that have been
freed; a slot that has held no split since the entry has its reset values (R82). DEDUCED, log entry 103: a SIG word is SIG as R75 says it reads.
DESIGN CHOICE, log entry 12. -/
def State.frameBytes (s : State) (gid : Nat) (t : Trap) : List Byte × State :=
  let g := s.g gid
  let word (n : Nat) := leBytes 4 n
  let (slots, s1) := (List.range 4).foldl
    (fun (acc : List Byte × State) k =>
      let x := g.splits.get k
      if x ≠ {} then
        (acc.1 ++ word (x.age * 2 ^ 24 + x.stall * 2 ^ 22 + x.joinw.toNat * 2 ^ 21 + x.valid.toNat * 2 ^ 20 + x.offset % 2 ^ 20)
          ++ word x.mask.toNat ++ word (crcFinish x.sig).toNat ++ word 0, acc.2)
      else
        let (a, u) := acc.2.drawWord
        let (m, u) := u.drawWord
        let (c, u) := u.drawWord
        (acc.1 ++ word (bits a.toNat 29 21 * 2 ^ 21 + a.toNat % 2 ^ 20) ++ word m.toNat ++ word c.toNat ++ word 0, u))
    ([], s)
  let planes := (List.range 32).foldl (fun a l => a + g.plane.get l * 4 ^ l) 0
  (word (t.code * 65536 + t.sub * 256 + g.priv.toNat * 128) ++ word t.tval.toNat ++ leBytes 8 t.taddr ++ word t.tpc
    ++ word g.recno.toNat ++ word g.mmask.toNat ++ word g.xstat.toNat ++ slots ++ leBytes 8 planes
    ++ word g.held.toNat ++ word g.exited.toNat ++ word g.dead.toNat ++ word g.clockHi.toNat ++ word g.ovf.toNat
    ++ word 0 ++ (List.range 32).flatMap (fun l => word (g.holdoff.get l))
    ++ (List.range 16).flatMap (fun k => word (g.sr.get (48 + k)).toNat)
    ++ (List.range 32).flatMap (fun l => word (g.vr.get (32 * 63 + l)).toNat) ++ List.replicate 64 0#8, s1)

/-- TVEC and TFBASE of a core (R361). -/
def Core.tvec (c : Core) : Nat := bits c.tvechi.toNat 19 0 * 2 ^ 32 + bits c.tveclo.toNat 31 16 * 65536
def Core.tfbase (c : Core) : Nat := bits c.tfbhi.toNat 19 0 * 2 ^ 32 + bits c.tfblo.toNat 31 16 * 65536

/-- Where n bytes of a global address lead for a group: the local scratchpad inside the window (R187), else
by translation. DEDUCED, log entry 43. -/
def State.globalPlace (s : State) (g : Group) (priv : Bool) (k : Acc) (va n : Nat) : Except Nat Place × State :=
  let c := s.co g.core
  if c.inWindow va then
    match s.scratchPlace g (va - c.scrBase) n with
    | some p => (.ok p, s)
    | none => (.error 0x15, s)
  else s.translate g.core priv k va

/-- The header of a code object as bytes, read for a group; none where a translation faults or a sector is
poisoned. -/
def State.headerBytes (s : State) (g : Group) (priv : Bool) (va : Nat) : Option (List Byte) × State :=
  match s.translate g.core priv .load va with
  | (.ok p, t) => if t.placePo p 1024 then (none, t) else (some (t.placeBytes p 1024), t)
  | (.error _, t) => (none, t)

/-- The 32-bit field of some bytes at an offset. -/
def field32 (bs : List Byte) (o : Nat) : Nat := leNat ((bs.drop o).take 4)

/-- The chunks that a header marks as specialised (R72): bit c % 8 of the byte at 0x100 + c / 8 for chunk c. -/
def chunkMap (bs : List Byte) : SMap Bool :=
  ((bs.drop 0x100).take 512).zipIdx.flatMap fun (b, k) =>
    if b = 0#8 then [] else ((List.range 8).filter b.getLsbD).map fun j => (8 * k + j, true)
/-- What the hardware keeps of a header (R72). -/
def headerObj (va : Nat) (bs : List Byte) : CodeObj :=
  { va := va, pshift := (bs.getD 6 0#8).toNat, planes := (bs.getD 7 0#8).toNat, textlen := field32 bs 8
    chunks := chunkMap bs }

/-- The code object a group fetches from (R363). -/
def State.codeOf (s : State) (g : Group) : CodeObj := if g.handler then g.hobj else (s.gr (s.gridOf g)).obj

/-- The offset of a handler: the first entry of its code object (R363). -/
def handlerEntry (bs : List Byte) : Nat := field32 bs 0x300

/-- A register that the frame saves carries poison: a frame of it cannot be written (R363). DEDUCED, log entry 76. -/
def Group.framePoison (g : Group) : Bool :=
  decide (g.vpo.get 63 ≠ 0#32) || (List.range 16).any fun k => g.spo.get (48 + k)

/-- Enter the handler (R363): the frame is written, one split with every live lane stands at the handler's
entry, the group is privileged, and s48-s51 tell where the frame is and what happened. If the frame cannot be
written or the handler's header cannot be read, the trap is fatal. DEDUCED, log entry 44; DEDUCED, log entry 77.
DEDUCED, log entry 82. -/
def State.enterHandler (s : State) (gid : Nat) (t : Trap) : State :=
  let g := s.g gid
  let c := s.co g.core
  let fva := c.tfbase + 512 * g.slot
  let (fp, s1) := s.translate g.core true .store fva
  let (hdr, s2) := s1.headerBytes g true c.tvec
  match (if g.framePoison then .error 0 else fp), hdr with
  | .ok p, some hb =>
    let (fb, s3) := s2.frameBytes gid t
    let s3 := s3.writeAs (some (s.gridOf g)) { by_ := s.lanesAt gid allLanes, scope := 6 } p fb false
    let s4 := match p with
      | .dev pa _ => s3.clearCovered ((List.range 16).map fun k => (pa + 32 * k, 32))
      | _ => s3
    let m := g.alive
    let tstat := t.code * 65536 + t.sub * 256 + g.priv.toNat * 128
    s4.updG gid fun g =>
      { ((((g.setS 48 (loW fva)).setS 49 (hiW fva)).setS 50 (w32 tstat)).setS 51 t.tval) with
        waits := g.splits, splits := SMap.put [] 0 (Split.at (handlerEntry hb) m)
        held := 0#32, plane := [], mmask := allLanes, priv := true, handler := true
        hobj := headerObj c.tvec hb, frameVa := fva, stop := .running, pend := [] }
  | _, _ => s2.fatal gid t true

/-! ### Taking a trap -/

/-- The instruction-precise codes (R358, R359); TRET_MISUSE is one for sub-code 0. -/
def Trap.precise (t : Trap) : Bool :=
  decide (t.code ∈ [0x01, 0x02, 0x03, 0x04, 0x05, 0x06, 0x07, 0x0A, 0x0B, 0x0E, 0x0F, 0x11, 0x12, 0x15, 0x16])
    || (decide (t.code = 0x10) && decide (t.sub = 0))

/-- A group holds a token. -/
def Group.holdsToken (g : Group) (k : Nat) : Bool :=
  match g.stop with
  | .replay _ token _ => g.live && decide (token = k)
  | _ => false
/-- The next token: a 32-bit number, not 0, that no stopped group holds (R376). -/
def State.newToken (s : State) : Nat :=
  (((List.range (s.groups.length + 1)).map fun k => (s.tokens + k) % (2 ^ 32 - 1) + 1).find? fun k =>
    s.groups.all fun e => !e.2.holdsToken k).getD 1
/-- Queue a replayable record, or leave the group waiting for room (R374). -/
def State.replayStop (s : State) (gid : Nat) (t : Trap) : State :=
  let die := dieOf (s.g gid).core
  let s := s.catchUp die
  let token := s.newToken
  let s1 := { s with tokens := token }
  if (s.di die).room then s1.enterReplay gid t token
  else
    (s1.updDi die fun d => { d with deferred := d.deferred ++ [gid] }).updG gid
      fun g => { g with stop := .replay t token false }
/-- A group that stops for the supervisor queues its record once every access in flight has completed or faulted (R358);
a further fault among them is absorbed. DEDUCED, log entry 40. -/
def State.replayWhenDrained (s : State) (gid : Nat) : State :=
  match (s.g gid).stop with
  | .faulted t => if (s.g gid).drained then s.replayStop gid t else s
  | _ => s

/-- The poison pass ends with the fatal SIGNATURE, sub-code 1, whatever ended it (R372). -/
def State.endPoisonPass (s : State) (gid : Nat) : State :=
  let g := s.g gid
  match g.poisonPass with
  | none => s
  | some (_, t) =>
    let s1 := s.updDi (dieOf g.core) fun d => { d with uncorr := min (d.uncorr + 1) 65535 }
    (s1.updG gid fun g => { g with poisonPass := none }).fatal gid t false

/-- Take a trap: the first rule of R362 that applies. -/
def State.trap (s : State) (gid : Nat) (t : Trap) : State :=
  let g := s.g gid
  let c := s.co g.core
  let s := if s.cur.gid = gid then { s with cur := { s.cur with trapped := true, trap := t } } else s
  let s := if g.mmaskNext = none ∧ g.ovfNext = none then s else s.updG gid Group.settleMask
  if g.poisonPass.isSome then s.endPoisonPass gid
  else if g.handler then s.fatal gid t true
  else if t.precise && c.tctl.getLsbD 0 && c.tdeleg.getLsbD t.code then
    if g.drained then s.enterHandler gid t else s.updG gid fun g => { g with stop := .enter t }
  else if t.code = 0x08 ∨ (t.code = 0x0D ∧ t.sub = 0 ∧ c.tctl.getLsbD 1) then (s.updG gid fun g => { g with stop := .faulted t }).replayWhenDrained gid
  else if t.code = 0x0C ∧ t.sub = 0 then (s.report gid t).restart gid
  else s.fatal gid t false

/-- The TPC word of the issuing instruction (R364). -/
def Cur.tpc (c : Cur) : Nat := c.plane % 4 * 2 ^ 22 + c.slot % 4 * 2 ^ 20 + c.here % 2 ^ 20
/-- TPC of the issue of a group that takes place (R364); 0 where none does. -/
def State.issueTpc (s : State) (gid : Nat) : Nat := if s.cur.valid ∧ s.cur.gid = gid then s.cur.tpc else 0
/-- A lane dies (R377): it leaves its split, its pending load results are discarded, a report is queued, and the group ends
when it was the last. -/
def State.killLane (s : State) (gid lane : Nat) : State :=
  let g := s.g gid
  let tpc := s.issueTpc gid
  if inMask (g.exited ||| g.dead) lane then s
  else
    let s1 := s.updG gid fun g =>
      { (g.dropLanes (laneBit lane)) with
        dead := g.dead ||| laneBit lane
        vr := g.pend.foldl
          (fun m p => if p.onPath ∧ ¬ p.landed ∧ p.file = .v ∧ inMask p.lanes lane then
            m.put (32 * p.reg + lane) (w32 (p.old.get lane)) else m) g.vr
        pend := g.pend.map fun p => { p with lanes := p.lanes &&& ~~~ (laneBit lane) } }
    let s2 := s1.report gid { code := 0x0D, sub := 5, tval := w32 lane, tpc := tpc }
    if (s2.g gid).alive = 0#32 then s2.trap gid { code := 0x0D, sub := 1, tpc := tpc } else s2.settleBars g.bid

end Sys2Proof.Machine
end

