-- ==== Sys2Proof/Machine/Fetch.lean ====
section
/-! DEFINITION. Instruction fetch (02_encoding.md R38-R40, R59, R73; 03_control.md R91, R94). -/

namespace Sys2Proof.Machine

open Sys2Proof

/-- The VA of a parcel: the text of the lane's plane in a specialised chunk, else of plane 0 (R73, R91). -/
def CodeObj.parcelVa (o : CodeObj) (plane off : Nat) : Nat :=
  o.va + 0x400 + (if o.chunks.get (off / 256) then plane * 2 ^ o.pshift else 0) + off

/-- Read one parcel for a group (R39): what memory holds, and its VA if that is device memory, which is cached; or a translation
fault, or POISON for a marked sector. -/
def State.readParcel (s : State) (g : Group) (plane off : Nat) : Except Trap (Nat × Option Nat) × State :=
  let va := (s.codeOf g).parcelVa plane off
  match s.translate g.core g.priv .fetch va with
  | (.error c, t) => (.error { code := c, taddr := va }, t)
  | (.ok p, t) =>
    if t.placePo p 2 then (.error { code := 0x0D, sub := 6, taddr := va }, t)
    else (.ok (leNat (t.placeBytes p 2), match p with
      | .dev _ _ => some va
      | _ => none), t)

/-- The parcel that an instruction cache holds of an address. -/
def Core.cached (c : Core) (va : Option Nat) : Option Nat :=
  match va with
  | some a => if c.icache.get a = 0 then none else some (c.icache.get a - 1)
  | none => none
/-- How many parcels an instruction cache of 256 KiB holds (R18). -/
def icacheSize : Nat := 131072
/-- Keep a parcel in an instruction cache; a full one drops another, a free choice. DESIGN CHOICE, log entry 123.
DEDUCED, log entry 33. -/
def Core.keepParcel (c : Core) (draw : Nat) (x : Nat × Option Nat) : Core :=
  match x.2 with
  | none => c
  | some va =>
    let c := if c.icache.get va = 0 ∧ icacheSize ≤ c.icache.length then
        match c.icache[Config.pick draw % c.icache.length]? with
        | some e => { c with icache := c.icache.erase e.1 }
        | none => c
      else c
    { c with icache := c.icache.put va (x.1 + 1) }

/-- One word of the text, as memory holds it (`new`) and, where it is cached whole, as the instruction cache does: each
fetch of a word that has been written since is the word before the write or the word after it (R40).
DEDUCED, log entry 33. -/
def State.takeWord (s : State) (core : Nat) (new : List (Nat × Option Nat)) (old : Option (List Nat)) : List Nat × State :=
  let now := new.map (·.1)
  let keep (t : State) : State := t.updCo core fun c => new.foldl (fun c x => c.keepParcel t.free x) c
  match old with
  | none => (now, keep s)
  | some w =>
    if w = now then (now, s)
    else if Config.freeBit s.free then (w, { s with free := s.free + 1 })
    else (now, keep { s with free := s.free + 1 })

/-- Fetch the literal or arm word at an offset. -/
def State.fetchLit (s : State) (g : Group) (plane off : Nat) : Except Trap (List Nat) × State :=
  match s.readParcel g plane off with
  | (.error t, u) => (.error t, u)
  | (.ok a, u) =>
    match u.readParcel g plane (off + 2) with
    | (.error t, v) => (.error t, v)
    | (.ok b, v) =>
      let old := match (v.co g.core).cached a.2, (v.co g.core).cached b.2 with
        | some x, some y => some [x, y]
        | _, _ => none
      let r := v.takeWord g.core [a, b] old
      (.ok r.1, r.2)

/-- Fetch the word or the compact parcel at an offset, without any parcel at or beyond `tl`. A word whose second parcel
is not fetched comes back alone. -/
def State.fetchHead (s : State) (g : Group) (plane off tl : Nat) : Except Trap (List Nat) × State :=
  match s.readParcel g plane off with
  | (.error t, u) => (.error t, u)
  | (.ok a, u) =>
    let c := u.co g.core
    let two (x : Nat) : Bool := decide (x % 2 = 1 ∧ off + 4 ≤ tl)
    if two a.1 || (c.cached a.2).any two then
      match u.readParcel g plane (off + 2) with
      | (.error t, v) => if two a.1 then (.error t, v) else
          let r := v.takeWord g.core [a] none
          (.ok r.1, r.2)
      | (.ok b, v) =>
        let old := match (v.co g.core).cached a.2, (v.co g.core).cached b.2 with
          | some x, some y => some (if two x then [x, y] else [x])
          | some x, none => if two x then none else some [x]
          | none, _ => none
        let r := v.takeWord g.core (if two a.1 then [a, b] else [a]) old
        (.ok r.1, r.2)
    else
      let r := u.takeWord g.core [a] ((c.cached a.2).map fun x => [x])
      (.ok r.1, r.2)

/-- Literal and arm words one after another; the lowest parcel that faults decides. -/
def State.fetchLits (g : Group) (plane : Nat) : Nat → Nat → State → Except Trap (List Nat) × State
  | 0, _, s => (.ok [], s)
  | n + 1, off, s =>
    match s.fetchLit g plane off with
    | (.error t, u) => (.error t, u)
    | (.ok p, u) =>
      match State.fetchLits g plane n (off + 4) u with
      | (.ok ps, v) => (.ok (p ++ ps), v)
      | (.error t, v) => (.error t, v)

/-- What fetching one instruction finds: its code, a fetch fault, or ILLEGAL because some of it lies beyond TEXTLEN, with
the word that ILLEGAL reports (R39). -/
inductive Fetched where
  | code (c : Code)
  | fault (t : Trap)
  | beyond (w : Nat)
  deriving DecidableEq, Repr, Inhabited

/-- 32-bit words from parcels. -/
def joinWords : List Nat → List Nat
  | a :: b :: r => (a + 65536 * b) :: joinWords r
  | _ => []

/-- Fetch the instruction at an offset on a plane. A parcel beyond TEXTLEN is not fetched: its bits in the word that
ILLEGAL reports are free. DESIGN CHOICE, log entry 32. -/
def State.fetchCode (s : State) (g : Group) (plane off : Nat) : Fetched × State :=
  let tl := (s.codeOf g).textlen
  if tl < off + 2 then
    let (x, t) := s.drawWord
    (.beyond x.toNat, t)
  else
    match s.fetchHead g plane off tl with
    | (.error t, u) => (.fault t, u)
    | (.ok [p, q], u) =>
      let w := p + 65536 * q
      let n := followWords w
      let fit := min n ((tl - off - 4) / 4)
      match State.fetchLits g plane fit (off + 4) u with
      | (.error t, x) => (.fault t, x)
      | (.ok ps, x) =>
        if fit = n then (.code (.word w (joinWords ps)), x)
        -- half a following word may still lie in the text, and is fetched
        else if tl < off + 4 + 4 * fit + 2 then (.beyond w, x)
        else match x.readParcel g plane (off + 4 + 4 * fit) with
          | (.error t, y) => (.fault t, y)
          | (.ok _, y) => (.beyond w, y)
    | (.ok ps, u) =>
      let p := ps.headD 0
      if p % 2 = 0 then (.code (.parcel p), u)
      else
        let (x, v) := u.drawWord
        (.beyond (p + x.toNat / 65536 * 65536), v)

/-- The plane-0 word that the signature hashes (R94), or the fault of fetching it. A parcel at or beyond TEXTLEN is not
fetched. DESIGN CHOICE, log entry 32. -/
def State.sigWord (s : State) (g : Group) (off : Nat) : Except Trap Nat × State :=
  let tl := (s.codeOf g).textlen
  if tl < off + 2 then (.ok 0, s)
  else match s.fetchHead g 0 off tl with
    | (.error t, u) => (.error t, u)
    | (.ok [p, q], u) => (.ok (p + 65536 * q), u)
    | (.ok ps, u) =>
      let p := ps.headD 0
      if p % 2 = 0 then (.ok p, u)
      else
        let (x, v) := u.drawWord
        (.ok (p + x.toNat / 65536 * 65536), v)

/-- How long the instruction at an offset is, or the fault of fetching it. -/
def State.codeLength (s : State) (g : Group) (plane off : Nat) : Except Trap Nat × State :=
  match s.fetchCode g plane off with
  | (.code c, t) => (.ok c.length, t)
  | (.beyond w, t) => (.ok (if w % 2 = 0 then 2 else 4 + 4 * followWords w), t)
  | (.fault e, t) => (.error e, t)

end Sys2Proof.Machine
end

