-- ==== Sys2Proof/Machine/Use.lean ====
section
/-! DEFINITION. What the words of an instruction say about it before it acts: its class, pipe and latency
(02_encoding.md R44), the registers it reads and writes, whether it is privileged (R51, R55), and the
checks of R66 steps 2 to 4. -/

namespace Sys2Proof.Machine

open Sys2Proof

/-- The classes of R44. -/
inductive Cls where
  | lane | scalar | control
  deriving DecidableEq, Repr, Inhabited

/-- The pipes of R17; P0 and P1 serve one pool (R356). -/
inductive Pipe where
  | p01 | p2 | p3
  deriving DecidableEq, Repr, Inhabited

/-- The class of a major (R44). -/
def clsOfMajor (maj : Nat) : Cls :=
  if maj ∈ [28, 29, 30] then .control
  else if maj ∈ [13, 19, 20, 21, 27, 31] then .scalar else .lane

/-- The pipe of a major and its function (R44). -/
def pipeOfMajor (maj fn : Nat) : Pipe :=
  if maj ∈ [9, 17, 12, 13] then .p2
  else if maj = 11 ∧ 9 ≤ fn ∧ fn ≤ 17 then .p2
  else if 19 ≤ maj ∧ maj ≠ 18 then .p3 else .p01

/-- The class of some code (R44, R57). -/
def codeCls : Code → Cls
  | .parcel _ => .lane
  | .word w _ => clsOfMajor (w / 2 % 32)
/-- The pipe of some code. -/
def codePipe : Code → Pipe
  | .parcel _ => .p01
  | .word w _ => pipeOfMajor (w / 2 % 32) (fA (w / 16384))
/-- The stall count of some code (R43, R57). -/
def codeStall : Code → Nat
  | .parcel _ => 0
  | .word w _ => if 22 ≤ w / 2 % 32 ∧ w / 2 % 32 ≤ 27 then 0 else w / 64 % 4
/-- The word or the zero-extended parcel of some code, as traps report it (R359). -/
def codeHead : Code → Nat
  | .parcel p => p
  | .word w _ => w

/-- Consecutive register numbers. -/
def regs (r n : Nat) : List Nat := (List.range n).map (r + ·)
/-- How many registers the data of a size takes (R188). -/
def sizeRegs (z : Nat) : Nat := if z = 5 then 2 else if z = 6 then 4 else 1
/-- How many bytes a size moves (R188). -/
def sizeBytes (z : Nat) : Nat := if z ≤ 1 then 1 else if z ≤ 3 then 2 else if z = 4 then 4 else if z = 5 then 8 else 16

/-- What an instruction reads and writes: vector, scalar and predicate numbers, whether the lane LFSR or a tile
slice, and the latency of its results (0: none; a path number plus 100: variable, R64). -/
structure Uses where
  rv : List Nat := []
  rs : List Nat := []
  rp : List Nat := []
  wv : List Nat := []
  ws : List Nat := []
  wp : List Nat := []
  lfsr : Bool := false
  lat : Nat := 0
  deriving DecidableEq, Repr, Inhabited

/-- The uses of a scalar operation on sd and sa (R112, R114). -/
def useSc (d a : Nat) : Uses := { rs := [d, a], ws := [d], lat := 1 }

/-- The registers of each instruction (R44 and its entry). Operand blocks are read whole.
DEDUCED, log entry 31; DEDUCED, log entry 39. -/
def uses : Instr → Uses
  | .ffma _ d a b => { rv := [a, b, d], wv := [d], lat := 4 }
  | .fadd _ d a b | .fmul _ d a b => { rv := [a, b], wv := [d], lat := 4 }
  | .imad _ d a b => { rv := [a, b, d], wv := [d], lat := 2 }
  | .iadd _ d a b | .isub _ d a b | .and _ d a b | .or _ d a b => { rv := [a, b], wv := [d], lat := 2 }
  | .xor _ d a | .shl _ d a | .shr _ d a | .sra _ d a | .mul _ d a | .mulhs _ d a | .mulhu _ d a | .mins _ d a
  | .maxs _ d a | .minu _ d a | .maxu _ d a | .andn _ d a => { rv := [d, a], wv := [d], lat := 2 }
  | .not _ d a | .neg _ d a | .abs _ d a | .clz _ d a | .popc _ d a | .brev _ d a | .mov _ d a =>
    { rv := [a], wv := [d], lat := 2 }
  | .bcast _ d s => { rs := [s], wv := [d], lat := 2 }
  | .lane _ d | .pget _ d => { wv := [d], lat := 2 }
  | .srget _ d => { wv := [d], lfsr := true, lat := 2 }
  | .psetv _ q a => { rv := [a], wp := [q], lat := 2 }
  | .pgetv _ d b => { rp := [b], wv := [d], lat := 2 }
  | .pand _ q b | .por _ q b | .pxor _ q b => { rp := [q, b], wp := [q], lat := 2 }
  | .pnot _ q b | .pmov _ q b => { rp := [b], wp := [q], lat := 2 }
  | .fsub _ d a | .fmin _ d a | .fmax _ d a | .hadd2 _ d a | .hmul2 _ d a | .hmax2 _ d a =>
    { rv := [d, a], wv := [d], lat := 4 }
  | .fabs _ d a | .fneg _ d a | .rndn _ d a | .rndz _ d a | .rndd _ d a | .rndu _ d a | .fclass _ d a =>
    { rv := [a], wv := [d], lat := 4 }
  | .rcp _ d a | .rsq _ d a | .sqrt _ d a | .exp2 _ d a | .log2 _ d a | .sinpi _ d a | .cospi _ d a | .tanh _ d a
  | .sigm _ d a => { rv := [a], wv := [d], lat := 8 }
  | .cvtF32I32 _ d a r | .cvtF32Ui32 _ d a r | .cvtI32F32 _ d a r | .cvtUi32F32 _ d a r =>
    { rv := [a], wv := [d], lfsr := decide (r = 3), lat := 4 }
  | .cvtBf16F32 _ d a r | .cvtFp16F32 _ d a r | .cvtE4m3F32 _ d a r | .cvtE5m2F32 _ d a r | .cvtE2m1F32 _ d a r =>
    { rv := [d, a], wv := [d], lfsr := decide (r = 3), lat := 4 }
  | .cvtInt8I32 _ d a _ => { rv := [d, a], wv := [d], lat := 4 }
  | .cvtF32Bf16 _ d a | .cvtF32Fp16 _ d a | .cvtF32E4m3 _ d a | .cvtF32E5m2 _ d a | .cvtF32E2m1 _ d a
  | .cvtF32Int8 _ d a => { rv := [a], wv := [d], lat := 4 }
  | .voteany _ s q | .voteall _ s q | .ballot _ s q => { rp := [q], ws := [s], lat := 8 }
  | .redadd _ s a | .redfadd _ s a | .redfmax _ s a | .redmaxs _ s a | .amax _ s a => { rv := [a], ws := [s], lat := 8 }
  | .rdlane _ s a => { rv := [a], rs := [s], ws := [s], lat := 8 }
  | .scanadd _ d a | .scanfadd _ d a | .matchEq _ d a => { rv := [a], wv := [d], lat := 8 }
  | .shfl _ d a => { rv := [a, d], wv := [d], lat := 8 }
  | .elect _ s | .getmm _ s => { ws := [s], lat := 8 }
  | .setmm _ s => { rs := [s] }
  | .cmpI32 _ q _ a b | .cmpUi32 _ q _ a b | .cmpF32 _ q _ a b => { rv := [a, b], wp := [q], lat := 2 }
  | .mxRd _ _ _ _ i v => { rs := [i], wv := [v, v + 1], lat := 8 }
  | .mxWr _ _ _ _ i v => { rs := [i], rv := [v, v + 1], lat := 8 }
  | .movi _ d _ => { wv := [d], lat := 2 }
  | .addi _ d _ | .andi _ d _ | .ori _ d _ | .xori _ d _ | .shli _ d _ | .shri _ d _ | .srai _ d _ | .muli _ d _
  | .inshi _ d _ => { rv := [d], wv := [d], lat := 2 }
  | .sMov _ d a | .sNot _ d a | .sNeg _ d a | .sClz _ d a | .sPopc _ d a => { rs := [a], ws := [d], lat := 1 }
  | .sAdd _ d a | .sSub _ d a | .sMul _ d a | .sMulhu _ d a | .sAnd _ d a | .sOr _ d a | .sXor _ d a | .sShl _ d a
  | .sShr _ d a | .sSra _ d a | .sMin _ d a | .sMax _ d a | .sMinu _ d a | .sMaxu _ d a | .sSlt _ d a | .sSltu _ d a
  | .sSeq _ d a => useSc d a
  | .sAdd64 _ d a | .sSub64 _ d a => { rs := [d, d + 1, a, a + 1], ws := [d, d + 1], lat := 1 }
  | .sLea _ d a | .sLeas _ d a => { rs := [d, d + 1, a], ws := [d, d + 1], lat := 1 }
  | .sGetsr _ d _ | .sRdsys _ d _ => { ws := [d], lat := 1 }
  | .sSetsr _ d _ | .sWrsys _ d _ => { rs := [d] }
  | .sPset _ d q => { rs := [d], wp := [q], lat := 1 }
  | .sMovi _ d _ | .sLit _ d _ => { ws := [d], lat := 1 }
  | .sLit64 _ d _ _ => { ws := [d, d + 1], lat := 1 }
  | .sAddi _ d _ | .sAndi _ d _ | .sOri _ d _ | .sXori _ d _ | .sShli _ d _ | .sShri _ d _ | .sSrai _ d _
  | .sMuli _ d _ | .sSlti _ d _ => { rs := [d], ws := [d], lat := 1 }
  | .sAddi64 _ d _ => { rs := [d, d + 1], ws := [d, d + 1], lat := 1 }
  | .ld _ _ _ z a v => { rv := regs (2 * a) 2, wv := regs v (sizeRegs z), lat := 100 }
  | .st _ _ _ z a v => { rv := regs (2 * a) 2 ++ regs v (sizeRegs z) }
  | .lds _ _ z a v | .ldsBcast _ _ z a v => { rv := [a], wv := regs v (sizeRegs z), lat := 102 }
  | .sts _ _ z a v => { rv := a :: regs v (sizeRegs z) }
  | .atomAdd _ _ _ a d | .atomAnd _ _ _ a d | .atomOr _ _ _ a d | .atomXor _ _ _ a d | .atomSmin _ _ _ a d
  | .atomSmax _ _ _ a d | .atomUmin _ _ _ a d | .atomUmax _ _ _ a d | .atomExch _ _ _ a d | .atomFadd _ _ _ a d
  | .atomFmin _ _ _ a d | .atomFmax _ _ _ a d => { rv := d :: regs (2 * a) 2, wv := [d], lat := 103 }
  | .atomCas _ _ _ a d => { rv := regs d 2 ++ regs (2 * a) 2, wv := [d], lat := 103 }
  | .atomAdd64 _ _ _ a d | .atomExch64 _ _ _ a d => { rv := regs d 2 ++ regs (2 * a) 2, wv := regs d 2, lat := 103 }
  | .atomCas64 _ _ _ a d => { rv := regs d 4 ++ regs (2 * a) 2, wv := regs d 2, lat := 103 }
  | .sLdW _ _ d a | .sLdAcqW _ _ d a => { rs := regs a 2, ws := [d], lat := 105 }
  | .sLdD _ _ d a => { rs := regs a 2, ws := regs d 2, lat := 105 }
  | .sLdQ _ _ d a => { rs := regs a 2, ws := regs d 4, lat := 105 }
  | .sLdO _ _ d a => { rs := regs a 2, ws := regs d 8, lat := 105 }
  | .sStW _ _ d a | .sStRelW _ _ d a => { rs := d :: regs a 2 }
  | .sStD _ _ d a => { rs := regs d 2 ++ regs a 2 }
  | .sStQ _ _ d a => { rs := regs d 4 ++ regs a 2 }
  | .sAtomAdd _ _ d a => { rs := d :: regs a 2, ws := [d], lat := 105 }
  | .sAtomCas _ _ d a => { rs := regs d 2 ++ regs a 2, ws := [d], lat := 105 }
  | .call _ _ => { wv := [63], lat := 1 }
  | .callx _ a => { rv := [a], wv := [63], lat := 1 }
  | .ret _ => { rv := [63] }
  | .brx _ a | .pset _ a => { rv := [a] }
  | .srseed _ a => { rv := [a], lfsr := true }
  | .pmask _ y _ => { wp := [y], lat := 2 }
  | .bar _ y _ | .barArv _ y _ | .waitc _ y _ => { rs := [y] }
  | .sbInit _ y x | .sbWait _ y x | .recv _ y x | .send _ y x | .joinw _ y x | .tqPop _ y x | .scanRun _ y x
  | .scanRunAbort _ y x => { rs := [x, y] }
  | .sbArv _ x | .wqNext _ x | .ovtld _ x => { rs := [x] }
  | .sbTest _ y x => { rs := [x], ws := [y], lat := 102 }
  | .tlwait _ _ x => { rs := regs x 4 }
  | .tlread _ y x => { rs := [x], ws := regs y 2, lat := 1 }
  | .launch _ y x => { rs := regs x 2, ws := [y], lat := 105 }
  | .tagL _ d a | .tagE _ d a => { rv := [a], wv := [d], lat := 6 }
  | .tagI _ d a => { rv := [a, d], wv := [d], lat := 6 }
  | .pref _ x => { rv := regs x 2 }
  | .pchk _ y a => { rv := [a], wp := [y], lat := 2 }
  | .drain _ y x | .drainPreempt _ y x | .drainClear _ y x => { rs := [x], ws := [y], lat := 105 }
  | .scanSig _ y x => { rs := [x], ws := regs y 4, lat := 105 }
  | .cmapSet _ y x | .cmapSetRemove _ y x => { rs := [x, y], ws := [x + 1], lat := 105 }
  | .cpTensor _ y x => { rs := regs (2 * x) 24 ++ regs (2 * y) 15, ws := [2 * y + 15], lat := 1 }
  | .cpLin _ x => { rs := regs (2 * x) 7, ws := [2 * x + 7], lat := 1 }
  | .cpGather _ y x | .cpScatter _ y x => { rs := 2 * y :: regs (2 * x) 7, ws := [2 * x + 7], lat := 1 }
  | .cpFollow _ a x => { rv := [a], rs := regs (2 * x) 8, ws := [2 * x + 7], lat := 1 }
  | .cpCancel _ x | .mxApf _ x | .mxAinv _ x => { rs := [2 * x] }
  | .mxMma _ y a => { rv := [a], rs := regs (2 * y) 7, ws := [2 * y + 7], lat := 1 }
  | .mxZero _ y _ => { rs := [2 * y] }
  | .mxStraw _ y _ | .mxAddraw _ y _ => { rs := regs (2 * y) 2 }
  | .mxStat _ y _ => { ws := regs (2 * y) 4, lat := 1 }
  | .mxAqry _ y x => { rs := [2 * x], ws := [2 * y], lat := 1 }
  | .smCfg _ x | .smLdc _ x | .smLdb _ x | .smClamp _ x | .smInit _ x | .smSweep _ x | .smRead _ x | .smHlth _ x
  | .smBx _ x | .colRed _ x | .colBcast _ x | .colGath _ x => { rs := regs (2 * x) 7, ws := [2 * x + 7], lat := 1 }
  | .smKey _ y _ => { rs := regs (2 * y) 2, ws := [2 * y + 2], lat := 1 }
  | .cMov d a => { rv := [a], wv := [d], lat := 2 }
  | .cIadd d a | .cIsub d a | .cAnd d a | .cOr d a | .cXor d a | .cShl d a | .cShr d a | .cImul d a | .cSra d a =>
    { rv := [d, a], wv := [d], lat := 2 }
  | .cFadd d a | .cFmul d a | .cFsub d a | .cFmax d a | .cFmin d a => { rv := [d, a], wv := [d], lat := 4 }
  | _ => {}

/-- The overflow-table index of the destination of a conversion that may raise OVF, and of MX.RD (R147, R150, R292). -/
def ovfIndex : Instr → Option Nat
  | .cvtF32I32 _ _ _ _ | .cvtF32Ui32 _ _ _ _ | .mxRd _ _ _ _ _ _ => some 7
  | .cvtI32F32 _ _ _ _ => some 11
  | .cvtUi32F32 _ _ _ _ => some 12
  | .cvtBf16F32 _ _ _ _ => some 5
  | .cvtFp16F32 _ _ _ _ => some 6
  | .cvtE4m3F32 _ _ _ _ => some 3
  | .cvtE5m2F32 _ _ _ _ => some 4
  | .cvtE2m1F32 _ _ _ _ => some 10
  | _ => none

/-- The guard fields of an instruction with an encoding; a compact form is unguarded (R57). -/
def hdrOfCode : Code → Hdr
  | .parcel _ => .plain
  | .word w _ => hdrOf w

/-- The instructions of R51 and R55 that are privileged. S.RDSYS of numbers 0 to 7 is not (R34). -/
def privileged : Instr → Bool
  | .sRdsys _ _ a => decide (8 ≤ a)
  | .sWrsys _ _ _ | .recv _ _ _ | .send _ _ _ | .ovtld _ _ | .drain _ _ _ | .drainPreempt _ _ _ | .drainClear _ _ _
  | .scanRun _ _ _ | .scanRunAbort _ _ _ | .scanSig _ _ _ | .cmapSet _ _ _ | .cmapSetRemove _ _ _ | .tqPop _ _ _ => true
  | _ => false

/-- The ENG functions that the sampling arrays serve (R35). -/
def needsSampling : Instr → Bool
  | .smCfg _ _ | .smLdc _ _ | .smLdb _ _ | .smClamp _ _ | .smInit _ _ | .smKey _ _ _ | .smSweep _ _ | .smRead _ _
  | .smHlth _ _ | .smBx _ _ => true
  | _ => false

/-- A vector register of the group exists (R68). -/
def State.vExists (s : State) (g : Group) (r : Nat) : Bool :=
  decide (r = 63) || decide (r < (s.paramsOf g).vregs)

/-- A trap of the issuing instruction. -/
def State.mkTrap (s : State) (code sub : Nat) (tval : Word) (taddr : Nat := 0) : Trap :=
  { code := code, sub := sub, tval := tval, taddr := taddr, tpc := s.cur.tpc }

/-- ILLEGAL, PRIV and UNIT_ABSENT report the instruction word (R359). -/
def State.illegal (s : State) : Trap := s.mkTrap 0x01 0 (w32 s.cur.word)
def State.privTrap (s : State) : Trap := s.mkTrap 0x02 0 (w32 s.cur.word)
def State.unitAbsent (s : State) : Trap := s.mkTrap 0x03 0 (w32 s.cur.word)

/-- The assigned system register numbers (R71). -/
def sysAssigned (n : Nat) : Bool := decide (n ≤ 25 ∨ (32 ≤ n ∧ n ≤ 38) ∨ (48 ≤ n ∧ n ≤ 54) ∨ (64 ≤ n ∧ n ≤ 67))
/-- A privileged write names a reserved system register (R71, R118). DEDUCED, log entry 38. -/
def writesReserved (priv : Bool) : Instr → Bool
  | .sWrsys _ _ a => priv && !sysAssigned a
  | _ => false
/-- ILLEGAL by the words and the group's register count (R66 step 2, R68). -/
def State.wordIllegal (s : State) (i : Instr) : Bool :=
  let u := uses i
  (wfError i).isSome || !((u.rv ++ u.wv).all fun r => s.vExists s.cg r) || writesReserved s.cg.priv i

/-- The checks of R66 steps 2 to 4. -/
def State.wordTrap (s : State) (i : Instr) : Option Trap :=
  firstOf [(s.wordIllegal i, s.illegal), (privileged i && !s.cg.priv, s.privTrap),
    (needsSampling i && !s.hasSampling, s.unitAbsent)]

end Sys2Proof.Machine
end

