-- ==== Sys2Proof/Machine/Operands.lean ====
section
/-! DEFINITION. How an instruction of each class issues (02_encoding.md R42, R44, R66): the checks in their
order, the guard, the deaths and the group trap that poisoned operands cause (13_traps.md R377, R378), the
wait of an instruction that is not ready, and the advance of the split. -/

namespace Sys2Proof.Machine

open Sys2Proof

/-- Some split is issuing. -/
def State.hasIssuer (s : State) : Bool :=
  s.cur.valid && s.cg.here && s.cs.valid

/-- The issue begins: it has neither waited nor trapped yet. -/
def State.beginIssue (s : State) : State := { s with cur := { s.cur with issued := true, moved := false, trapped := false, completed := false } }

/-- Run a meaning for the issuing split. The only fault of the model is an issue without a split.
DEDUCED, log entry 23. -/
def perform (s : State) (f : State → State) : Host.Outcome State Fault Refusal :=
  if s.hasIssuer then .next (f s.beginIssue) else .fault .noIssuer

/-- An event of the machine always leaves a next state. -/
def event (s : State) : Host.Outcome State Fault Refusal := .next s

/-- The split continues at the next instruction. -/
def State.advance (s : State) : State :=
  s.updCS fun x => if x.valid then { x with offset := s.cur.next, waitOn := none } else x

/-- The instruction did not issue: its split waits (R89). -/
def State.wait (s : State) : State := { s with cur := { s.cur with issued := false } }

/-- It waits, and its wait has begun something. -/
def State.waitFor (s : State) (w : Wait) : State :=
  (s.updCS fun x => { x with waitOn := some w }).wait |> fun t => { t with cur := { t.cur with moved := true } }

/-- Take a trap of the issuing group. -/
def State.trapCur (s : State) (t : Trap) : State := s.trap s.cur.gid t
/-- A wait that has completed raises a recorded engine trap (R108, R235, R358): its split stands at it, with AGE 0. -/
def State.raiseRecorded (s : State) (t : Trap) : State :=
  let u := s.updCS fun y => { y with waitOn := none, age := 0 }
  { u with cur := { u.cur with completed := true } }.trapCur { t with tpc := s.cur.tpc }

/-- Lanes of a set die (R377), lowest first. -/
def State.killLanes (s : State) (m : LaneMask) : State := forLanes m s fun t l => t.killLane t.cur.gid l

/-- Lanes that read a poisoned guard predicate die (R377). -/
def State.guardDeaths (s : State) (h : Hdr) (m : LaneMask) : State :=
  if h.ge then s.killLanes (maskOf fun l => inMask m l && s.pp h.gp l) else s

/-- A poisoned scalar register among some (R378): of several, which one is free. DESIGN CHOICE, log entry 104. -/
def State.poisonedScalar (s : State) (rs : List Nat) : Option Nat :=
  match rs.filter s.sp with
  | [] => none
  | [r] => some r
  | r :: l => some ((r :: l).getD (Config.whichPoison s.cycle s.cur.gid % (l.length + 1)) r)

/-- POISON for a poisoned scalar operand. -/
def State.poisonTrap (s : State) (r : Nat) : Trap := s.mkTrap 0x0D 0 (w32 r)

/-- The group still runs after deaths and traps of this issue. -/
def State.goesOn (s : State) : Bool := s.cg.here && !s.cur.trapped && s.cs.valid

/-- Continue if the group still runs. -/
def State.thenIf (s : State) (f : State → State) : State := if s.goesOn then f s else s

/-- The traps of a lane-class instruction's operands in one plane issue: poisoned scalars, then its own
checks (R66 step 7), before the first plane issue. Nothing is read when no lane is active (R378). -/
def State.laneTrap (s : State) (i : Instr) (h : Hdr) (check : State → Option Trap) : Option Trap :=
  if s.cur.checked ∨ s.laneActive h = 0#32 then none
  else match s.poisonedScalar (uses i).rs with
    | some r => some (s.poisonTrap r)
    | none => check s

/-- The active lanes of a plane issue with poison in one of some vector registers. -/
def State.poisonedLanes (s : State) (h : Hdr) (rs : List Nat) : LaneMask :=
  maskOf fun l => inMask (s.laneActive h) l && rs.any fun r => s.vp r l

/-- One plane issue of a lane-class instruction (R156). `doomed` are the lanes whose address is poisoned: they die
before the access (R198, R377). A trap or a wait leaves those lanes as they were, since nothing has issued. -/
def laneMem (i : Instr) (h : Hdr) (doomed : State → LaneMask) (check : State → Option Trap) (ready : State → Bool)
    (act : State → State) (s : State) : State :=
  match s.wordTrap i with
  | some t => s.trapCur t
  | none =>
    let s1 := s.guardDeaths h (s.liveS &&& s.cur.lanes &&& s.cg.mmask)
    if ¬ s1.goesOn then s1
    else
      let s2 := s1.killLanes (doomed s1)
      if ¬ s2.goesOn then s2
      else match s2.laneTrap i h check with
        | some t => s.trapCur t
        | none => if ready s2 then s2.advance |> act else s.wait

/-- A lane-class instruction that accesses no memory. -/
def laneInstr (i : Instr) (h : Hdr) (check : State → Option Trap) (act : State → State) (s : State) : State :=
  laneMem i h (fun _ => 0#32) check (fun _ => true) act s

/-- A lane-class instruction without operand checks. -/
def laneOnly (i : Instr) (h : Hdr) (act : State → State) (s : State) : State := laneInstr i h (fun _ => none) act s

/-- A scalar-class instruction, or a control-class one that follows its rule: its checks and what it does happen
only where the guard holds (R42). `act` is given the state before any death of this issue and the state
after them; it advances or waits itself. -/
def scalarCore (i : Instr) (h : Hdr) (check : State → Option Trap) (act : State → State → State) (s : State) :
    State :=
  match s.wordTrap i with
  | some t => s.trapCur t
  | none =>
    let s1 := s.guardDeaths h (s.liveS &&& s.cg.mmask)
    if ¬ s1.goesOn then s1
    else if ¬ s1.scalarGuard h then s1.advance
    else match s1.poisonedScalar (uses i).rs with
      | some r => s.trapCur (s1.poisonTrap r)
      | none =>
        match check s1 with
        | some t => s.trapCur t
        | none => act s s1

/-- A scalar-class instruction that waits until it is ready, advances and then has its effect. -/
def scalarInstr (i : Instr) (h : Hdr) (check : State → Option Trap) (ready : State → Bool) (act : State → State) :
    State → State :=
  scalarCore i h check fun s s1 => if ready s1 then s1.advance |> act else s.wait

/-- A scalar-class instruction that neither waits nor checks operands. -/
def scalarOnly (i : Instr) (h : Hdr) (act : State → State) (s : State) : State :=
  scalarInstr i h (fun _ => none) (fun _ => true) act s

/-- The lanes that a control-class instruction acts in: those of Live(S) that pass the guard (R42, R86). -/
def State.ctlLanes (s : State) (h : Hdr) : LaneMask := s.passGuard h s.liveS

/-- A control-class instruction that acts in each lane of a set passing its guard. `doomed` are the lanes that use a
poisoned value as an address, a target, a plane or an arm predicate: they die (R377). -/
def ctlInstr (i : Instr) (h : Hdr) (named : State → LaneMask) (doomed : State → LaneMask) (check : State → Option Trap)
    (act : State → State) (s : State) : State :=
  match s.wordTrap i with
  | some t => s.trapCur t
  | none =>
    let s1 := s.guardDeaths h (named s)
    if ¬ s1.goesOn then s1
    else
      let s2 := s1.killLanes (doomed s1)
      if ¬ s2.goesOn then s2
      else match check s2 with
        | some t => s.trapCur t
        | none => act s2

/-- No lane of the instruction can be doomed. -/
def noLane (_ : State) : LaneMask := 0#32
/-- The lanes passing the guard whose register is poisoned. -/
def State.ctlPoison (h : Hdr) (r : Nat) (s : State) : LaneMask :=
  maskOf fun l => inMask (s.ctlLanes h) l && s.vp r l
/-- The lanes of Live(S) in the member mask. -/
def State.liveNamed (s : State) : LaneMask := s.liveS &&& s.cg.mmask

/-! ### In-flight accesses (R196) -/

/-- Count an access on a path of the issuing group. -/
def State.push (s : State) (a : Access) : State :=
  s.updCG fun g =>
    let n := g.accs.get a.path + 1
    { g with inflight := g.inflight ++ [{ a with seq := n }], accs := g.accs.put a.path n }
/-- How many accesses a group counts on a path. -/
def Group.count (g : Group) (path : Nat) : Nat := (g.inflight.filter fun a => decide (a.path = path)).length
/-- The path has room for n more (R196: 6 bits). -/
def Group.room (g : Group) (path n : Nat) : Bool := decide (g.count path + n ≤ 63)

/-- INFLIGHT (R70): paths 0 to 4, 6 bits each. -/
def Group.inflightWord (g : Group) : Word :=
  w32 ((List.range 5).foldl (fun a k => a + g.count k * 64 ^ k) 0)

end Sys2Proof.Machine
end

