-- ==== Sys2Proof/Machine/Flags.lean ====
section
/-! DEFINITION. The sticky bits of XSTAT (02_encoding.md R70, 05_numbers.md R148, 09_sluices.md R259,
14_fabric.md R407) and the overflow table (05_numbers.md R144-R148). -/

namespace Sys2Proof.Machine

open Sys2Proof

/-- The bits of XSTAT. -/
def xAbsent : Nat := 0
def cvtSat : Nat := 1
def cvtNan : Nat := 2
def plSat : Nat := 3
def mirLost : Nat := 4

/-- Set sticky bits of the issuing group's XSTAT. -/
def State.stick (s : State) (bs : List Nat) : State :=
  s.updCG fun g => { g with xstat := bs.foldl (fun x b => x ||| BitVec.ofNat 32 (2 ^ b)) g.xstat }

/-- The action of the overflow table for a destination index (R144). -/
def ovfAction (table : Word) (index : Nat) : Nat := bits table.toNat (2 * index + 1) (2 * index)

/-- What a conversion gives: the destination's code, the XSTAT bits it sets, and whether it raises OVF. -/
structure Conv where
  code : Nat := 0
  stick : List Nat := []
  ovf : Bool := false
  deriving DecidableEq, Repr, Inhabited

/-- A value beyond the range of a float destination (R144, R148). -/
def beyondFloat (f : Fmt) (table : Word) (index : Nat) (neg : Bool) : Conv :=
  match ovfAction table index with
  | 0 => { code := f.maxCode neg, stick := [cvtSat] }
  | 1 =>
    { code := if f.hasInf then f.infCode neg else if f.hasNan then f.nan else f.maxCode neg, stick := [cvtSat] }
  | 2 => { code := f.nan, stick := [cvtNan] }
  | _ => { ovf := true }

/-- The codes of the ends of an integer range: I32 (11) and UI32 (12). -/
def intEnd (index : Nat) (neg : Bool) : Nat :=
  if index = 11 then (if neg then 0x80000000 else 0x7FFFFFFF) else (if neg then 0 else 0xFFFFFFFF)

/-- A value beyond the range of an integer destination (R144, R148). -/
def beyondInt (table : Word) (index : Nat) (neg : Bool) : Conv :=
  match ovfAction table index with
  | 0 | 1 => { code := intEnd index neg, stick := [cvtSat] }
  | 2 => { code := if index = 11 then 0x80000000 else 0, stick := [cvtNan] }
  | _ => { ovf := true }

/-- A NaN, or an out-of-range element, into an integer destination (R144, R145, R148). -/
def nanInt (table : Word) (index : Nat) : Conv :=
  match ovfAction table index with
  | 0 | 1 => { code := 0, stick := [cvtNan] }
  | 2 => { code := if index = 11 then 0x80000000 else 0, stick := [cvtNan] }
  | _ => { ovf := true }

/-- An infinite source (R146, R148): the infinity where the format has one, else a value beyond the range. -/
def infConv (f : Option Fmt) (table : Word) (index : Nat) (neg : Bool) : Conv :=
  let c := match f with
    | some f => beyondFloat f table index neg
    | none => beyondInt table index neg
  match f with
  | some f => if f.hasInf then { code := f.infCode neg }
      else { c with stick := if ovfAction table index ≤ 1 then [cvtSat, cvtNan] else c.stick }
  | none => { c with stick := if ovfAction table index ≤ 1 then [cvtSat, cvtNan] else c.stick }

/-- Convert a value into a float format (R140, R144, R146). -/
def toFloat (f : Fmt) (table : Word) (index : Nat) (rm : Rm) : FV → Conv
  | .nan => if f.hasNan then { code := f.nan } else { code := 0, stick := [cvtNan] }
  | .inf neg => infConv (some f) table index neg
  | .fin neg m e =>
    let r := f.round rm neg m e
    if r.beyond then beyondFloat f table index neg else { code := f.code r }

/-- Convert a value into I32 (index 11) or UI32 (index 12). -/
def toInt (table : Word) (index : Nat) (rm : Rm) : FV → Conv
  | .nan => nanInt table index
  | .inf neg => infConv none table index neg
  | .fin neg m e =>
    let n := roundInt rm neg m e
    if (index = 11 ∧ (n < -2 ^ 31 ∨ 2 ^ 31 ≤ n)) ∨ (index = 12 ∧ (n < 0 ∨ 2 ^ 32 ≤ n)) then beyondInt table index neg
    else { code := wrap 32 n }

end Sys2Proof.Machine
end

