-- ==== Sys2Proof/Machine/LaneInt.lean ====
section
/-! DEFINITION. Integer, logic, predicate, compare and immediate instructions of the lanes and their compact
forms (02_encoding.md R57, 06_lane.md R156, R160-R163, R170, R171). -/

namespace Sys2Proof.Machine

open Sys2Proof

/-- Write a vector register in each lane of this plane issue: the value and the poison mark are computed
from the state before any lane is written (R156, R181). -/
def laneWrite (h : Hdr) (d : Nat) (f : State → Nat → Word) (po : State → Nat → Bool) (s : State) : State :=
  forLanes (s.laneActive h) s fun t l => t.setV d l (f s l) (po s l)
/-- Write a predicate in each lane of this plane issue. -/
def laneWriteP (h : Hdr) (d : Nat) (f po : State → Nat → Bool) (s : State) : State :=
  forLanes (s.laneActive h) s fun t l => t.setP d l (f s l) (po s l)

/-- vd := f(va, vb). -/
def lane3 (i : Instr) (h : Hdr) (d a b : Nat) (f : Word → Word → Word) : State → State :=
  laneOnly i h (laneWrite h d (fun s l => f (s.v a l) (s.v b l)) fun s l => s.vp a l || s.vp b l)
/-- vd := f(va, vb, vd). -/
def lane3d (i : Instr) (h : Hdr) (d a b : Nat) (f : Word → Word → Word → Word) : State → State :=
  laneOnly i h (laneWrite h d (fun s l => f (s.v a l) (s.v b l) (s.v d l))
    fun s l => s.vp a l || s.vp b l || s.vp d l)
/-- vd := f(vd, va). -/
def lane2 (i : Instr) (h : Hdr) (d a : Nat) (f : Word → Word → Word) : State → State := lane3 i h d d a f
/-- vd := f(va). -/
def lane1 (i : Instr) (h : Hdr) (d a : Nat) (f : Word → Word) : State → State :=
  laneOnly i h (laneWrite h d (fun s l => f (s.v a l)) fun s l => s.vp a l)
/-- p[d] := f(p[d], p[b]) (R163). -/
def laneP2 (i : Instr) (h : Hdr) (q b : Nat) (f : Bool → Bool → Bool) : State → State :=
  laneOnly i h (laneWriteP h q (fun s l => f (s.p q l) (s.p b l)) fun s l => s.pp q l || s.pp b l)
/-- p[d] := f(p[b]). -/
def laneP1 (i : Instr) (h : Hdr) (q b : Nat) (f : Bool → Bool) : State → State :=
  laneOnly i h (laneWriteP h q (fun s l => f (s.p b l)) fun s l => s.pp b l)
/-- p[d] := Rel(va, vb) (R170). -/
def laneCmp (i : Instr) (h : Hdr) (q a b : Nat) (rel : Word → Word → Bool) : State → State :=
  laneOnly i h (laneWriteP h q (fun s l => rel (s.v a l) (s.v b l)) fun s l => s.vp a l || s.vp b l)
/-- vd := f(vd) with the immediate (R171). -/
def laneImm (i : Instr) (h : Hdr) (d : Nat) (f : Word → Word) : State → State := lane1 i h d d f

/-- A compact form (R57): the checks and the effect of its equivalent, where its words are allowed (R61). -/
def compact (bad : Prop) [Decidable bad] (a : Nat) (f : State → State) (s : State) : State :=
  if bad ∨ 32 ≤ a then s.trapCur s.illegal else f s

/-! ### The functions -/

/-- x × 2^n, 0 when n is 32 or more (R112, R162). -/
def shl (x n : Word) : Word := if n.toNat < 32 then x <<< n.toNat else 0#32
/-- Floor(x / 2^n) unsigned, 0 when n is 32 or more. -/
def shr (x n : Word) : Word := if n.toNat < 32 then x >>> n.toNat else 0#32
/-- Floor(signed x / 2^min(n, 31)). -/
def sra (x n : Word) : Word := wrap32 (floorShift (sgn x) (min n.toNat 31))
/-- The high word of the signed product. -/
def mulhs (x y : Word) : Word := wrap32 (floorShift (sgn x * sgn y) 32)
/-- The high word of the unsigned product. -/
def mulhu (x y : Word) : Word := w32 (x.toNat * y.toNat / 2 ^ 32)
def mins (x y : Word) : Word := if sgn y < sgn x then y else x
def maxs (x y : Word) : Word := if sgn x < sgn y then y else x
def minu (x y : Word) : Word := if y.toNat < x.toNat then y else x
def maxu (x y : Word) : Word := if x.toNat < y.toNat then y else x
/-- The magnitude of a signed word, wrapped (R162). -/
def absw (x : Word) : Word := wrap32 (sgn x).natAbs

/-- A relation (R50): 0 EQ, 1 NE, 2 LT, 3 LE. -/
def relOf (r : Nat) (eq lt : Bool) : Bool :=
  match r with
  | 0 => eq
  | 1 => !eq
  | 2 => lt
  | _ => lt || eq
/-- The signed relation. -/
def relS (r : Nat) (x y : Word) : Bool := relOf r (decide (x = y)) (decide (sgn x < sgn y))
/-- The unsigned relation. -/
def relU (r : Nat) (x y : Word) : Bool := relOf r (decide (x = y)) (decide (x.toNat < y.toNat))
/-- The FP32 relation (R170): with a NaN, only NE holds. -/
def relF (r : Nat) (x y : Word) : Bool := relOf r ((fv x).eqv (fv y)) ((fv x).lt (fv y))

/-- SignExt(imm8, 8) as a word (R171). -/
def se8 (m : Nat) : Word := wrap32 (sext 8 m)

/-! ### The meanings -/

/-- IADD (R161): Wrap32(va + vb). -/
def execIadd (h : Hdr) (d a b : Nat) (s : State) : Host.Outcome State Fault Refusal :=
  perform s (lane3 (.iadd h d a b) h d a b (fun x y => x + y))

/-- ISUB (R161): Wrap32(va - vb). -/
def execIsub (h : Hdr) (d a b : Nat) (s : State) : Host.Outcome State Fault Refusal :=
  perform s (lane3 (.isub h d a b) h d a b (fun x y => x - y))

/-- AND (R161). -/
def execAnd (h : Hdr) (d a b : Nat) (s : State) : Host.Outcome State Fault Refusal :=
  perform s (lane3 (.and h d a b) h d a b (fun x y => x &&& y))

/-- OR (R161). -/
def execOr (h : Hdr) (d a b : Nat) (s : State) : Host.Outcome State Fault Refusal :=
  perform s (lane3 (.or h d a b) h d a b (fun x y => x ||| y))

/-- IMAD (R161): the low word of va × vb + vd. -/
def execImad (h : Hdr) (d a b : Nat) (s : State) : Host.Outcome State Fault Refusal :=
  perform s (lane3d (.imad h d a b) h d a b (fun x y z => x * y + z))

/-- XOR (R162). -/
def execXor (h : Hdr) (d a : Nat) (s : State) : Host.Outcome State Fault Refusal :=
  perform s (lane2 (.xor h d a) h d a (fun x y => x ^^^ y))

/-- SHL (R162). -/
def execShl (h : Hdr) (d a : Nat) (s : State) : Host.Outcome State Fault Refusal :=
  perform s (lane2 (.shl h d a) h d a (shl))

/-- SHR (R162). -/
def execShr (h : Hdr) (d a : Nat) (s : State) : Host.Outcome State Fault Refusal :=
  perform s (lane2 (.shr h d a) h d a (shr))

/-- SRA (R162). -/
def execSra (h : Hdr) (d a : Nat) (s : State) : Host.Outcome State Fault Refusal :=
  perform s (lane2 (.sra h d a) h d a (sra))

/-- MUL (R162). -/
def execMul (h : Hdr) (d a : Nat) (s : State) : Host.Outcome State Fault Refusal :=
  perform s (lane2 (.mul h d a) h d a (fun x y => x * y))

/-- MULHS (R162). -/
def execMulhs (h : Hdr) (d a : Nat) (s : State) : Host.Outcome State Fault Refusal :=
  perform s (lane2 (.mulhs h d a) h d a (mulhs))

/-- MULHU (R162). -/
def execMulhu (h : Hdr) (d a : Nat) (s : State) : Host.Outcome State Fault Refusal :=
  perform s (lane2 (.mulhu h d a) h d a (mulhu))

/-- MINS (R162). -/
def execMins (h : Hdr) (d a : Nat) (s : State) : Host.Outcome State Fault Refusal :=
  perform s (lane2 (.mins h d a) h d a (mins))

/-- MAXS (R162). -/
def execMaxs (h : Hdr) (d a : Nat) (s : State) : Host.Outcome State Fault Refusal :=
  perform s (lane2 (.maxs h d a) h d a (maxs))

/-- MINU (R162). -/
def execMinu (h : Hdr) (d a : Nat) (s : State) : Host.Outcome State Fault Refusal :=
  perform s (lane2 (.minu h d a) h d a (minu))

/-- MAXU (R162). -/
def execMaxu (h : Hdr) (d a : Nat) (s : State) : Host.Outcome State Fault Refusal :=
  perform s (lane2 (.maxu h d a) h d a (maxu))

/-- ANDN (R162). -/
def execAndn (h : Hdr) (d a : Nat) (s : State) : Host.Outcome State Fault Refusal :=
  perform s (lane2 (.andn h d a) h d a (fun x y => x &&& ~~~ y))

/-- NOT (R162). -/
def execNot (h : Hdr) (d a : Nat) (s : State) : Host.Outcome State Fault Refusal :=
  perform s (lane1 (.not h d a) h d a (fun x => ~~~ x))

/-- NEG (R162). -/
def execNeg (h : Hdr) (d a : Nat) (s : State) : Host.Outcome State Fault Refusal :=
  perform s (lane1 (.neg h d a) h d a (fun x => - x))

/-- ABS (R162). -/
def execAbs (h : Hdr) (d a : Nat) (s : State) : Host.Outcome State Fault Refusal :=
  perform s (lane1 (.abs h d a) h d a (absw))

/-- CLZ (R162). -/
def execClz (h : Hdr) (d a : Nat) (s : State) : Host.Outcome State Fault Refusal :=
  perform s (lane1 (.clz h d a) h d a (fun x => w32 (clz32 x)))

/-- POPC (R162). -/
def execPopc (h : Hdr) (d a : Nat) (s : State) : Host.Outcome State Fault Refusal :=
  perform s (lane1 (.popc h d a) h d a (fun x => w32 (popCount 32 x.toNat)))

/-- BREV (R162). -/
def execBrev (h : Hdr) (d a : Nat) (s : State) : Host.Outcome State Fault Refusal :=
  perform s (lane1 (.brev h d a) h d a (fun x => w32 (bitRev 32 x.toNat 0)))

/-- MOV (R162). -/
def execMov (h : Hdr) (d a : Nat) (s : State) : Host.Outcome State Fault Refusal :=
  perform s (lane1 (.mov h d a) h d a (fun x => x))

/-- BCAST (R163): vd := s[B]. -/
def execBcast (h : Hdr) (d s' : Nat) (s : State) : Host.Outcome State Fault Refusal :=
  perform s (laneOnly (.bcast h d s') h (laneWrite h d (fun t _ => t.s s') fun _ _ => false))

/-- LANE (R163): the lane's index. -/
def execLane (h : Hdr) (d : Nat) (s : State) : Host.Outcome State Fault Refusal :=
  perform s (laneOnly (.lane h d) h (laneWrite h d (fun _ l => w32 l) fun _ _ => false))

/-- PSETV (R163, R377). -/
def execPsetv (h : Hdr) (q a : Nat) (s : State) : Host.Outcome State Fault Refusal :=
  perform s (laneOnly (.psetv h q a) h (laneWriteP h q (fun t l => decide (t.v a l ≠ 0#32)) fun t l => t.vp a l))

/-- PGETV (R163). -/
def execPgetv (h : Hdr) (d b : Nat) (s : State) : Host.Outcome State Fault Refusal :=
  perform s (laneOnly (.pgetv h d b) h (laneWrite h d (fun t l => ofBool (t.p b l)) fun t l => t.pp b l))

/-- PAND (R163). -/
def execPand (h : Hdr) (q b : Nat) (s : State) : Host.Outcome State Fault Refusal :=
  perform s (laneP2 (.pand h q b) h q b (fun x y => x && y))

/-- POR (R163). -/
def execPor (h : Hdr) (q b : Nat) (s : State) : Host.Outcome State Fault Refusal :=
  perform s (laneP2 (.por h q b) h q b (fun x y => x || y))

/-- PXOR (R163). -/
def execPxor (h : Hdr) (q b : Nat) (s : State) : Host.Outcome State Fault Refusal :=
  perform s (laneP2 (.pxor h q b) h q b (fun x y => x != y))

/-- PNOT (R163). -/
def execPnot (h : Hdr) (q b : Nat) (s : State) : Host.Outcome State Fault Refusal :=
  perform s (laneP1 (.pnot h q b) h q b (fun x => !x))

/-- PMOV (R163). -/
def execPmov (h : Hdr) (q b : Nat) (s : State) : Host.Outcome State Fault Refusal :=
  perform s (laneP1 (.pmov h q b) h q b (fun x => x))

/-- CMP.I32 (R170). -/
def execCmpI32 (h : Hdr) (q r a b : Nat) (s : State) : Host.Outcome State Fault Refusal :=
  perform s (laneCmp (.cmpI32 h q r a b) h q a b (relS r))

/-- CMP.UI32 (R170). -/
def execCmpUi32 (h : Hdr) (q r a b : Nat) (s : State) : Host.Outcome State Fault Refusal :=
  perform s (laneCmp (.cmpUi32 h q r a b) h q a b (relU r))

/-- CMP.F32 (R170). -/
def execCmpF32 (h : Hdr) (q r a b : Nat) (s : State) : Host.Outcome State Fault Refusal :=
  perform s (laneCmp (.cmpF32 h q r a b) h q a b (relF r))

/-- MOVI (R171). -/
def execMovi (h : Hdr) (d m : Nat) (s : State) : Host.Outcome State Fault Refusal :=
  perform s (laneOnly (.movi h d m) h (laneWrite h d (fun _ _ => se8 m) fun _ _ => false))

/-- ADDI (R171). -/
def execAddi (h : Hdr) (d m : Nat) (s : State) : Host.Outcome State Fault Refusal :=
  perform s (laneImm (.addi h d m) h d (fun x => x + se8 m))

/-- ANDI (R171). -/
def execAndi (h : Hdr) (d m : Nat) (s : State) : Host.Outcome State Fault Refusal :=
  perform s (laneImm (.andi h d m) h d (fun x => x &&& w32 m))

/-- ORI (R171). -/
def execOri (h : Hdr) (d m : Nat) (s : State) : Host.Outcome State Fault Refusal :=
  perform s (laneImm (.ori h d m) h d (fun x => x ||| w32 m))

/-- XORI (R171). -/
def execXori (h : Hdr) (d m : Nat) (s : State) : Host.Outcome State Fault Refusal :=
  perform s (laneImm (.xori h d m) h d (fun x => x ^^^ w32 m))

/-- SHLI (R171). -/
def execShli (h : Hdr) (d m : Nat) (s : State) : Host.Outcome State Fault Refusal :=
  perform s (laneImm (.shli h d m) h d (fun x => shl x (w32 m)))

/-- SHRI (R171). -/
def execShri (h : Hdr) (d m : Nat) (s : State) : Host.Outcome State Fault Refusal :=
  perform s (laneImm (.shri h d m) h d (fun x => shr x (w32 m)))

/-- SRAI (R171). -/
def execSrai (h : Hdr) (d m : Nat) (s : State) : Host.Outcome State Fault Refusal :=
  perform s (laneImm (.srai h d m) h d (fun x => sra x (w32 m)))

/-- MULI (R171). -/
def execMuli (h : Hdr) (d m : Nat) (s : State) : Host.Outcome State Fault Refusal :=
  perform s (laneImm (.muli h d m) h d (fun x => x * se8 m))

/-- INSHI (R171). -/
def execInshi (h : Hdr) (d m : Nat) (s : State) : Host.Outcome State Fault Refusal :=
  perform s (laneImm (.inshi h d m) h d (fun x => x * 256#32 ||| w32 m))

/-- C.IADD (R57): IADD on vd and va. -/
def execCIadd (d a : Nat) (s : State) : Host.Outcome State Fault Refusal :=
  perform s (compact False a (lane2 (.iadd .plain d d a) .plain d a (fun x y => x + y)))

/-- C.ISUB (R57): ISUB on vd and va. -/
def execCIsub (d a : Nat) (s : State) : Host.Outcome State Fault Refusal :=
  perform s (compact False a (lane2 (.isub .plain d d a) .plain d a (fun x y => x - y)))

/-- C.AND (R57): AND on vd and va. -/
def execCAnd (d a : Nat) (s : State) : Host.Outcome State Fault Refusal :=
  perform s (compact False a (lane2 (.and .plain d d a) .plain d a (fun x y => x &&& y)))

/-- C.OR (R57): OR on vd and va. -/
def execCOr (d a : Nat) (s : State) : Host.Outcome State Fault Refusal :=
  perform s (compact False a (lane2 (.or .plain d d a) .plain d a (fun x y => x ||| y)))

/-- C.XOR (R57): XOR on vd and va. -/
def execCXor (d a : Nat) (s : State) : Host.Outcome State Fault Refusal :=
  perform s (compact False a (lane2 (.xor .plain d a) .plain d a (fun x y => x ^^^ y)))

/-- C.SHL (R57): SHL on vd and va. -/
def execCShl (d a : Nat) (s : State) : Host.Outcome State Fault Refusal :=
  perform s (compact False a (lane2 (.shl .plain d a) .plain d a (shl)))

/-- C.SHR (R57): SHR on vd and va. -/
def execCShr (d a : Nat) (s : State) : Host.Outcome State Fault Refusal :=
  perform s (compact False a (lane2 (.shr .plain d a) .plain d a (shr)))

/-- C.IMUL (R57): MUL on vd and va. -/
def execCImul (d a : Nat) (s : State) : Host.Outcome State Fault Refusal :=
  perform s (compact False a (lane2 (.mul .plain d a) .plain d a (fun x y => x * y)))

/-- C.SRA (R57): SRA on vd and va. -/
def execCSra (d a : Nat) (s : State) : Host.Outcome State Fault Refusal :=
  perform s (compact False a (lane2 (.sra .plain d a) .plain d a (sra)))

/-- C.MOV (R57). -/
def execCMov (d a : Nat) (s : State) : Host.Outcome State Fault Refusal :=
  perform s (compact (d = 0 ∧ a = 0) a (lane1 (.mov .plain d a) .plain d a (fun x => x)))

/-- C.NOP (R58). -/
def execCNop (s : State) : Host.Outcome State Fault Refusal :=
  perform s (laneOnly .cNop .plain (fun t => t))

end Sys2Proof.Machine
end

