-- ==== Sys2Proof/Machine/Trans.lean ====
section
/-! DEFINITION. The special functions of the lanes, correctly rounded (06_lane.md R166, R167), and the
probability table of the sampling arrays (11_sampling.md R302). A transcendental value is bracketed in
fixed point with a growing number of bits until both ends round to the same result; exact and
degenerate arguments are answered apart. -/

namespace Sys2Proof.Machine

open Sys2Proof

/-- The integer square root, bit by bit from bit k (with candidate r). -/
def isqrtFrom : Nat → Nat → Nat → Nat
  | 0, n, r => if (r + 1) * (r + 1) ≤ n then r + 1 else r
  | k + 1, n, r => isqrtFrom k n (if (r + 2 ^ (k + 1)) * (r + 2 ^ (k + 1)) ≤ n then r + 2 ^ (k + 1) else r)
/-- Floor(√n) for n below 2^256. -/
def isqrt (n : Nat) : Nat := isqrtFrom 127 n 0

/-- 1/x (R167). -/
def rcp32 : FV → Word
  | .nan => nan32
  | .inf n => zero32 n
  | .fin n m e =>
    if m = 0 then inf32 n else f32 .rne n (2 ^ 80 / m) (-80 - e) (decide (2 ^ 80 % m ≠ 0))

/-- √x (R167). -/
def sqrt32 : FV → Word
  | .nan => nan32
  | .inf n => if n then nan32 else inf32 false
  | .fin n m e =>
    if m = 0 then zero32 n
    else if n then nan32
    else
      let (m', e') := if e % 2 = 0 then (m, e) else (2 * m, e - 1)
      let r := isqrt (m' * 2 ^ 80)
      f32 .rne false r (e' / 2 - 40) (decide (r * r ≠ m' * 2 ^ 80))

/-- 1/√x (R167). -/
def rsq32 : FV → Word
  | .nan => nan32
  | .inf n => if n then nan32 else 0#32
  | .fin n m e =>
    if m = 0 then inf32 n
    else if n then nan32
    else
      let (m', e') := if e % 2 = 0 then (m, e) else (2 * m, e - 1)
      let r := isqrt (2 ^ 160 / m')
      f32 .rne false r (-80 - e' / 2) (decide (r * r * m' ≠ 2 ^ 160))

/-! ### Fixed point with p fractional bits -/

/-- Σ t^k / k! from the term `term` of index k, while fuel lasts and the term is not 0. -/
def expSum (p t : Nat) : Nat → Nat → Nat → Nat → Nat
  | 0, _, _, acc => acc
  | f + 1, k, term, acc => if term = 0 then acc else expSum p t f (k + 1) (term * t / 2 ^ p / k) (acc + term)
/-- e^t for 0 ≤ t < 2. -/
def expFix (p t : Nat) : Nat := expSum p t (p + 64) 1 (2 ^ p) 0

/-- Σ z^(2k+1) / (2k+1) over odd powers, with sign s for alternation. -/
def atanSum (p zz : Nat) (alt : Bool) : Nat → Nat → Nat → Int → Int
  | 0, _, _, acc => acc
  | f + 1, k, pow, acc =>
    if pow = 0 then acc
    else
      let t : Int := (pow / (2 * k + 1) : Nat)
      atanSum p zz alt f (k + 1) (pow * zz / 2 ^ p) (if alt && decide (k % 2 = 1) then acc - t else acc + t)
/-- atanh z for 0 ≤ z < 1/2. -/
def atanhFix (p z : Nat) : Nat := (atanSum p (z * z / 2 ^ p) false (p + 64) 0 z 0).toNat
/-- atan z for 0 ≤ z < 1/2. -/
def atanFix (p z : Nat) : Nat := (atanSum p (z * z / 2 ^ p) true (p + 64) 0 z 0).toNat
/-- ln 2. -/
def ln2Fix (p : Nat) : Nat := 2 * atanhFix p (2 ^ p / 3)
/-- π, by Machin's formula. -/
def piFix (p : Nat) : Nat := 16 * atanFix p (2 ^ p / 5) - 4 * atanFix p (2 ^ p / 239)

/-- Σ (-1)^k t^(2k+o) / (2k+o)! from a term: sine with o = 1, cosine with o = 0. -/
def trigSum (p tt : Nat) : Nat → Nat → Nat → Bool → Int → Int
  | 0, _, _, _, acc => acc
  | f + 1, n, term, minus, acc =>
    if term = 0 then acc
    else
      trigSum p tt f (n + 2) (term * tt / 2 ^ p / ((n + 1) * (n + 2))) (!minus)
        (if minus then acc - (term : Int) else acc + term)
/-- sin t for 0 ≤ t < 2. -/
def sinFix (p t : Nat) : Nat := (trigSum p (t * t / 2 ^ p) (p + 64) 1 t false 0).toNat
/-- cos t for 0 ≤ t < 2. -/
def cosFix (p t : Nat) : Nat := (trigSum p (t * t / 2 ^ p) (p + 64) 0 (2 ^ p) false 0).toNat

/-- e^(-t) for t ≥ 0 with p bits: t is cut at a multiple of ln 2. -/
def expNegFix (p t : Nat) : Nat :=
  let l := ln2Fix p
  let k := t / l
  let r := t % l
  2 ^ p * 2 ^ p / expFix p r / 2 ^ k

/-- m × 2^e as fixed point, rounded down. -/
def toFix (p m : Nat) (e : Int) : Nat :=
  if 0 ≤ e + p then m * 2 ^ (e + p).toNat else m / 2 ^ (-(e + p)).toNat

/-- How far a fixed-point result may be from the exact value, in units of the last place. -/
def slack : Nat := 2 ^ 24

/-- Round a positive value that `f p` gives with p bits to within `slack`, raising p until both ends of the
bracket round alike. `neg` is the sign and `sh` a power of two on top. DEDUCED, log entry 102. -/
def bracket (neg : Bool) (sh : Int) (f : Nat → Nat) : Nat → Nat → Word
  | 0, p => f32 .rne neg (f p) (sh - p)
  | fuel + 1, p =>
    let a := f p
    let lo := f32 .rne neg (a - slack) (sh - p) true
    let hi := f32 .rne neg (a + slack) (sh - p) true
    if lo = hi ∧ slack < a then lo else bracket neg sh f fuel (2 * p)

/-- Extra bits for an argument of small magnitude. -/
def smallBits (m : Nat) (e : Int) : Nat := (-(lead m e)).toNat

/-- 2^x (R167). DEDUCED, log entry 102. -/
def exp2_32 : FV → Word
  | .nan => nan32
  | .inf n => if n then 0#32 else inf32 false
  | .fin n m e =>
    if m = 0 then 0x3F800000#32
    else if 9 ≤ lead m e then (if n then 0#32 else inf32 false)
    else
      let x := sm n m
      if 0 ≤ e then f32 .rne false 1 (x * (2 ^ e.toNat : Nat))
      else
        let d := (-e).toNat
        let k := floorShift x d
        let fr := (x - k * (2 ^ d : Nat)).toNat
        if fr = 0 then f32 .rne false 1 k
        else bracket false k (fun p => expFix p (toFix p fr e * ln2Fix p / 2 ^ p)) 5 (96 + smallBits m e)

/-- log₂ x (R167). -/
def log2_32 : FV → Word
  | .nan => nan32
  | .inf n => if n then nan32 else inf32 false
  | .fin n m e =>
    if m = 0 then inf32 true
    else if n then nan32
    else
      let k := bitLen m - 1
      let ex : Int := e + k
      if m = 2 ^ k then (if ex = 0 then 0#32 else f32 .rne (decide (ex < 0)) ex.natAbs 0)
      else
        -- log₂(m / 2^k) = 2 atanh((m - 2^k) / (m + 2^k)) / ln 2, which lies between 0 and 1
        let frac (p : Nat) : Nat := 2 * atanhFix p ((m - 2 ^ k) * 2 ^ p / (m + 2 ^ k)) * 2 ^ p / ln2Fix p
        if 0 ≤ ex then bracket false 0 (fun p => ex.toNat * 2 ^ p + frac p) 5 128
        else if ex = -1 then
          -- just below 1 the two parts cancel, so the distance is formed from 2^(k+1) - m
          bracket true 0
            (fun p => 2 * atanhFix p ((2 ^ (k + 1) - m) * 2 ^ p / (2 ^ (k + 1) + m)) * 2 ^ p / ln2Fix p) 5 128
        else bracket true 0 (fun p => ex.natAbs * 2 ^ p - frac p) 5 128

/-- The place of |x| in its period of 2 for the sine and cosine of πx: m × 2^e modulo 2, as a
numerator over 2^d. -/
def modTwo (m : Nat) (e : Int) : Nat × Nat :=
  if 0 ≤ e then (m * 2 ^ e.toNat % 2, 0) else (m % 2 ^ ((-e).toNat + 1), (-e).toNat)

/-- sin(π a / 2^d) for 0 ≤ a ≤ 2^d / 2, with p bits. -/
def sinPiFix (p a d : Nat) : Nat := sinFix p (a * piFix p / 2 ^ d)
/-- cos(π a / 2^d) for 0 ≤ a ≤ 2^d / 2. -/
def cosPiFix (p a d : Nat) : Nat := cosFix p (a * piFix p / 2 ^ d)

/-- sin(πx) of a place in the period that is no multiple of 1/2, with a sign on top. -/
def sinPlace (neg : Bool) (a d extra : Nat) : Word :=
  let one := 2 ^ d
  let (neg, a) := if one ≤ a then (!neg, a - one) else (neg, a)
  let a := if one < 2 * a then one - a else a
  -- 0 < a < one / 2; near the top the cosine of the rest is more exact
  if 4 * a ≤ one then bracket neg 0 (fun p => sinPiFix p a d) 5 (96 + 2 * extra)
  else bracket neg 0 (fun p => cosPiFix p (one - 2 * a) (d + 1)) 5 (96 + 2 * extra)

/-- sin(πx) (R167). -/
def sinpi32 : FV → Word
  | .nan => nan32
  | .inf _ => nan32
  | .fin n m e =>
    let (a, d) := modTwo m e
    if a % 2 ^ d = 0 then zero32 n
    else if 2 * a = 2 ^ d then f32 .rne n 1 0
    else if 2 * a = 3 * 2 ^ d then f32 .rne (!n) 1 0
    else sinPlace n a d (smallBits m e)

/-- cos(πx) (R167): the sine half a unit further on. -/
def cospi32 : FV → Word
  | .nan => nan32
  | .inf _ => nan32
  | .fin _ m e =>
    let (a, d) := modTwo m e
    if a % 2 ^ d = 0 then f32 .rne (decide (a = 2 ^ d)) 1 0
    else
      let b := (2 * a + 2 ^ d) % (4 * 2 ^ d)
      if b % 2 ^ (d + 1) = 0 then 0#32 else sinPlace false b (d + 1) (smallBits m e)

/-- tanh x (R167). -/
def tanh32 : FV → Word
  | .nan => nan32
  | .inf n => f32 .rne n 1 0
  | .fin n m e =>
    if m = 0 then zero32 n
    else if lead m e < -13 then f32 .rne n m e
    else if 5 ≤ lead m e then f32 .rne n 1 0
    else
      bracket n 0
        (fun p =>
          let x := expNegFix p (2 * toFix p m e)
          (2 ^ p - x) * 2 ^ p / (2 ^ p + x))
        5 128

/-- 1 / (1 + e^(-x)) with p bits, for x = ± m × 2^e. -/
def sigmFix (n : Bool) (m : Nat) (e : Int) (p : Nat) : Nat :=
  let x := expNegFix p (toFix p m e)
  if n then x * 2 ^ p / (2 ^ p + x) else 2 ^ p * 2 ^ p / (2 ^ p + x)

/-- 1 / (1 + e^(-x)) (R167). -/
def sigm32 : FV → Word
  | .nan => nan32
  | .inf n => if n then 0#32 else 0x3F800000#32
  | .fin n m e =>
    if m = 0 then 0x3F000000#32
    else if 8 ≤ lead m e then (if n then 0#32 else 0x3F800000#32)
    else bracket false 0 (sigmFix n m e) 4 (if 4 ≤ lead m e ∧ n then 512 else 128 + smallBits m e)

/-- RNDN, RNDZ, RNDD and RNDU (R166). -/
def rnd32 (rm : Rm) (w : Word) : Word :=
  match fv w with
  | .nan => nan32
  | .inf _ => w
  | .fin n m e => if 0 ≤ e then w else f32 .rne n (roundMag rm n m e false 0) 0

/-- P(a) of the probability table (R302): 65536 / (1 + e^(-a/16)) rounded, at most 65535. -/
def sampP (a : Int) : Nat :=
  let v := if a = 0 then 2 ^ 127 else sigmFix (decide (a < 0)) a.natAbs (-4) 128
  min 65535 (roundMag .rne false (v * 65536) (-128) (decide (a ≠ 0)) 0)

end Sys2Proof.Machine
end

