-- ==== Sys2Proof/Machine/LaneFlt.lean ====
section
/-! DEFINITION. FP32 and BF16 arithmetic of the lanes and its compact forms (06_lane.md R157-R159, R161,
R164-R169). Each result is exact until its one rounding. -/

namespace Sys2Proof.Machine

open Sys2Proof

/-- Round(x + y) (R157-R159). -/
def faddw (x y : Word) : Word := ((fv x).add (fv y)).toF32
/-- Round(x - y). -/
def fsubw (x y : Word) : Word := ((fv x).add (fv y).neg).toF32
/-- Round(x × y). -/
def fmulw (x y : Word) : Word := ((fv x).mul (fv y)).toF32
/-- Round(x × y + z), one rounding. -/
def ffmaw (x y z : Word) : Word := (((fv x).mul (fv y)).add (fv z)).toF32

/-- The value of a float code is below another's, with -0 below +0 (R165). -/
def Fmt.below (f : Fmt) (x y : Nat) : Bool :=
  let a := f.decode x
  let b := f.decode y
  a.lt b || (a.eqv b && bit x (f.eb + f.mb) && !bit y (f.eb + f.mb))
/-- A code is a NaN. -/
def Fmt.isNan (f : Fmt) (x : Nat) : Bool := decide (f.decode x = .nan)
/-- The larger of two codes (R165). -/
def Fmt.maxOf (f : Fmt) (x y : Nat) : Nat :=
  if f.isNan x then (if f.isNan y then f.nan else y) else if f.isNan y then x else if f.below x y then y else x
/-- The smaller of two codes (R165). -/
def Fmt.minOf (f : Fmt) (x y : Nat) : Nat :=
  if f.isNan x then (if f.isNan y then f.nan else y) else if f.isNan y then x else if f.below y x then y else x
/-- FMAX (R165). -/
def fmaxw (x y : Word) : Word := w32 (fp32.maxOf x.toNat y.toNat)
/-- FMIN (R165). -/
def fminw (x y : Word) : Word := w32 (fp32.minOf x.toNat y.toNat)

/-- The class mask of FCLASS (R168). -/
def fclassw (x : Word) : Word :=
  let neg := x.getLsbD 31
  match fv x with
  | .nan => if x.getLsbD 22 then 512#32 else 256#32
  | .inf _ => if neg then 1#32 else 128#32
  | .fin _ m _ =>
    if m = 0 then (if neg then 8#32 else 16#32)
    else if bits x.toNat 30 23 = 0 then (if neg then 4#32 else 32#32)
    else if neg then 2#32 else 64#32

/-- A value rounded once into BF16, overflow to infinity (R169). -/
def bf16Code : FV → Nat
  | .nan => bf16.nan
  | .inf n => bf16.infCode n
  | .fin n m e => let r := bf16.round .rne n m e; if r.beyond then bf16.infCode n else bf16.code r
/-- An operation on each BF16 half (R169). -/
def halves (f : Nat → Nat → Nat) (x y : Word) : Word :=
  w32 (f (x.toNat % 65536) (y.toNat % 65536) + 65536 * f (x.toNat / 65536) (y.toNat / 65536))
def hadd2w : Word → Word → Word := halves fun x y => bf16Code ((bf16.decode x).add (bf16.decode y))
def hmul2w : Word → Word → Word := halves fun x y => bf16Code ((bf16.decode x).mul (bf16.decode y))
def hmax2w : Word → Word → Word := halves bf16.maxOf

/-! ### The meanings -/

/-- FFMA (R161): Round(va × vb + vd). -/
def execFfma (h : Hdr) (d a b : Nat) (s : State) : Host.Outcome State Fault Refusal :=
  perform s (lane3d (.ffma h d a b) h d a b ffmaw)

/-- FADD (R161). -/
def execFadd (h : Hdr) (d a b : Nat) (s : State) : Host.Outcome State Fault Refusal :=
  perform s (lane3 (.fadd h d a b) h d a b faddw)

/-- FMUL (R161). -/
def execFmul (h : Hdr) (d a b : Nat) (s : State) : Host.Outcome State Fault Refusal :=
  perform s (lane3 (.fmul h d a b) h d a b fmulw)

/-- FSUB (R164). -/
def execFsub (h : Hdr) (d a : Nat) (s : State) : Host.Outcome State Fault Refusal :=
  perform s (lane2 (.fsub h d a) h d a fsubw)

/-- FMIN (R165). -/
def execFmin (h : Hdr) (d a : Nat) (s : State) : Host.Outcome State Fault Refusal :=
  perform s (lane2 (.fmin h d a) h d a fminw)

/-- FMAX (R165). -/
def execFmax (h : Hdr) (d a : Nat) (s : State) : Host.Outcome State Fault Refusal :=
  perform s (lane2 (.fmax h d a) h d a fmaxw)

/-- HADD2 (R169). -/
def execHadd2 (h : Hdr) (d a : Nat) (s : State) : Host.Outcome State Fault Refusal :=
  perform s (lane2 (.hadd2 h d a) h d a hadd2w)

/-- HMUL2 (R169). -/
def execHmul2 (h : Hdr) (d a : Nat) (s : State) : Host.Outcome State Fault Refusal :=
  perform s (lane2 (.hmul2 h d a) h d a hmul2w)

/-- HMAX2 (R165, R169). -/
def execHmax2 (h : Hdr) (d a : Nat) (s : State) : Host.Outcome State Fault Refusal :=
  perform s (lane2 (.hmax2 h d a) h d a hmax2w)

/-- FABS (R164). -/
def execFabs (h : Hdr) (d a : Nat) (s : State) : Host.Outcome State Fault Refusal :=
  perform s (lane1 (.fabs h d a) h d a (fun x => x &&& 0x7FFFFFFF#32))

/-- FNEG (R164). -/
def execFneg (h : Hdr) (d a : Nat) (s : State) : Host.Outcome State Fault Refusal :=
  perform s (lane1 (.fneg h d a) h d a (fun x => x ^^^ 0x80000000#32))

/-- RNDN (R166). -/
def execRndn (h : Hdr) (d a : Nat) (s : State) : Host.Outcome State Fault Refusal :=
  perform s (lane1 (.rndn h d a) h d a (rnd32 .rne))

/-- RNDZ (R166). -/
def execRndz (h : Hdr) (d a : Nat) (s : State) : Host.Outcome State Fault Refusal :=
  perform s (lane1 (.rndz h d a) h d a (rnd32 .rz))

/-- RNDD (R166). -/
def execRndd (h : Hdr) (d a : Nat) (s : State) : Host.Outcome State Fault Refusal :=
  perform s (lane1 (.rndd h d a) h d a (rnd32 .rd))

/-- RNDU (R166). -/
def execRndu (h : Hdr) (d a : Nat) (s : State) : Host.Outcome State Fault Refusal :=
  perform s (lane1 (.rndu h d a) h d a (rnd32 .ru))

/-- RCP (R167). -/
def execRcp (h : Hdr) (d a : Nat) (s : State) : Host.Outcome State Fault Refusal :=
  perform s (lane1 (.rcp h d a) h d a (fun x => rcp32 (fv x)))

/-- RSQ (R167). -/
def execRsq (h : Hdr) (d a : Nat) (s : State) : Host.Outcome State Fault Refusal :=
  perform s (lane1 (.rsq h d a) h d a (fun x => rsq32 (fv x)))

/-- SQRT (R167). -/
def execSqrt (h : Hdr) (d a : Nat) (s : State) : Host.Outcome State Fault Refusal :=
  perform s (lane1 (.sqrt h d a) h d a (fun x => sqrt32 (fv x)))

/-- EXP2 (R167). -/
def execExp2 (h : Hdr) (d a : Nat) (s : State) : Host.Outcome State Fault Refusal :=
  perform s (lane1 (.exp2 h d a) h d a (fun x => exp2_32 (fv x)))

/-- LOG2 (R167). -/
def execLog2 (h : Hdr) (d a : Nat) (s : State) : Host.Outcome State Fault Refusal :=
  perform s (lane1 (.log2 h d a) h d a (fun x => log2_32 (fv x)))

/-- SINPI (R167). -/
def execSinpi (h : Hdr) (d a : Nat) (s : State) : Host.Outcome State Fault Refusal :=
  perform s (lane1 (.sinpi h d a) h d a (fun x => sinpi32 (fv x)))

/-- COSPI (R167). -/
def execCospi (h : Hdr) (d a : Nat) (s : State) : Host.Outcome State Fault Refusal :=
  perform s (lane1 (.cospi h d a) h d a (fun x => cospi32 (fv x)))

/-- TANH (R167). -/
def execTanh (h : Hdr) (d a : Nat) (s : State) : Host.Outcome State Fault Refusal :=
  perform s (lane1 (.tanh h d a) h d a (fun x => tanh32 (fv x)))

/-- SIGM (R167). -/
def execSigm (h : Hdr) (d a : Nat) (s : State) : Host.Outcome State Fault Refusal :=
  perform s (lane1 (.sigm h d a) h d a (fun x => sigm32 (fv x)))

/-- FCLASS (R168). -/
def execFclass (h : Hdr) (d a : Nat) (s : State) : Host.Outcome State Fault Refusal :=
  perform s (lane1 (.fclass h d a) h d a fclassw)

/-- C.FADD (R57): FADD on vd and va. -/
def execCFadd (d a : Nat) (s : State) : Host.Outcome State Fault Refusal :=
  perform s (compact False a (lane2 (.fadd .plain d d a) .plain d a faddw))

/-- C.FMUL (R57): FMUL on vd and va. -/
def execCFmul (d a : Nat) (s : State) : Host.Outcome State Fault Refusal :=
  perform s (compact False a (lane2 (.fmul .plain d d a) .plain d a fmulw))

/-- C.FSUB (R57): FSUB on vd and va. -/
def execCFsub (d a : Nat) (s : State) : Host.Outcome State Fault Refusal :=
  perform s (compact False a (lane2 (.fsub .plain d a) .plain d a fsubw))

/-- C.FMAX (R57): FMAX on vd and va. -/
def execCFmax (d a : Nat) (s : State) : Host.Outcome State Fault Refusal :=
  perform s (compact False a (lane2 (.fmax .plain d a) .plain d a fmaxw))

/-- C.FMIN (R57): FMIN on vd and va. -/
def execCFmin (d a : Nat) (s : State) : Host.Outcome State Fault Refusal :=
  perform s (compact False a (lane2 (.fmin .plain d a) .plain d a fminw))

end Sys2Proof.Machine
end

