-- ==== Sys2Proof/Machine/Access.lean ====
section
/-! DEFINITION. Loads, stores, the scratchpad, scalar memory access, prefetch and the atomics
(07_memory.md R183-R199, R204, R210; 08_ordering.md R224-R228, R240-R242). An access is performed at its
issue; what it still counts on its path, and a fault it will report, stand in `Group.inflight`. -/

namespace Sys2Proof.Machine

open Sys2Proof

/-! ### Redundant pairs: the compare buffer (R386) -/

/-- A place as a buffered store. -/
def PairStore.of (p : Place) (bytes : List Byte) (po : Bool) : PairStore :=
  match p with
  | .scratch b key => { kind := 0, who := b, addr := key, bytes := bytes, poison := po }
  | .dev pa mir => { kind := 1, addr := pa, mir := mir, bytes := bytes, poison := po }
  | .host a => { kind := 2, addr := a, bytes := bytes, poison := po }
  | .peer r pa => { kind := 3, who := r, addr := pa, bytes := bytes, poison := po }
/-- Where a buffered store goes. -/
def PairStore.place (x : PairStore) : Place :=
  match x.kind with
  | 0 => .scratch x.who x.addr
  | 1 => .dev x.addr x.mir
  | 2 => .host x.addr
  | _ => .peer x.who x.addr
/-- The byte of a buffered store at an offset of a place. -/
def PairStore.hit (x : PairStore) (p : Place) (k : Nat) : Option (Byte × Bool) :=
  let y := PairStore.of p [] false
  if x.kind = y.kind ∧ x.who = y.who ∧ x.addr ≤ y.addr + k ∧ y.addr + k < x.addr + x.bytes.length then
    some (x.bytes.getD (y.addr + k - x.addr) 0#8, x.poison)
  else none
/-- The grid of the issuing group. -/
def State.cgrid (s : State) : Nat := s.gridOf s.cg
/-- A group runs on a pair of cores. -/
def State.paired (s : State) (gid : Nat) : Bool := (s.b (s.g gid).bid).partner.isSome

/-- An access to a place leaves as a flit at the boundary that ends the tick (R405). -/
def State.goesAway (s : State) (p : Place) : Bool :=
  s.detx && match p with
    | .peer _ _ => true
    | _ => false
/-- The event of a store of some lanes. -/
def State.storeEvent (s : State) (gid : Nat) (x : PairStore) : Event :=
  { by_ := s.lanesAt gid x.lanes, scope := x.scope, rel := x.rel, instr := x.instr }
/-- A store to a peer waits for the boundary; in the program order of its lanes it stands here (R405).
DEDUCED, log entry 91. -/
def State.sendStore (s : State) (gid : Nat) (x : PairStore) : State :=
  let e := s.storeEvent gid x
  { s.note { e with at_ := x.place.key, len := x.bytes.length, bytes := x.bytes } with
    outgoing := s.outgoing ++ [{ gid := gid, store := some (x, s.log.length) }] }
/-- The stores of one plane issue are performed, lowest lane first, so that the highest-numbered lane decides a shared
byte (R190); then the sectors that clean stores cover wholly lose their marks and the poisoned ones keep them (R199). -/
def State.performStores (s : State) (gid : Nat) (xs : List PairStore) : State :=
  let t := xs.foldl
    (fun (t : State) x =>
      if t.goesAway x.place then t.sendStore gid x
      else t.writeAs (some (t.gridOf (t.g gid))) (t.storeEvent gid x) x.place x.bytes x.poison) s
  let dev (q : Bool) : List (Nat × Nat) :=
    (xs.filter fun x => decide (x.kind = 1 ∧ x.poison = q)).map fun x => (x.addr, x.bytes.length)
  (dev true).foldl (fun u w => u.markPo w.1 w.2) (t.clearCovered (dev false))

/-- The members of a pair compare and match: the buffered stores are performed once, oldest first, plane issue by plane issue
(R386). Whether they differ the issue looks at (`State.compare`). DEDUCED, log entry 42. -/
def State.pairFlush (s : State) (gid : Nat) : State :=
  let g := s.g gid
  if s.paired gid then
    (g.pairBuf.splitBy fun a b => decide (a.issue = b.issue)).foldl (fun u xs => u.performStores gid xs)
      (s.updG gid fun g => { g with pairBuf := [], compared := true })
  else s

/-- The number by which the accesses of the issuing instruction are known: the cycle of its first plane issue, and its split. -/
def State.instrId (s : State) : Nat := 4 * ((if s.cur.checked then s.cs.began else s.cycle) + 1) + s.cur.slot
/-- A store of some lanes of the issuing split. In the poison pass every store carries the mark (R372). -/
def State.storeOf (s : State) (p : Place) (bytes : List Byte) (po : Bool) (lanes : LaneMask) (scope : Nat) (rel : Bool)
    (va : Nat := 0) : PairStore :=
  { PairStore.of p bytes (po || s.cg.poisonPass.isSome) with
    lanes := lanes, scope := scope, rel := rel, issue := 4 * s.cycle + s.cur.slot, instr := s.instrId, va := va }
/-- The stores of one plane issue: at once, or into the compare buffer of a pair, which flushes first where they would not fit
(R386). DEDUCED, log entry 42. -/
def State.groupStores (s : State) (gid : Nat) (xs : List PairStore) : State :=
  if s.paired gid then
    (if 64 < (s.g gid).pairBuf.length + xs.length then s.pairFlush gid else s).updG gid fun g => { g with pairBuf := g.pairBuf ++ xs }
  else s.performStores gid xs
/-- Before an access that is performed at once, the group's buffered stores to the same bytes are compared and performed: they
come first in program order (R217, R386). DEDUCED, log entry 42. -/
def State.pairOrder (s : State) (gid : Nat) (ps : List (Place × Nat)) : State :=
  if ps.any fun x => (s.g gid).pairBuf.any fun y => (List.range x.2).any fun k => (y.hit x.1 k).isSome then s.pairFlush gid else s
/-- One store of the issuing split, a relaxed one in its scratchpad unless told otherwise. -/
def State.groupStore (s : State) (gid : Nat) (p : Place) (bytes : List Byte) (po : Bool) (scope : Nat := 4) (rel : Bool := false)
    (va : Nat := 0) : State :=
  s.groupStores gid [s.storeOf p bytes po s.liveS scope rel va]

/-- The bytes that lie at a place for a group, some of which its own buffered stores have changed (R217). -/
def State.forwarded (s : State) (gid : Nat) (p : Place) (bytes : List Byte) : List Byte :=
  bytes.zipIdx.map fun y => match (s.g gid).pairBuf.reverse.findSome? fun x => x.hit p y.2 with
    | some (b, _) => b
    | none => y.1
/-- The first n bytes of a place as they stand, with the group's buffered stores, and whether some unit carries poison. -/
def State.groupBytes (s : State) (gid : Nat) (p : Place) (n : Nat) : List Byte := s.forwarded gid p (s.placeBytes p n)
def State.groupPo (s : State) (gid : Nat) (p : Place) (n : Nat) : Bool :=
  s.placePo p n || (s.g gid).pairBuf.any fun x => x.poison && (List.range n).any fun k => (x.hit p k).isSome
/-- Some lanes of a group read a unit: what the memory model lets them see (R216-R218), or their own buffered stores. -/
def State.groupRead (s : State) (gid : Nat) (m : LaneMask) (scope : Nat) (acq : Bool) (p : Place) (n : Nat) : List Byte × State :=
  let r := s.readAs (s.lanesAt gid m) scope acq p n
  (s.forwarded gid p r.1, r.2)

/-! ### Addresses of lanes -/

/-- The global address of a lane (R188). -/
def State.gaddr (s : State) (k l : Nat) : Nat := pair (s.v (2 * k) l) (s.v (2 * k + 1) l)
/-- The lanes and addresses of a plane issue. -/
def State.gaddrs (s : State) (h : Hdr) (k : Nat) : List (Nat × Nat) :=
  (lanesOf (s.laneActive h)).map fun l => (l, s.gaddr k l)
/-- The access lies in one 32-byte sector (R191). -/
def oneSector (a n : Nat) : Bool := decide (a / 32 = (a + n - 1) / 32)

/-- A global address in the scratch window that is out of range (R187). -/
def State.windowBad (s : State) (a n : Nat) : Bool :=
  s.cc.inWindow a && (s.scratchPlace s.cg (a - s.cc.scrBase) n).isNone
/-- SCRATCH_RANGE for a scratchpad address (R185). -/
def State.rangeTrap (s : State) (lane a : Nat) : Trap := s.mkTrap 0x15 0 (w32 lane) a
/-- MISALIGN (R191). -/
def State.alignTrap (s : State) (lane a : Nat) : Trap := s.mkTrap 0x07 0 (w32 lane) a

/-- The operand checks of LD, ST and the atomics, over some lanes and addresses: SCRATCH_RANGE, then MISALIGN,
each for the lowest faulting lane. -/
def State.globalTrap (s : State) (n : Nat) (aligned : Nat → Bool) (as : List (Nat × Nat)) : Option Trap :=
  match as.find? fun x => s.windowBad x.2 n with
  | some (l, a) => some (s.rangeTrap l (a - s.cc.scrBase))
  | none =>
    match as.find? fun x => !aligned x.2 with
    | some (l, a) => some (s.alignTrap l a)
    | none => none

/-- PAGE_NP or PAGE_PROT of an own access (R359). -/
def State.pageTrap (s : State) (code : Nat) (k : Acc) (va : Nat) : Trap := s.mkTrap code 0 (w32 k.num) va

/-- The places of some lanes' accesses, or the fault of the lowest lane that faults (R210).
DESIGN CHOICE, log entry 14. -/
def State.resolve (s : State) (k : Acc) (n : Nat) : List (Nat × Nat) → Except Trap (List (Nat × Place)) × State
  | [] => (.ok [], s)
  | (l, a) :: r =>
    match s.globalPlace s.cg s.cg.priv k a n with
    | (.error c, t) => (.error (s.pageTrap c k a), t)
    | (.ok p, t) =>
      match t.resolve k n r with
      | (.ok ps, u) => (.ok ((l, p) :: ps), u)
      | (.error e, u) => (.error e, u)

/-- A rank with its fault, where it is the first access to the rank. -/
def addPeer (l : List (Nat × Trap)) (x : Nat × Trap) : List (Nat × Trap) := if l.any (·.1 = x.1) then l else l ++ [x]
/-- What an access to some places still waits for: the tick of peer traffic (R405) and the ranks it may lose.
DEDUCED, log entry 91. -/
def State.accessOf (s : State) (path : Nat) (k : Acc) (ps : List (Nat × Place × Nat)) (rs : List (RegFile × Nat × LaneMask)) :
    Access :=
  let peers := ps.foldl (fun l x => match x.2.1 with
    | .peer r _ => addPeer l (r, s.pageTrap 0x09 k x.2.2)
    | _ => l) []
  { path := path, regs := rs, peers := peers
    notBefore := if !peers.isEmpty && s.detx then s.bounds + 1 else 0 }

/-- An access of the issuing group is counted; one with loads or atomics of peers waits for the boundary with them (R405). -/
def State.pushBound (s : State) (a : Access) : State :=
  let t := s.push a
  if a.binds.any (·.away) then
    { t with outgoing := t.outgoing ++ [{ gid := s.cur.gid, path := a.path, seq := t.cg.accs.get a.path }] }
  else t
/-- Count an access that faults: it reports when it completes (R196, R358). DEDUCED, log entry 40. -/
def State.pushFault (s : State) (path : Nat) (t : Trap) : State := s.push { path := path, fault := some t }

/-! ### LD and ST -/

/-- The registers that the bytes of a load give (R188). -/
def loadWords (z : Nat) (bs : List Byte) : List Word :=
  match z with
  | 1 => [wrap32 (sext 8 (leNat bs))]
  | 3 => [wrap32 (sext 16 (leNat bs))]
  | _ => (List.range (sizeRegs z)).map fun k => w32 (leNat ((bs.drop (4 * k)).take 4))
/-- The bytes that a store of a size takes from a lane's registers. -/
def State.storeBytes (s : State) (z v l : Nat) : List Byte :=
  ((List.range (sizeRegs z)).flatMap fun k => wordBytes (s.v (v + k) l)).take (sizeBytes z)
/-- Some register of the data is poisoned. -/
def State.dataPo (s : State) (z v l : Nat) : Bool := (regs v (sizeRegs z)).any fun r => s.vp r l

/-- Write consecutive vector registers of a lane. -/
def State.setVs (s : State) (v l : Nat) (ws : List Word) (po : Bool) : State :=
  (List.range ws.length).foldl (fun t k => t.setV (v + k) l (ws.getD k 0#32) po) s
/-- The registers of an access, with the lanes it writes. -/
def destV (v n : Nat) (m : LaneMask) : List (RegFile × Nat × LaneMask) := (regs v n).map fun r => (.v, r, m)

/-- Load each lane of a list from its place at its scope, as acquires or not. -/
def State.loadLanes (s : State) (z v : Nat) (acq : Bool) (ps : List (Nat × Place × Nat)) : State :=
  ps.foldl
    (fun (t : State) x =>
      let r := t.groupRead t.cur.gid (laneBit x.1) x.2.2 acq x.2.1 (sizeBytes z)
      r.2.setVs v x.1 (loadWords z r.1) (t.groupPo t.cur.gid x.2.1 (sizeBytes z))) s

/-- The loads of some lanes as they may still change until they land: k others come before each lane's. DESIGN CHOICE, log entry 133. -/
def State.loadBinds (s : State) (z v : Nat) (acq : Bool) (ps : List (Nat × Place × Nat)) (va : Nat → Nat := fun _ => 0) : List Bind :=
  ps.zipIdx.map fun (x, k) =>
    { lanes := laneBit x.1, reg := v, size := z, n := sizeBytes z, place := x.2.1, scope := x.2.2, acq := acq, va := va x.1
      ev := if s.writes = [] then none else some (s.log.length + k), since := s.log.length + k, away := s.goesAway x.2.1 }
/-- One plane issue of LD (R188). -/
def ldAct (h : Hdr) (o c z a v : Nat) (s : State) : State :=
  match s.resolve .load (sizeBytes z) (s.gaddrs h a) with
  | (.error t, u) => u.pushFault 0 t
  | (.ok ps, u) =>
    let xs := ps.map fun x => (x.1, x.2, c)
    (u.loadLanes z v (decide (o = 1)) xs).pushBound
      { s.accessOf 0 .load (ps.map fun x => (x.1, x.2, s.gaddr a x.1)) (destV v (sizeRegs z) (s.laneActive h)) with
        binds := u.loadBinds z v (decide (o = 1)) xs (s.gaddr a) }

/-- Store each lane of a list at its place at its scope, as releases or not. DESIGN CHOICE, log entry 14. -/
def State.storeLanes (s : State) (z v : Nat) (rel : Bool) (ps : List (Nat × Place × Nat)) (va : Nat → Nat := fun _ => 0) : State :=
  s.groupStores s.cur.gid
    (ps.map fun x => s.storeOf x.2.1 (s.storeBytes z v x.1) (s.dataPo z v x.1) (laneBit x.1) x.2.2 rel (va x.1))

/-- One plane issue of ST (R188). -/
def stAct (h : Hdr) (o c z a v : Nat) (s : State) : State :=
  match s.resolve .store (sizeBytes z) (s.gaddrs h a) with
  | (.error t, u) => u.pushFault 1 t
  | (.ok ps, u) =>
    (u.storeLanes z v (decide (o = 2)) (ps.map fun x => (x.1, x.2, c)) (s.gaddr a)).push
      (s.accessOf 1 .store (ps.map fun x => (x.1, x.2, s.gaddr a x.1)) [])

/-- The checks of LD and ST (R188). -/
def globalCheck (h : Hdr) (z a : Nat) (s : State) : Option Trap :=
  s.globalTrap (sizeBytes z) (fun x => oneSector x (sizeBytes z)) (s.gaddrs h a)

/-- The active lanes whose address pair is poisoned. -/
def pairPoison (h : Hdr) (a : Nat) (s : State) : LaneMask := s.poisonedLanes h [2 * a, 2 * a + 1]

/-- A path has room for one more access (R196). -/
def State.roomFor (path : Nat) (s : State) : Bool := s.cg.room path 1

/-- LD (R188, R189). -/
def execLd (h : Hdr) (o c z a v : Nat) (s : State) : Host.Outcome State Fault Refusal :=
  perform s (laneMem (.ld h o c z a v) h (pairPoison h a) (globalCheck h z a) (State.roomFor 0) (ldAct h o c z a v))

/-- ST (R188-R190). -/
def execSt (h : Hdr) (o c z a v : Nat) (s : State) : Host.Outcome State Fault Refusal :=
  perform s (laneMem (.st h o c z a v) h (pairPoison h a) (globalCheck h z a) (State.roomFor 1) fun t =>
    let t := stAct h o c z a v t
    if o = 2 then t.pairFlush t.cur.gid else t)

/-! ### SPAD (R192) -/

/-- The checks of some scratchpad accesses (R193): SCRATCH_RANGE, then MISALIGN. -/
def State.spadTrap (s : State) (n : Nat) (as : List (Nat × Nat)) : Option Trap :=
  match as.find? fun x => (s.scratchPlace s.cg x.2 n).isNone with
  | some (l, a) => some (s.rangeTrap l a)
  | none =>
    match as.find? fun x => !oneSector x.2 n with
    | some (l, a) => some (s.alignTrap l a)
    | none => none
/-- The lanes and scratchpad addresses of a plane issue. -/
def State.saddrs (s : State) (h : Hdr) (a : Nat) : List (Nat × Nat) :=
  (lanesOf (s.laneActive h)).map fun l => (l, (s.v a l).toNat)
/-- The scope of a scratchpad access: CORE for a local address, CLUSTER for a remote one (R192, R215). -/
def spadScope (a : Nat) : Nat := if a < 2 ^ 25 then 3 else 4
/-- Their places and scopes; the checks have passed. -/
def State.splaces (s : State) (n : Nat) (as : List (Nat × Nat)) : List (Nat × Place × Nat) :=
  as.filterMap fun x => (s.scratchPlace s.cg x.2 n).map fun p => (x.1, p, spadScope x.2)

/-- LDS (R192). -/
def execLds (h : Hdr) (o z a v : Nat) (s : State) : Host.Outcome State Fault Refusal :=
  perform s (laneMem (.lds h o z a v) h (fun t => t.poisonedLanes h [a]) (fun t => t.spadTrap (sizeBytes z) (t.saddrs h a)) (State.roomFor 2) fun t =>
    let xs := t.splaces (sizeBytes z) (t.saddrs h a)
    (t.loadLanes z v (decide (o = 1)) xs).push
      { path := 2, regs := destV v (sizeRegs z) (t.laneActive h), binds := t.loadBinds z v (decide (o = 1)) xs })

/-- The leading active lanes whose scratchpad address is poisoned: a broadcast read takes the address of the
lowest lane that is left (R192, R198). -/
def leadingPoison (h : Hdr) (a : Nat) (s : State) : LaneMask :=
  ((lanesOf (s.laneActive h)).takeWhile fun l => s.vp a l).foldl (fun m l => m ||| laneBit l) 0#32

/-- LDS.BCAST (R192): the lowest lane's address serves every lane of the plane issue. -/
def execLdsBcast (h : Hdr) (o z a v : Nat) (s : State) : Host.Outcome State Fault Refusal :=
  perform s (laneMem (.ldsBcast h o z a v) h (leadingPoison h a)
    (fun t => t.spadTrap (sizeBytes z) ((t.saddrs h a).take 1)) (State.roomFor 2) fun t =>
      let m := t.laneActive h
      let xs := t.splaces (sizeBytes z) ((t.saddrs h a).take 1)
      let u := match xs.head? with
        | some (_, p, c) =>
          let r := t.groupRead t.cur.gid m c (decide (o = 1)) p (sizeBytes z)
          forLanes m r.2 fun u l => u.setVs v l (loadWords z r.1) (t.groupPo t.cur.gid p (sizeBytes z))
        | none => t
      u.push { path := 2, regs := destV v (sizeRegs z) m
               binds := (t.loadBinds z v (decide (o = 1)) xs).map fun b => { b with lanes := m } })

/-- STS (R192). -/
def execSts (h : Hdr) (o z a v : Nat) (s : State) : Host.Outcome State Fault Refusal :=
  perform s (laneMem (.sts h o z a v) h (fun t => t.poisonedLanes h [a]) (fun t => t.spadTrap (sizeBytes z) (t.saddrs h a)) (State.roomFor 2) fun t =>
    let t := (t.storeLanes z v (decide (o = 2)) (t.splaces (sizeBytes z) (t.saddrs h a))).push { path := 2 }
    if o = 2 then t.pairFlush t.cur.gid else t)

/-! ### Atomics (R224-R228) -/

/-- What an atomic does with the old word or doubleword and its operands (R224): the value it writes, if it
writes. -/
inductive AtomOp where
  | add | and | or | xor | smin | smax | umin | umax | exch | cas | fadd | fmin | fmax | add64 | exch64 | cas64
  deriving DecidableEq, Repr, Inhabited

/-- The bytes of an operation (R224). -/
def AtomOp.size : AtomOp → Nat
  | .add64 | .exch64 | .cas64 => 8
  | _ => 4
/-- How many operand registers it reads. -/
def AtomOp.operands : AtomOp → Nat
  | .cas | .add64 | .exch64 => 2
  | .cas64 => 4
  | _ => 1
/-- The operation of row n of R224, majors A and B in turn. -/
def AtomOp.ofNum (n : Nat) : AtomOp :=
  [.add, .and, .or, .xor, .smin, .smax, .umin, .umax, .exch, .cas, .fadd, .fmin, .fmax, .add64, .exch64, .cas64].getD n .add

/-- The value written, as a number, from the old value and the operand words (R224, R226). -/
def AtomOp.value (op : AtomOp) (old : Nat) (x : List Word) : Option Nat :=
  let a := x.getD 0 0#32
  let o := w32 old
  let two := pair a (x.getD 1 0#32)
  match op with
  | .add => some (o + a).toNat
  | .and => some (o &&& a).toNat
  | .or => some (o ||| a).toNat
  | .xor => some (o ^^^ a).toNat
  | .smin => some (mins o a).toNat
  | .smax => some (maxs o a).toNat
  | .umin => some (minu o a).toNat
  | .umax => some (maxu o a).toNat
  | .exch => some a.toNat
  | .cas => if o = a then some (x.getD 1 0#32).toNat else none
  | .fadd => some (faddw o a).toNat
  | .fmin => some (fminw o a).toNat
  | .fmax => some (fmaxw o a).toNat
  | .add64 => some ((old + two) % 2 ^ 64)
  | .exch64 => some two
  | .cas64 => if old = two then some (pair (x.getD 2 0#32) (x.getD 3 0#32)) else none

/-- A grid is deterministic, and its anchor (R240). -/
def State.detGrid (s : State) (h : Nat) : Bool := (s.gr h).p.det
def State.anchorOf (s : State) (h : Nat) : Nat := (s.gr h).p.detanchor % 256

/-- Put a line into the exact-reducing state for a grid: its words are folded in first (R241). -/
def State.enterRed (s : State) (h line : Nat) (mir : Bool) : State :=
  let l0 : RedLine := { live := true, anchor := s.anchorOf h, owners := [h], mir := mir }
  let l := (List.range 32).foldl (fun l w => l.fold w (w32 (leNat (s.devBytes (128 * line + 4 * w) 4)))) l0
  { s with red := s.red.put line l }

/-- A deterministic FADD puts a normal line into the exact-reducing state before it folds (R241). -/
def State.beforeFadd (s : State) (grid : Option Nat) (pa : Nat) (mir : Bool) : State :=
  match grid with
  | some h => if s.detGrid h && !(s.red.get (pa / 128)).live then s.enterRed h (pa / 128) mir else s
  | none => s

/-- What an operation does to the line it names before it acts (R241). -/
def State.beforeRmw (s : State) (grid : Option Nat) (op : AtomOp) (p : Place) : State :=
  match op, p with
  | .fadd, .dev pa mir => s.beforeFadd grid pa mir
  | _, _ => s

/-- FADD at a line in the exact-reducing state (R242, R245), by the event e: it is the latest write to its word. -/
def State.fold (s : State) (grid : Option Nat) (e : Event) (pa : Nat) (x : Word) (po : Bool) : State :=
  let line := pa / 128
  let l := s.red.get line
  let owners := match grid with
    | some h => if s.detGrid h then insertAsc h l.owners else l.owners
    | none => l.owners
  let mixed := match grid with
    | some h => !s.detGrid h || decide (s.anchorOf h ≠ l.anchor)
    | none => true
  let old := s.devBytes pa 4
  let adders := if e.by_ ∈ l.adders then l.adders else e.by_ :: l.adders
  let t := { s with red := s.red.put line (RedLine.fold { l with owners := owners, adders := adders } (pa % 128 / 4) x) }
  let e : Event := { e with num := t.log.length, at_ := (1, 0, pa), len := 4, bytes := t.devBytes pa 4, old := old }
  let t := { t with log := e :: t.log, writes := e :: t.writes }
  let t := if po then t.markPo pa 4 else t
  if mixed then t.setDetmix owners else t

/-- One read-modify-write at a place (R225) by the event e: the old value, whether it or the operand carries poison, and the
state after it. A compare that fails writes nothing, and its read is an event still (R219). The event takes place now, or has done so before
(`ev`). -/
def State.rmw (s : State) (grid : Option Nat) (gid : Nat) (e : Event) (op : AtomOp) (p : Place) (x : List Word) (po : Bool)
    (ev : Option Nat := none) : Nat × Bool × State :=
  let s := s.beforeRmw grid op p
  let bad := po || s.placePo p op.size
  let mark := bad || (s.g gid).poisonPass.isSome
  let e : Event := { e with rmw := true, scope := e.by_.scopeAt p e.scope }
  let (i, s) := s.pickSlot e p op.size
  let (bs, ret) := s.without p op.size ((s.writes.take i).filter (·.touches p.key op.size)).length
  let old := leNat bs
  let e : Event := { e with ret := ret, from_ := if e.acq then s.syncs ret { e with at_ := p.key, len := op.size } else [] }
  match op, p, s.inRed p op.size with
  | .fadd, .dev pa _, true => (old, bad, s.fold grid e pa (x.getD 0 0#32) mark)
  | _, _, _ =>
    match op.value old x with
    | some n => (old, bad, (s.settleLine grid p op.size).insert grid e i p (leBytes op.size n) mark ev)
    | none =>
      let e : Event := { e with rmw := false, rel := false, at_ := p.key, len := op.size }
      (old, bad, match ev with
        | some k => s.renote { e with num := k }
        | none => if s.writes = [] then s else s.note e)

/-- The two words of an old value that go into registers. -/
def AtomOp.result (op : AtomOp) (old : Nat) : List Word := if op.size = 8 then [loW old, hiW old] else [loW old]

/-- The operand words of a lane. -/
def State.atomArgs (s : State) (op : AtomOp) (d l : Nat) : List Word := (regs d op.operands).map fun r => s.v r l

/-- The event of an atomic of some lanes of the issuing split, with its order and scope: the read carries the acquire, the
write the release (R225). -/
def State.atomEvent (s : State) (m : LaneMask) (o c : Nat) : Event :=
  { by_ := s.lanesAt s.cur.gid m, scope := c, acq := decide (o = 1 ∨ o = 3), rel := decide (o = 2 ∨ o = 3)
    instr := s.instrId }
/-- The die whose L2 is home to an address (R20). -/
def State.homeDie (s : State) (pa : Nat) : Nat :=
  let x (n : Nat) : Nat := (pa / 2 ^ 12 % n) ^^^ (pa / 2 ^ 12 / n % n) ^^^ (pa / 2 ^ 12 / n / n % n)
  match s.part with
  | .dx192 => x 8 / 2
  | .dx96 => x 4 / 2
/-- A die with 65,536 exact-reducing lines takes no further one (R246). -/
def State.redFull (s : State) (die : Nat) : Bool :=
  decide (65536 ≤ (s.red.filter fun e => decide (s.homeDie (128 * e.1) = die)).length)
/-- A FADD of a grid that needs a further line on a full die waits there (R246). -/
def State.addWaits (s : State) (grid : Nat) (op : AtomOp) (p : Place) : Option (Nat × Bool) :=
  match op, p with
  | .fadd, .dev pa mir =>
    if s.detGrid grid && !(s.red.get (pa / 128)).live && s.redFull (s.homeDie pa) then some (pa, mir) else none
  | _, _ => none
/-- The lanes of one plane issue in ascending order (R225), and the FADDs that wait at their home. -/
def State.atomLanes (s : State) (op : AtomOp) (o c a d : Nat) (ps : List (Nat × Place)) : State × List HeldAdd :=
  ps.foldl
    (fun (r : State × List HeldAdd) x =>
      let t := r.1
      let po := (regs d op.operands).any fun r => s.vp r x.1
      match t.addWaits t.cgrid op x.2 with
      | some (pa, mir) =>
        (t, r.2 ++ [{ lane := x.1, va := s.gaddr a x.1, pa := pa, mir := mir, reg := d, x := s.v d x.1, poison := po, order := o, scope := c }])
      | none =>
        let y := t.rmw (some t.cgrid) t.cur.gid (t.atomEvent (laneBit x.1) o c) op x.2 (s.atomArgs op d x.1) po
        (y.2.2.setVs d x.1 (op.result y.1) y.2.1, r.2))
    (s, [])
/-- A FADD that waited is performed; a lane that has died since takes no result (R246, R377). -/
def State.lateAdd (s : State) (gid : Nat) (x : HeldAdd) : State :=
  let e : Event := { by_ := s.lanesAt gid (laneBit x.lane), scope := x.scope, acq := decide (x.order = 1 ∨ x.order = 3)
                     rel := decide (x.order = 2 ∨ x.order = 3) }
  let r := s.rmw (some (s.gridOf (s.g gid))) gid e .fadd (.dev x.pa x.mir) [x.x] x.poison
  r.2.2.updG gid fun g => if inMask g.dead x.lane then g else g.setV x.reg x.lane (w32 r.1) r.2.1
/-- Some FADD of a group waits at its home, or an atomic or an acquire of it for the boundary. Until it is performed, the
group's instructions that access memory, or release, are not ready: they follow it (R217, R246, R405).
DESIGN CHOICE, log entry 122. -/
def Group.adding (g : Group) : Bool :=
  g.inflight.any fun a => !a.adds.isEmpty || a.binds.any fun b => b.away && (b.acq || b.op.isSome)
/-- The number of an operation, as `AtomOp.ofNum` reads it. -/
def AtomOp.num (op : AtomOp) : Nat := ((List.range 16).find? fun k => decide (AtomOp.ofNum k = op)).getD 0
/-- An atomic of some lanes to a peer waits for the boundary; in their program order it stands here (R405). -/
def State.sendAtom (s : State) (file : RegFile) (m : LaneMask) (o c d : Nat) (op : AtomOp) (p : Place) (xs : List Word)
    (po : Bool) (va : Nat) : State × Bind :=
  let e := s.atomEvent m o c
  (s.note { e with at_ := p.key, len := op.size },
    { lanes := m, file := file, reg := d, n := op.size, place := p, scope := c, acq := e.acq, va := va, ev := some s.log.length
      since := s.log.length, away := true, op := some op.num, args := xs, poison := po })
/-- The atomics of some lanes to peers. -/
def State.sendAtoms (s : State) (op : AtomOp) (o c a d : Nat) (ps : List (Nat × Place)) : State × List Bind :=
  ps.foldl
    (fun (r : State × List Bind) x =>
      let y := r.1.sendAtom .v (laneBit x.1) o c d op x.2 (s.atomArgs op d x.1) ((regs d op.operands).any fun r => s.vp r x.1)
        (s.gaddr a x.1)
      (y.1, r.2 ++ [y.2])) (s, [])

/-- A narrow scope at a host or peer page is ILLEGAL once translation shows the page (R228). -/
def State.scopeNarrow (s : State) (c a n : Nat) : Bool :=
  match (s.globalPlace s.cg s.cg.priv .atomic a n).1 with
  | .ok (.peer _ _) => decide (c < 7)
  | .ok (.host _) => decide (c < 8)
  | _ => false

/-- The operand checks of an atomic (R227, R228). -/
def atomCheck (h : Hdr) (op : AtomOp) (c a : Nat) (s : State) : Option Trap :=
  let as := s.gaddrs h a
  if as.any fun x => s.scopeNarrow c x.2 op.size then some s.illegal
  else s.globalTrap op.size (fun x => decide (x % op.size = 0)) as

/-- One plane issue of an atomic (R225), performed by the primary of a pair. The members compare their stores first where it is a
release (R386). DEDUCED, log entry 42. -/
def atomAct (h : Hdr) (op : AtomOp) (o c a d : Nat) (s : State) : State :=
  let s := if o = 2 ∨ o = 3 then s.pairFlush s.cur.gid else s
  match s.resolve .atomic op.size (s.gaddrs h a) with
  | (.error t, u) => u.pushFault 3 t
  | (.ok ps, u) =>
    let u := u.pairOrder s.cur.gid (ps.map fun x => (x.2, op.size))
    let r := u.atomLanes op o c a d (ps.filter fun x => !u.goesAway x.2)
    let far := r.1.sendAtoms op o c a d (ps.filter fun x => u.goesAway x.2)
    far.1.pushBound { s.accessOf 3 .atomic (ps.map fun x => (x.1, x.2, s.gaddr a x.1)) (destV d (op.size / 4) (s.laneActive h)) with
      adds := r.2, binds := far.2 }

/-- One plane issue of an atomic with an order and a scope. `i` is an instruction with the same operands and
rules. -/
def atom (i : Instr) (h : Hdr) (op : AtomOp) (o c a d : Nat) : State → State :=
  laneMem i h (pairPoison h a) (atomCheck h op c a) (State.roomFor 3) (atomAct h op o c a d)

/-- ATOM.ADD (R224). -/
def execAtomAdd (h : Hdr) (o c a d : Nat) (s : State) : Host.Outcome State Fault Refusal :=
  perform s (atom (.atomAdd h o c a d) h .add o c a d)
/-- ATOM.AND (R224). -/
def execAtomAnd (h : Hdr) (o c a d : Nat) (s : State) : Host.Outcome State Fault Refusal :=
  perform s (atom (.atomAdd h o c a d) h .and o c a d)
/-- ATOM.OR (R224). -/
def execAtomOr (h : Hdr) (o c a d : Nat) (s : State) : Host.Outcome State Fault Refusal :=
  perform s (atom (.atomAdd h o c a d) h .or o c a d)
/-- ATOM.XOR (R224). -/
def execAtomXor (h : Hdr) (o c a d : Nat) (s : State) : Host.Outcome State Fault Refusal :=
  perform s (atom (.atomAdd h o c a d) h .xor o c a d)
/-- ATOM.SMIN (R224). -/
def execAtomSmin (h : Hdr) (o c a d : Nat) (s : State) : Host.Outcome State Fault Refusal :=
  perform s (atom (.atomAdd h o c a d) h .smin o c a d)
/-- ATOM.SMAX (R224). -/
def execAtomSmax (h : Hdr) (o c a d : Nat) (s : State) : Host.Outcome State Fault Refusal :=
  perform s (atom (.atomAdd h o c a d) h .smax o c a d)
/-- ATOM.UMIN (R224). -/
def execAtomUmin (h : Hdr) (o c a d : Nat) (s : State) : Host.Outcome State Fault Refusal :=
  perform s (atom (.atomAdd h o c a d) h .umin o c a d)
/-- ATOM.UMAX (R224). -/
def execAtomUmax (h : Hdr) (o c a d : Nat) (s : State) : Host.Outcome State Fault Refusal :=
  perform s (atom (.atomUmax h o c a d) h .umax o c a d)
/-- ATOM.EXCH (R224). -/
def execAtomExch (h : Hdr) (o c a d : Nat) (s : State) : Host.Outcome State Fault Refusal :=
  perform s (atom (.atomExch h o c a d) h .exch o c a d)
/-- ATOM.CAS (R224). -/
def execAtomCas (h : Hdr) (o c a d : Nat) (s : State) : Host.Outcome State Fault Refusal :=
  perform s (atom (.atomCas h o c a d) h .cas o c a d)
/-- ATOM.FADD (R226). -/
def execAtomFadd (h : Hdr) (o c a d : Nat) (s : State) : Host.Outcome State Fault Refusal :=
  perform s (atom (.atomFadd h o c a d) h .fadd o c a d)
/-- ATOM.FMIN (R226). -/
def execAtomFmin (h : Hdr) (o c a d : Nat) (s : State) : Host.Outcome State Fault Refusal :=
  perform s (atom (.atomFmin h o c a d) h .fmin o c a d)
/-- ATOM.FMAX (R226). -/
def execAtomFmax (h : Hdr) (o c a d : Nat) (s : State) : Host.Outcome State Fault Refusal :=
  perform s (atom (.atomFmax h o c a d) h .fmax o c a d)
/-- ATOM.ADD64 (R224). -/
def execAtomAdd64 (h : Hdr) (o c a d : Nat) (s : State) : Host.Outcome State Fault Refusal :=
  perform s (atom (.atomAdd64 h o c a d) h .add64 o c a d)
/-- ATOM.EXCH64 (R224). -/
def execAtomExch64 (h : Hdr) (o c a d : Nat) (s : State) : Host.Outcome State Fault Refusal :=
  perform s (atom (.atomExch64 h o c a d) h .exch64 o c a d)
/-- ATOM.CAS64 (R224). -/
def execAtomCas64 (h : Hdr) (o c a d : Nat) (s : State) : Host.Outcome State Fault Refusal :=
  perform s (atom (.atomCas64 h o c a d) h .cas64 o c a d)

/-! ### SMEM (R194) -/

/-- The global address of the scalar pair. -/
def State.saddr (s : State) (a : Nat) : Nat := s.s2 a
/-- The operand checks of SMEM; there is one access, reported as lane 0. -/
def smemCheck (n a : Nat) (s : State) : Option Trap :=
  s.globalTrap n (fun x => oneSector x n) [(0, s.saddr a)]

/-- The scope of a scope class (R43, R215). -/
def classScope (c : Nat) : Nat := [3, 4, 6, 9].getD c 9

/-- A load of n/4 words into sd (R194), at a scope class. -/
def smemLoad (n c : Nat) (acq : Bool) (d a : Nat) (s : State) : State :=
  match s.resolve .load n [(0, s.saddr a)] with
  | (.ok [(_, p)], u) =>
    let r := u.groupRead u.cur.gid u.liveS (classScope c) acq p n
    let po := u.groupPo u.cur.gid p n
    let t := (List.range (n / 4)).foldl (fun t k => t.setS (d + k) (w32 (leNat ((r.1.drop (4 * k)).take 4))) po) r.2
    t.pushBound { s.accessOf 5 .load [(0, p, s.saddr a)] ((regs d (n / 4)).map fun r => (.s, r, 1#32)) with
      binds := [{ lanes := u.liveS, file := .s, reg := d, n := n, place := p, scope := classScope c, acq := acq, va := s.saddr a
                  ev := if u.writes = [] then none else some u.log.length, since := u.log.length, away := u.goesAway p }] }
  | (.error t, u) => u.pushFault 5 t
  | (_, u) => u

/-- A store of n/4 words from sd (R194), at a scope class. -/
def smemStore (n c : Nat) (rel : Bool) (d a : Nat) (s : State) : State :=
  match s.resolve .store n [(0, s.saddr a)] with
  | (.ok [(_, p)], u) =>
    (u.groupStore u.cur.gid p ((regs d (n / 4)).flatMap fun r => wordBytes (u.s r)) false (classScope c) rel (s.saddr a)).push
      (s.accessOf 5 .store [(0, p, s.saddr a)] [])
  | (.error t, u) => u.pushFault 5 t
  | (_, u) => u

/-- S.ATOM.ADD and S.ATOM.CAS (R194). DEDUCED, log entry 41. -/
def smemAtom (op : AtomOp) (c d a : Nat) (s : State) : State :=
  match s.resolve .atomic 4 [(0, s.saddr a)] with
  | (.ok [(_, p)], u) =>
    let u := u.pairOrder s.cur.gid [(p, 4)]
    let acc := s.accessOf 5 .atomic [(0, p, s.saddr a)] [(.s, d, 1#32)]
    if u.goesAway p then
      let r := u.sendAtom .s u.liveS 0 (classScope c) d op p ((regs d op.operands).map u.s) false (s.saddr a)
      r.1.pushBound { acc with binds := [r.2] }
    else
    let r := u.rmw (some u.cgrid) u.cur.gid (u.atomEvent u.liveS 0 (classScope c)) op p ((regs d op.operands).map u.s) false
    (r.2.2.setS d (loW r.1) r.2.1).push acc
  | (.error t, u) => u.pushFault 5 t
  | (_, u) => u

/-- The operand checks of the scalar atomics: R228 holds of them too. DEDUCED, log entry 41. -/
def smemAtomCheck (c a : Nat) (s : State) : Option Trap :=
  if s.scopeNarrow (classScope c) (s.saddr a) 4 then some s.illegal else smemCheck 4 a s

/-- S.LD of n bytes. -/
def sload (i : Instr) (h : Hdr) (n c : Nat) (acq : Bool) (d a : Nat) : State → State :=
  scalarInstr i h (smemCheck n a) (State.roomFor 5) (smemLoad n c acq d a)
/-- S.ST of n bytes. -/
def sstore (i : Instr) (h : Hdr) (n c d a : Nat) : State → State :=
  scalarInstr i h (smemCheck n a) (State.roomFor 5) (smemStore n c false d a)

/-- S.LD.W (R194). -/
def execSLdW (h : Hdr) (c d a : Nat) (s : State) : Host.Outcome State Fault Refusal := perform s (sload (.sLdW h c d a) h 4 c false d a)
/-- S.LD.D (R194). -/
def execSLdD (h : Hdr) (c d a : Nat) (s : State) : Host.Outcome State Fault Refusal := perform s (sload (.sLdD h c d a) h 8 c false d a)
/-- S.LD.Q (R194). -/
def execSLdQ (h : Hdr) (c d a : Nat) (s : State) : Host.Outcome State Fault Refusal := perform s (sload (.sLdQ h c d a) h 16 c false d a)
/-- S.LD.O (R194): its address is a multiple of 32. -/
def execSLdO (h : Hdr) (c d a : Nat) (s : State) : Host.Outcome State Fault Refusal := perform s (sload (.sLdO h c d a) h 32 c false d a)
/-- S.ST.W (R194). -/
def execSStW (h : Hdr) (c d a : Nat) (s : State) : Host.Outcome State Fault Refusal := perform s (sstore (.sStW h c d a) h 4 c d a)
/-- S.ST.D (R194). -/
def execSStD (h : Hdr) (c d a : Nat) (s : State) : Host.Outcome State Fault Refusal := perform s (sstore (.sStD h c d a) h 8 c d a)
/-- S.ST.Q (R194). -/
def execSStQ (h : Hdr) (c d a : Nat) (s : State) : Host.Outcome State Fault Refusal := perform s (sstore (.sStQ h c d a) h 16 c d a)
/-- S.LD.ACQ.W (R194). -/
def execSLdAcqW (h : Hdr) (c d a : Nat) (s : State) : Host.Outcome State Fault Refusal :=
  perform s (sload (.sLdAcqW h c d a) h 4 c true d a)
/-- S.ST.REL.W (R194). -/
def execSStRelW (h : Hdr) (c d a : Nat) (s : State) : Host.Outcome State Fault Refusal :=
  perform s (scalarInstr (.sStRelW h c d a) h (smemCheck 4 a) (State.roomFor 5) fun t =>
    (smemStore 4 c true d a t).pairFlush t.cur.gid)
/-- S.ATOM.ADD (R194). -/
def execSAtomAdd (h : Hdr) (c d a : Nat) (s : State) : Host.Outcome State Fault Refusal :=
  perform s (scalarInstr (.sAtomAdd h c d a) h (smemAtomCheck c a) (State.roomFor 5) (smemAtom .add c d a))
/-- S.ATOM.CAS (R194). -/
def execSAtomCas (h : Hdr) (c d a : Nat) (s : State) : Host.Outcome State Fault Refusal :=
  perform s (scalarInstr (.sAtomCas h c d a) h (smemAtomCheck c a) (State.roomFor 5) (smemAtom .cas c d a))

/-! ### PREF (R204) -/

/-- PREF: nothing changes but the translations it may cache (R204, R209). Addresses that fault, lie in the window or
carry poison are dropped. -/
def prefAct (h : Hdr) (x : Nat) (s : State) : State :=
  (lanesOf (s.active h)).foldl
    (fun t l =>
      let a := pair (s.v x l) (s.v (x + 1) l)
      if s.vp x l ∨ s.vp (x + 1) l ∨ t.cc.inWindow a then t
      else (t.translate t.cg.core t.cg.priv .load a).2)
    s.advance

/-- PREF (R204). -/
def execPref (h : Hdr) (x : Nat) (s : State) : Host.Outcome State Fault Refusal :=
  perform s (ctlInstr (.pref h x) h State.liveNamed noLane (fun _ => none) (prefAct h x))

/-! ### What lands after its issue (R196, R218, R405) -/

/-- A group takes the words of a load or an atomic, in those of its lanes that have not died (R377). -/
def Group.takeWords (g : Group) (b : Bind) (ws : List Word) (po : Bool) : Group :=
  ws.zipIdx.foldl
    (fun g w => match b.file with
      | .s => g.setS (b.reg + w.2) w.1 po
      | _ => (lanesOf (b.lanes &&& ~~~ g.dead)).foldl (fun g l => g.setV (b.reg + w.2) l w.1 po) g) g
/-- The registers that the bytes of a load give. -/
def Bind.words (b : Bind) (bs : List Byte) : List Word :=
  match b.file with
  | .s => (List.range (b.n / 4)).map fun k => w32 (leNat ((bs.drop (4 * k)).take 4))
  | _ => loadWords b.size bs
/-- A load returns what its lanes may see now; its event stands where its issue put it. -/
def State.landLoad (s : State) (gid : Nat) (b : Bind) : State :=
  let q := s.lanesAt gid b.lanes
  let x := s.peek { q := q, draw := s.free } b.place b.n
  let e : Event := { by_ := q, scope := q.scopeAt b.place b.scope, acq := b.acq, at_ := b.place.key, len := b.n, ret := x.2 }
  let e : Event := { e with from_ := if b.acq then s.syncs x.2 e else [] }
  let t : State := { s with free := s.free + 1 }
  let t := match b.ev with
    | some k => t.renote { e with num := k }
    | none => t.note e
  t.updG gid fun g => g.takeWords b (b.words (s.forwarded gid b.place x.1)) (s.groupPo gid b.place b.n)
/-- A load that has not landed may come to return a later write (R218): its lanes have neither synchronised nor touched its
bytes since. DESIGN CHOICE, log entry 133. -/
def State.mayLand (s : State) (gid : Nat) (b : Bind) : Bool :=
  !b.away && b.op.isNone && decide (s.writes ≠ []) && !s.paired gid &&
    !(s.log.any fun e => decide (b.since ≤ e.num ∧ b.ev ≠ some e.num) && e.by_.same (s.lanesAt gid b.lanes) &&
      (e.acq || e.rel || e.fence || e.touches b.place.key b.n))
/-- A flit of a load or an atomic is performed at its peer, if a route leads there (R405). -/
def State.performAway (s : State) (gid : Nat) (b : Bind) : State :=
  match b.place, b.op with
  | .peer r _, some k =>
    match s.log.find? fun e => decide (b.ev = some e.num) with
    | some e =>
      if s.unreachable r then s
      else
        let y := s.rmw none gid e (AtomOp.ofNum k) b.place b.args b.poison b.ev
        y.2.2.updG gid fun g => g.takeWords b ((AtomOp.ofNum k).result y.1) y.2.1
    | none => s
  | .peer r _, none => if s.unreachable r then s else s.landLoad gid b
  | _, _ => s
/-- What waited for the boundary is performed (R405). -/
def State.performOut (s : State) (o : PeerOut) : State :=
  match o.store with
  | some (x, k) =>
    match s.log.find? fun e => decide (e.num = k) with
    | some e => if s.unreachable x.who then s else s.writeAs none e x.place x.bytes x.poison (some k)
    | none => s
  | none =>
    let mine (a : Access) : Bool := decide (a.path = o.path ∧ a.seq = o.seq)
    let bs := ((s.g o.gid).inflight.filter mine).flatMap fun a => a.binds.filter (·.away)
    (bs.foldl (fun t b => t.performAway o.gid b) s).updG o.gid fun g =>
      { g with inflight := g.inflight.map fun a => if mine a then { a with binds := a.binds.filter fun b => !b.away } else a }

/-- What the answers of the memory system to a group on path 4 are known by. -/
def answerTag (gid n : Nat) : List Nat := [13, gid, n]
/-- An answer comes to a group's scratchpad, as a write of no lane (R345, R427): the latest to its bytes.
DEDUCED, log entry 134. -/
def State.landAnswer (s : State) (gid : Nat) (a : Access) : State :=
  match a.answer with
  | some (p, bs) =>
    s.topWrite (some (s.gridOf (s.g gid))) { by_ := { kind := 7 }, scope := 6, tag := answerTag gid a.seq } p bs
      (s.g gid).poisonPass.isSome
  | none => s
/-- A request of the issuing group is counted on path 4, with its answer. DEDUCED, log entry 134. -/
def State.pushAnswer (s : State) (p : Place) (bs : List Byte) : State :=
  (s.pairOrder s.cur.gid [(p, bs.length)]).push { path := 4, answer := some (p, bs) }

/-! ### Completion (R196) -/

/-- The pending results of an access have landed when it completes; a WAITC has still to cover them (R64). -/
def landed (a : Access) (p : Pend) : Pend :=
  if p.onPath ∧ p.path = a.path ∧ p.seq = a.seq then { p with landed := true } else p

/-- An access of a group completes. A fault that it reports is taken as a trap, unless a region restart absorbs
it or the group has ended (R362, R368). DEDUCED, log entry 40. -/
def State.complete (s : State) (gid : Nat) (a : Access) : State :=
  let s := (a.binds.filter (s.mayLand gid)).foldl (fun t b => t.landLoad gid b) (s.landAnswer gid a)
  let s1 := s.updG gid fun g => { g with pend := g.pend.map (landed a) }
  match a.fault with
  | none => s1
  | some t =>
    match (s1.g gid).stop with
    | .running => s1.trap gid t
    | .enter _ => (s1.updG gid fun g => { g with stop := .running }).trap gid t
    | _ => s1

/-- Remove the oldest access counted on a path. -/
def dropOldest (path : Nat) : List Access → Option (Access × List Access)
  | [] => none
  | a :: r => if a.path = path then some (a, r) else (dropOldest path r).map fun x => (x.1, a :: x.2)

/-- An access may complete: its tick has passed, its rank can be reached or has been given up, its FADDs have been
performed, and, where it reports a fault, no split of its group is between the plane issues of an instruction (R108). -/
def State.mayComplete (s : State) (gid : Nat) (a : Access) : Bool :=
  !a.hold && decide (a.notBefore ≤ s.bounds) && a.adds.isEmpty &&
    if a.fault.isSome then (List.range 4).all fun k => decide (((s.g gid).splits.get k).more = [])
    else a.peers.all fun x => !s.routeWaits x.1

/-- The next FADD that an access waits for is performed, when its die takes the line (R246). -/
def State.nextAdd (s : State) (gid : Nat) (a : Access) : State :=
  match a.adds with
  | x :: r =>
    if (s.addWaits (s.gridOf (s.g gid)) .fadd (.dev x.pa x.mir)).isSome then s
    else (s.lateAdd gid x).updG gid fun g =>
      { g with inflight := g.inflight.map fun b => if b.path = a.path ∧ b.seq = a.seq then { b with adds := r } else b }
  | [] => s

/-- ACCESS_COMPLETE (R196): the oldest access counted on a path of a group completes, or performs what it waited for. A store
that a pair's compare buffer holds counts as complete at once. DESIGN CHOICE, log entry 119. -/
def execAccessComplete (gid path : Nat) (s : State) : Host.Outcome State Fault Refusal :=
  event (match dropOldest path (s.g gid).inflight with
    | some (a, rest) =>
      if ¬ a.adds.isEmpty then s.nextAdd gid a
      else if s.mayComplete gid a then ((s.updG gid fun g => { g with inflight := rest }).complete gid a).replayWhenDrained gid
      else s
    | none => s)

end Sys2Proof.Machine
end

