-- ==== Sys2Proof/Machine/Control.lean ====
section
/-! DEFINITION. Control flow, splits and planes (03_control.md R82-R109), and the lane LFSR instructions that act
in the lanes of a split (05_numbers.md R153-R155). -/

namespace Sys2Proof.Machine

open Sys2Proof

/-! ### Transfers (R85) -/

/-- The next target in ascending order takes the lowest free slot, or its lanes are held (R85). -/
def Group.placeTarget (g : Group) (here stl t : Nat) (m : LaneMask) : Group :=
  match g.freeSlot with
  | some k => { g with splits := g.splits.put k (Split.at t m stl) }
  | none =>
    { g with held := g.held ||| m
             holdoff := (lanesOf m).foldl (fun x l => x.put l here) g.holdoff }

/-- The lanes of a set with a target. -/
def lanesTo (m : LaneMask) (t : Nat → Nat) (x : Nat) : LaneMask := maskOf fun l => inMask m l && decide (t l = x)

/-- Resolve a transfer of the issuing split: every lane of Live(S) has a target (R85). A target at or above 2^20 is kept
whole: the fetch there is ILLEGAL (R39). DESIGN CHOICE, log entry 108. -/
def State.transfer (s : State) (h : Hdr) (t : Nat → Nat) : State :=
  let m := s.liveS
  match distinctAsc ((lanesOf m).map t) with
  | [] => s
  | t0 :: rest =>
    let s1 := s.updCS fun x => { x with offset := t0, mask := lanesTo m t t0, sig := crcInit, waitOn := none }
    s1.updCG fun g => rest.foldl (fun g x => g.placeTarget s.cur.here h.stl x (lanesTo m t x)) g

/-- A signed offset in parcels from the instruction (R95). -/
def State.relTarget (s : State) (o : Nat) : Int := s.cur.here + 2 * sext 18 o
/-- Whether lane l takes a guarded transfer (R86). -/
def State.takes (s : State) (h : Hdr) (l : Nat) : Bool := inMask (s.ctlLanes h) l
/-- A taken target below 0 is ILLEGAL (R95). -/
def belowZero (h : Hdr) (o : Nat) (s : State) : Option Trap :=
  if s.ctlLanes h ≠ 0#32 ∧ s.relTarget o < 0 then some s.illegal else none
/-- An odd target in a taking lane is ILLEGAL (R97, R99). -/
def oddTarget (h : Hdr) (a : Nat) (s : State) : Option Trap :=
  if (lanesOf (s.ctlLanes h)).any fun l => (s.v a l).getLsbD 0 then some s.illegal else none

/-- Write the link register in the lanes that call (R96). -/
def State.link (s : State) (h : Hdr) : State :=
  forLanes (s.ctlLanes h) s fun t l => t.setV 63 l (w32 s.cur.next) false

/-- BRA (R95). -/
def execBra (h : Hdr) (o : Nat) (s : State) : Host.Outcome State Fault Refusal :=
  perform s (ctlInstr (.bra h o) h State.liveS noLane (belowZero h o) fun s =>
    s.transfer h fun l => if s.takes h l then (s.relTarget o).toNat else s.cur.next)

/-- CALL (R96). -/
def execCall (h : Hdr) (o : Nat) (s : State) : Host.Outcome State Fault Refusal :=
  perform s (ctlInstr (.call h o) h State.liveS noLane (belowZero h o) fun s =>
    (s.link h).transfer h fun l => if s.takes h l then (s.relTarget o).toNat else s.cur.next)

/-- The per-lane target of BRX, CALLX and RET. -/
def State.regTarget (s : State) (h : Hdr) (a l : Nat) : Nat :=
  if s.takes h l then (s.v a l).toNat % 2 ^ 20 else s.cur.next

/-- BRX (R99). -/
def execBrx (h : Hdr) (a : Nat) (s : State) : Host.Outcome State Fault Refusal :=
  perform s (ctlInstr (.brx h a) h State.liveS (State.ctlPoison h a) (oddTarget h a) fun s =>
    s.transfer h (s.regTarget h a))

/-- CALLX (R97): the target is read before v63 is written. -/
def execCallx (h : Hdr) (a : Nat) (s : State) : Host.Outcome State Fault Refusal :=
  perform s (ctlInstr (.callx h a) h State.liveS (State.ctlPoison h a) (oddTarget h a) fun s =>
    (s.link h).transfer h (s.regTarget h a))

/-- RET (R98): BRX with v63. -/
def execRet (h : Hdr) (s : State) : Host.Outcome State Fault Refusal :=
  perform s (ctlInstr (.ret h) h State.liveS (State.ctlPoison h 63) (oddTarget h 63) fun s =>
    s.transfer h (s.regTarget h 63))

/-! ### MBR (R100) -/

/-- An arm holds in lane l. -/
def State.armHolds (s : State) (l : Nat) (a : Arm) : Bool := s.p a.p l == !a.sense
/-- The arm that decides lane l: the first that holds. -/
def State.decides (s : State) (arms : List Arm) (l : Nat) : Option Arm := arms.find? (s.armHolds l)
/-- Lane l reads a poisoned arm predicate before an arm decides it (R100, R377). -/
def State.armPoison (s : State) (l : Nat) : List Arm → Bool
  | [] => false
  | a :: r => s.pp a.p l || (!s.armHolds l a && s.armPoison l r)
/-- The target of a lane. -/
def State.armTarget (s : State) (h : Hdr) (arms : List Arm) (l : Nat) : Int :=
  if s.takes h l then
    match s.decides arms l with
    | some a => s.relTarget a.off
    | none => s.cur.next
  else s.cur.next

/-- MBR (R100). -/
def execMbr (h : Hdr) (arms : List Arm) (s : State) : Host.Outcome State Fault Refusal :=
  perform s (ctlInstr (.mbr h arms) h State.liveS
    (fun s => maskOf fun l => inMask (s.ctlLanes h) l && s.armPoison l arms)
    (fun s => if (lanesOf s.liveS).any fun l => decide (s.armTarget h arms l < 0) then some s.illegal else none)
    fun s => s.transfer h fun l => (s.armTarget h arms l).toNat)

/-! ### JOIN, EXIT, YIELD, NOP -/

/-- No other live split, and no held lane, stands at a lower offset (R101). -/
def State.joinReady (s : State) : Bool :=
  let o := s.cs.offset
  (s.cg.liveSlots.all fun k => decide (k = s.cur.slot) || decide (o ≤ (s.cg.splits.get k).offset)) &&
    (lanesOf s.cg.held).all fun l => decide (o ≤ s.cg.holdoff.get l)

/-- The splits' signature restarts (R75). -/
def State.resetSig (s : State) : State := s.updCS fun x => if x.valid then { x with sig := crcInit } else x

/-- JOIN (R101): while it waits, JOINW is 1; once it has issued JOINW is 0, its guard passing or not. -/
def execJoin (h : Hdr) (s : State) : Host.Outcome State Fault Refusal :=
  perform s fun s =>
    let t := scalarInstr (.join h) h (fun _ => none) State.joinReady (fun u => u) s
    if t.cur.trapped then t
    else if t.cur.issued then (t.updCS fun x => { x with joinw := false }).resetSig
    else
      { (t.updCS fun x => { x with joinw := true }) with
        cur := { t.cur with moved := !t.cs.joinw } }

/-- Every lane has exited or died, and none is held (R102). -/
def Group.finished (g : Group) : Bool := decide (g.alive = 0#32)

/-- The lanes passing the guard leave (R102). An exit before a cluster launch's required CBAR is fatal (R343). A pair
compares, and a poison pass ends (R372, R386). -/
def exitAct (h : Hdr) (s : State) : State :=
  let gid := s.cur.gid
  let out := s.ctlLanes h
  let after (g : Group) : Group := { (g.dropLanes out) with exited := g.exited ||| out }
  if out = 0#32 then s.advance
  else
    let s := s.pairFlush gid
    let g' := after s.cg
    if g'.finished then
      if s.cg.poisonPass.isSome then s.endPoisonPass gid
      else if 1 < (s.paramsOf s.cg).clust ∧ ¬ s.cg.cbarPast then s.trapCur (s.mkTrap 0x17 0 0#32)
      else (s.updCG after).endGroup gid true
    else ((s.advance.updCG after).settleBars s.cg.bid)

/-- EXIT (R102). -/
def execExit (h : Hdr) (s : State) : Host.Outcome State Fault Refusal :=
  perform s (ctlInstr (.exit h) h State.liveS noLane (fun _ => none) (exitAct h))

/-- YIELD (R103). -/
def execYield (h : Hdr) (s : State) : Host.Outcome State Fault Refusal :=
  perform s (scalarOnly (.yield h) h fun t => t.updCS fun x => { x with age := 0, yielded := true })

/-- NOP (R104). -/
def execNop (h : Hdr) (s : State) : Host.Outcome State Fault Refusal :=
  perform s (scalarOnly (.nop h) h fun t => t)

/-! ### Planes (R105, R106) -/

/-- Set the planes of the lanes passing the guard; a plane the object lacks raises PLANE_ALIGN, sub-code 2,
naming the plane that the lowest such lane asked for. -/
def planeCheck (h : Hdr) (f : State → Nat → Nat) (s : State) : Option Trap :=
  match (lanesOf (s.ctlLanes h)).find? fun l => decide ((s.codeOf s.cg).planes ≤ f s l) with
  | some l => some (s.mkTrap 0x04 2 (w32 (f s l)))
  | none => none
/-- The lanes passing the guard take their planes. -/
def planeAct (h : Hdr) (f : State → Nat → Nat) (s : State) : State :=
  (s.updCG fun g => { g with plane := (lanesOf (s.ctlLanes h)).foldl (fun m l => m.put l (f s l)) g.plane }).advance

/-- PSET (R105). -/
def execPset (h : Hdr) (a : Nat) (s : State) : Host.Outcome State Fault Refusal :=
  let f (s : State) (l : Nat) : Nat := (s.v a l).toNat % 4
  perform s (ctlInstr (.pset h a) h State.liveS (State.ctlPoison h a) (planeCheck h f) (planeAct h f))
/-- PSETI (R105). -/
def execPseti (h : Hdr) (x : Nat) (s : State) : Host.Outcome State Fault Refusal :=
  perform s (ctlInstr (.pseti h x) h State.liveS noLane (planeCheck h fun _ _ => x) (planeAct h fun _ _ => x))
/-- PGET (R106). -/
def execPget (h : Hdr) (d : Nat) (s : State) : Host.Outcome State Fault Refusal :=
  perform s (ctlInstr (.pget h d) h State.liveS noLane (fun _ => none) fun s =>
    (forLanes (s.ctlLanes h) s fun t l => t.setV d l (w32 (s.cg.plane.get l)) false).advance)
/-- PMASK (R106). -/
def execPmask (h : Hdr) (y x : Nat) (s : State) : Host.Outcome State Fault Refusal :=
  perform s (ctlInstr (.pmask h y x) h State.liveS noLane (fun _ => none) fun s =>
    (forLanes (s.ctlLanes h) s fun t l => t.setP y l (decide (s.cg.plane.get l = x))).advance)

/-- PCHK (R379): the predicate is clean, and reading poison here does nothing. -/
def execPchk (h : Hdr) (y a : Nat) (s : State) : Host.Outcome State Fault Refusal :=
  perform s (ctlInstr (.pchk h y a) h State.liveS noLane (fun _ => none) fun s =>
    (forLanes (s.ctlLanes h) s fun t l => t.setP y l (s.vp a l)).advance)

/-! ### The lane LFSR and the overflow table (R153-R155) -/

/-- OVTLD (R153): the table governs what issues from the next cycle on. -/
def execOvtld (h : Hdr) (x : Nat) (s : State) : Host.Outcome State Fault Refusal :=
  perform s (scalarInstr (.ovtld h x) h
    (fun s => if (s.s x).toNat / 2 ^ 26 ≠ 0 then some s.illegal else none) (fun _ => true)
    fun s => s.updCG fun g => { g with ovfNext := some (s.s x) })
/-- SRSEED (R154). A lane whose seed carries poison takes the seed: the LFSR has no mark. -/
def execSrseed (h : Hdr) (a : Nat) (s : State) : Host.Outcome State Fault Refusal :=
  perform s (ctlInstr (.srseed h a) h State.liveS noLane (fun _ => none) fun s =>
    (forLanes (s.ctlLanes h) s fun t l => t.setLfsr l (if s.v a l = 0#32 then 1#32 else s.v a l)).advance)
/-- SRGET (R155). -/
def execSrget (h : Hdr) (d : Nat) (s : State) : Host.Outcome State Fault Refusal :=
  perform s (ctlInstr (.srget h d) h State.liveS noLane (fun _ => none) fun s =>
    (forLanes (s.ctlLanes h) s fun t l => t.setV d l (s.lfsr l) false).advance)

/-! ### Merging and held lanes (R87, R88) -/

/-- The split has not begun the plane issues of its next instruction (R87). -/
def Split.whole (x : Split) : Bool := decide (x.more = []) && x.ovf.isNone
/-- Two live splits of a group that must merge: the lowest pair of slots with equal offsets (R87). -/
def Group.mergePair (g : Group) : Option (Nat × Nat) :=
  [(0, 1), (0, 2), (0, 3), (1, 2), (1, 3), (2, 3)].find? fun x =>
    let a := g.splits.get x.1
    let b := g.splits.get x.2
    a.valid && b.valid && decide (a.offset = b.offset) && a.whole && b.whole

/-- What two splits that merge have begun: the lanes of both that have arrived in the later phase of the barrier stay so
(R341). DEDUCED, log entry 47. -/
def Wait.join : Option Wait → Option Wait → Option Wait
  | some (.bar id p m), some (.bar _ q n) => some (if p = q then .bar id p (m ||| n) else if p < q then .bar id q n else .bar id p m)
  | some w, _ => some w
  | none, w => w

/-- The union of two splits in the lower slot (R87). -/
def Group.mergeSlots (g : Group) (i j : Nat) : Group :=
  let a := g.splits.get i
  let b := g.splits.get j
  { g with splits := (g.splits.put i
      { valid := true, offset := a.offset, mask := a.mask ||| b.mask, stall := max a.stall b.stall, sig := crcInit
        heldTo := max a.heldTo b.heldTo, waitOn := Wait.join a.waitOn b.waitOn }).put j {} }

/-- Merge until no two live splits share an offset (R87): at most three times. -/
def State.mergeSome : Nat → State → Nat → State
  | 0, s, _ => s
  | n + 1, s, gid =>
    match (s.g gid).mergePair with
    | some (i, j) => State.mergeSome n (s.updG gid fun g => g.mergeSlots i j) gid
    | none => s

/-- SPLIT_MERGE (R87). -/
def execSplitMerge (gid : Nat) (s : State) : Host.Outcome State Fault Refusal :=
  event (if (s.g gid).stop = .running then s.mergeSome 3 gid else s)

/-- Held lanes join the live splits that stand at their branch (R88). -/
def Group.heldJoin (g : Group) : Group :=
  (lanesOf g.held).foldl
    (fun g l =>
      match (List.range 4).find? fun k => (g.splits.get k).valid && decide ((g.splits.get k).offset = g.holdoff.get l) with
      | some k =>
        { g with held := g.held &&& ~~~ (laneBit l)
                 splits := g.splits.upd k fun x => { x with mask := x.mask ||| laneBit l } }
      | none => g)
    g

/-- The held lanes at the lowest branch form a split in the lowest free slot (R88). -/
def Group.heldForm (g : Group) : Group :=
  match (lanesOf g.held).map g.holdoff.get, g.freeSlot with
  | o :: r, some k =>
    let low := r.foldl min o
    let m := maskOf fun l => inMask g.held l && decide (g.holdoff.get l = low)
    { g with held := g.held &&& ~~~ m, splits := g.splits.put k (Split.at low m) }
  | _, _ => g

/-- HELD_LANE_RETURN (R88). -/
def execHeldLaneReturn (gid : Nat) (s : State) : Host.Outcome State Fault Refusal :=
  event (if (s.g gid).stop = .running then s.updG gid fun g => g.heldJoin.heldForm else s)

end Sys2Proof.Machine
end

