-- ==== Sys2Proof/Machine/Barrier.lean ====
section
/-! DEFINITION. Block, cluster and stage barriers (12_launch.md R340-R344) and the tag table (07_memory.md
R200-R203). -/

namespace Sys2Proof.Machine

open Sys2Proof

/-! ### BAR, BAR.ARV and CBAR -/

/-- The number of the cluster launch of the issuing group's block (R352). -/
def State.clusterKey (s : State) : Nat := s.cb.blk / max 1 (s.paramsOf s.cg).clust
/-- A barrier of the issuing group's block, 16 for the cluster barrier (R341, R343). -/
def State.barOf (s : State) (id : Nat) : Barrier :=
  if id = 16 then (s.gr s.cgrid).cbar.get s.clusterKey else s.cb.bars.get id
/-- Replace it. -/
def State.setBar (s : State) (id : Nat) (x : Barrier) : State :=
  if id = 16 then s.updGr s.cgrid fun g => { g with cbar := g.cbar.put s.clusterKey x }
  else s.updB s.cg.bid fun b => { b with bars := b.bars.put id x }

/-- The phase the split waits for at this barrier, and its lanes that have arrived by the instruction it waits at.
DEDUCED, log entry 47. -/
def State.barWait (s : State) (id : Nat) : Option (Nat × LaneMask) :=
  match s.cs.waitOn with
  | some (.bar j phase m) => if j = id then some (phase, m) else none
  | _ => none
/-- Its lanes that have arrived by that instruction: none for a split that has not. -/
def State.barLanes (s : State) (id : Nat) : LaneMask := ((s.barWait id).map Prod.snd).getD 0#32
/-- The lanes that have still to arrive: those that merged into a waiting split, or one that had yet to leave (R87). -/
def State.barNew (s : State) (id : Nat) : LaneMask := s.liveS &&& ~~~ s.barLanes id
/-- The phase the split waits for is over. -/
def State.barPast (s : State) (id : Nat) : Bool := (s.barWait id).any fun w => decide ((s.barOf id).phase ≠ w.1)
/-- It is over for every lane of the split, which departs. -/
def State.barOver (s : State) (id : Nat) : Bool := s.barPast id && decide (s.barNew id = 0#32)
/-- A lane that has still to arrive is marked for the open phase: the split is not ready until it completes (R341). -/
def State.barHeld (s : State) (id : Nat) : Bool :=
  (s.barOf id).isOpen && decide ((s.barOf id).marks.get s.cur.gid &&& s.barNew id ≠ 0#32)
/-- The split waits with every lane arrived, and the phase has not ended. -/
def State.barWaits (s : State) (id : Nat) : Bool := (s.barWait id).isSome && decide (s.barNew id = 0#32)

/-- The operand checks of a BAR that arrives (R342). -/
def barCheck (id : Nat) (count : State → Nat) (s : State) : Option Trap :=
  if s.barOver id || s.barWaits id || s.barHeld id then none
  else if (s.paramsOf s.cg).groups < count s ∨ ((s.barOf id).isOpen ∧ (s.barOf id).count ≠ count s) then some s.illegal
  else none

/-- The scope of a barrier's arrivals and departures (R215, R238): CORE in a block on one core. -/
def State.barScope (s : State) (id : Nat) : Nat := if id = 16 ∨ 1 < s.cb.members.length then 4 else 3
/-- What the arrivals of a phase are known by. -/
def State.barTag (s : State) (id phase : Nat) : List Nat :=
  if id = 16 then [1, s.cgrid, s.clusterKey, phase] else [0, s.cg.bid, id, phase]
/-- The live lanes of the issuing split. -/
def State.issuers (s : State) : Origin := s.lanesAt s.cur.gid s.liveS

/-- The split's lanes arrive (R341), each a release (R238); a pair has compared (R386). DEDUCED, log entry 47. -/
def State.barArrive (s : State) (id count : Nat) : State :=
  let s := s.pairFlush s.cur.gid
  let s := s.release s.issuers (s.barScope id) (s.barTag id (s.barOf id).phase)
  let x := s.barOf id
  let x := if x.isOpen then x else { x with isOpen := true, count := count, marks := [] }
  (s.setBar id { x with marks := x.marks.upd s.cur.gid fun m => m ||| s.liveS }).settleBars s.cg.bid

/-- Lanes depart from a phase: an acquire from each of its arrivals (R238). -/
def State.barLeave (s : State) (id phase : Nat) (lanes : LaneMask) : State :=
  let t := s.acquire (s.lanesAt s.cur.gid lanes) (s.barScope id) (s.tagged (s.barTag id phase))
  if id = 16 then t.updCG fun g => { g with cbarPast := true } else t
/-- The split departs from a phase. -/
def State.barDepart (s : State) (id phase : Nat) : State := (s.barLeave id phase s.liveS).advance

/-- BAR and CBAR (R341, R343): arrive, wait for the phase, depart. Where lanes have merged into a split whose phase is over,
the lanes that had waited depart from it, and the whole split arrives anew (R87). DEDUCED, log entry 47. -/
def barAct (id : Nat) (count : State → Nat) (s0 s : State) : State :=
  if s.barOver id then s.barDepart id (((s.barWait id).map Prod.fst).getD 0)
  else if s.barWaits id || s.barHeld id then s0.wait
  else
    let phase := (s.barOf id).phase
    let t := if s.barPast id then s.barLeave id (((s.barWait id).map Prod.fst).getD 0) (s.barLanes id) else s
    let t := t.barArrive id (count s)
    if (t.barOf id).phase ≠ phase then t.barDepart id phase else t.waitFor (.bar id phase (s.liveS ||| s.barLanes id))

/-- BAR (R340-R342). -/
def execBar (h : Hdr) (y x : Nat) (s : State) : Host.Outcome State Fault Refusal :=
  let count (s : State) : Nat := (s.s y).toNat
  perform s (scalarCore (.bar h y x) h (barCheck x count) (barAct x count))

/-- BAR.ARV (R340-R342): it arrives and goes on. -/
def execBarArv (h : Hdr) (y x : Nat) (s : State) : Host.Outcome State Fault Refusal :=
  let count (s : State) : Nat := (s.s y).toNat
  perform s (scalarCore (.barArv h y x) h (barCheck x count) fun s0 s =>
    if s.barHeld x then s0.wait else (s.barArrive x (count s)).advance)

/-- CBAR (R343). -/
def execCbar (h : Hdr) (s : State) : Host.Outcome State Fault Refusal :=
  perform s (scalarCore (.cbar h) h (fun _ => none) (barAct 16 fun _ => 0))

/-! ### Stage barriers (R344) -/

/-- The 16 bytes of a stage barrier. -/
def State.sbPlace (s : State) (x : Nat) : Place := (s.scratchPlace s.cg (s.s x).toNat 16).getD default
/-- One of its words. -/
def State.sbWord (s : State) (p : Place) (k : Nat) : Nat := leNat (s.groupBytes s.cur.gid (p.plus (4 * k)) 4)
/-- Its address is checked: SCRATCH_RANGE, then MISALIGN. -/
def sbCheck (x : Nat) (s : State) : Option Trap :=
  let a := (s.s x).toNat
  firstOf [((s.scratchPlace s.cg a 16).isNone, s.rangeTrap 0 a), (decide (a % 16 ≠ 0), s.alignTrap 0 a)]
/-- The scope of a stage barrier (R238). -/
def State.sbScope (s : State) (x : Nat) : Nat := spadScope (s.s x).toNat
/-- What its arrivals, and its SB.INIT, are known by. -/
def sbTag (p : Place) : List Nat := [2, p.key.2.1, p.key.2.2]

/-- SB.INIT (R344): a relaxed write. -/
def execSbInit (h : Hdr) (y x : Nat) (s : State) : Host.Outcome State Fault Refusal :=
  perform s (scalarInstr (.sbInit h y x) h
    (fun s => if (s.s y).toNat = 0 ∨ 65536 < (s.s y).toNat then some s.illegal else sbCheck x s) (fun _ => true) fun s =>
      let p := s.sbPlace x
      let n := (s.s y).toNat
      (s.groupStore s.cur.gid p (leBytes 4 n ++ leBytes 4 n ++ leBytes 8 0) false (s.sbScope x)).note
        { by_ := s.issuers, tag := sbTag p })

/-- SB.ARV (R344): one atomic operation and a release, so a pair has compared. -/
def execSbArv (h : Hdr) (x : Nat) (s : State) : Host.Outcome State Fault Refusal :=
  perform s (scalarInstr (.sbArv h x) h (sbCheck x) (fun _ => true) fun s =>
    let s := s.pairFlush s.cur.gid
    let p := s.sbPlace x
    let expect := s.sbWord p 0
    let pend := s.sbWord p 1
    let phase := s.sbWord p 2
    let ends := decide (pend = 0 ∨ expect < pend ∨ pend = 1)
    (s.release s.issuers (s.sbScope x) (sbTag p ++ [phase])).topWrite (some s.cgrid)
      { by_ := s.issuers, scope := s.sbScope x, rmw := true } (p.plus 4)
      (if ends then leBytes 4 expect ++ leBytes 4 ((phase + 1) % 2 ^ 32) else leBytes 4 (pend - 1)) s.cg.poisonPass.isSome)

/-- The phase has passed the one seen (R344). -/
def sbReady (y x : Nat) (s : State) : Bool :=
  let d := wrap 32 ((s.sbWord (s.sbPlace x) 2 : Int) - (s.s y).toNat)
  decide (1 ≤ d ∧ d ≤ 2 ^ 31 - 1)

/-- The arrivals, since the last SB.INIT, of every phase that is over (R238). DEDUCED, log entry 113. -/
def State.sbArrivals (s : State) (p : Place) : List Nat :=
  ((s.log.takeWhile fun e => decide (e.tag ≠ sbTag p)).filter fun e =>
    decide (e.tag.take 3 = sbTag p ∧ e.tag.getD 3 0 ≠ s.sbWord p 2)).map (·.num)

/-- SB.WAIT (R344): an acquire. -/
def execSbWait (h : Hdr) (y x : Nat) (s : State) : Host.Outcome State Fault Refusal :=
  perform s (scalarInstr (.sbWait h y x) h (sbCheck x) (sbReady y x) fun s =>
    s.acquire s.issuers (s.sbScope x) (s.sbArrivals (s.sbPlace x)))

/-- SB.TEST (R344): a relaxed read, counted on path 2. -/
def execSbTest (h : Hdr) (y x : Nat) (s : State) : Host.Outcome State Fault Refusal :=
  perform s (scalarInstr (.sbTest h y x) h (sbCheck x) (State.roomFor 2) fun s =>
    let p := (s.sbPlace x).plus 8
    let r := s.groupRead s.cur.gid s.liveS (s.sbScope x) false p 4
    (r.2.setS y (w32 (leNat r.1)) (s.groupPo s.cur.gid p 4)).push { path := 2, regs := [(.s, y, 1#32)] })

/-! ### The tag table (R200-R203) -/

/-- The set of a key. -/
def tagSet (k : Nat) : Nat := (k ^^^ (k / 2 ^ 10) ^^^ (k / 2 ^ 20)) % 1024
/-- The way that matches a key for a block. DEDUCED, log entry 50. -/
def Core.tagFind (c : Core) (bid k : Nat) : Option Nat :=
  ((List.range 4).map (4 * tagSet k + ·)).find? fun e =>
    let x := c.tags.get e
    decide (x.st ≠ 0 ∧ x.key = k ∧ x.owner = bid)
/-- The lowest free way of a key's set. -/
def Core.tagFree (c : Core) (k : Nat) : Option Nat :=
  ((List.range 4).map (4 * tagSet k + ·)).find? fun e => decide ((c.tags.get e).st = 0)

/-- A result word. -/
def tagWord (r data : Nat) : Word := w32 (r * 2 ^ 30 + data)

/-- TAG.L of a key. -/
def Core.tagLook (c : Core) (bid k : Nat) : Word × Core :=
  match c.tagFind bid k with
  | some e => (tagWord (c.tags.get e).st (c.tags.get e).data, c)
  | none => (tagWord 0 0, c)
/-- TAG.E of a key. -/
def Core.tagEvict (c : Core) (bid k : Nat) : Word × Core :=
  match c.tagFind bid k with
  | some e => (tagWord (c.tags.get e).st (c.tags.get e).data, { c with tags := c.tags.erase e })
  | none => (tagWord 0 0, c)
/-- TAG.I of a key with its input word. -/
def Core.tagInsert (c : Core) (bid k inp : Nat) : Word × Core :=
  let data := inp % 2 ^ 21
  let pub := bit inp 31
  match c.tagFind bid k with
  | some e =>
    let x := c.tags.get e
    if x.st = 1 ∧ pub then (tagWord 0 data, { c with tags := c.tags.put e { x with data := data, st := 2 } })
    else (tagWord x.st x.data, c)
  | none =>
    match c.tagFree k with
    | some e =>
      (tagWord 0 data, { c with tags := c.tags.put e { st := if pub then 2 else 1, key := k, data := data, owner := bid } })
    | none => (tagWord 3 0, c)

/-- What the publication of a key by a block on one of its cores is known by. -/
def State.tagKey (s : State) (k : Nat) : List Nat := [10, s.cg.bid, s.memberOf s.cg, k]
/-- The order that a tag operation of a lane gives its scratchpad accesses (R202): one that leaves an entry valid releases
at CORE scope, and one that returns 2 acquires from the one that published the entry. -/
def State.tagOrder (s : State) (l k : Nat) (rel acq : Bool) : State :=
  let e : Event := { by_ := s.lanesAt s.cur.gid (laneBit l), scope := 3, spad := true }
  if rel then s.note { e with rel := true, tag := s.tagKey k }
  else if acq then s.note { e with acq := true, from_ := (s.tagged (s.tagKey k)).take 1 }
  else s

/-- A tag instruction: each active lane in turn (R200). Bits [30:21] of a TAG.I input must be 0. `inp` is TAG.I, `acq` one
that acquires where it returns 2. A TAG.I that may publish is a release, so a pair has compared (R202, R386). A poisoned key
or input acts by its bits and marks the result alone. DEDUCED, log entry 50. DESIGN CHOICE, log entry 115. -/
def tagOp (i : Instr) (h : Hdr) (d a : Nat) (inp acq : Bool) (f : Core → Nat → Nat → Word × Core) : State → State :=
  let pub (s : State) (l : Nat) : Bool := inp && (s.v d l).getLsbD 31
  ctlInstr i h State.liveNamed noLane
    (fun s => if inp ∧ (lanesOf (s.active h)).any fun l => decide ((s.v d l).toNat / 2 ^ 21 % 1024 ≠ 0) then some s.illegal
      else none)
    fun s =>
      let s := if (lanesOf (s.active h)).any (pub s) then s.pairFlush s.cur.gid else s
      (forLanes (s.active h) s fun t l =>
        let k := (s.v a l).toNat
        let r := f t.cc k (s.v d l).toNat
        let c := r.1.toNat / 2 ^ 30
        ((t.setCo t.cg.core r.2).tagOrder l k (pub s l && decide (c = 0)) (acq && decide (c = 2))).setV d l r.1
          (s.vp a l || (inp && s.vp d l))).advance

/-- TAG.L (R201). -/
def execTagL (h : Hdr) (d a : Nat) (s : State) : Host.Outcome State Fault Refusal :=
  perform s (tagOp (.tagL h d a) h d a false true (fun c k _ => c.tagLook s.cg.bid k))
/-- TAG.I (R201). -/
def execTagI (h : Hdr) (d a : Nat) (s : State) : Host.Outcome State Fault Refusal :=
  perform s (tagOp (.tagI h d a) h d a true true (fun c k x => c.tagInsert s.cg.bid k x))
/-- TAG.E (R201). -/
def execTagE (h : Hdr) (d a : Nat) (s : State) : Host.Outcome State Fault Refusal :=
  perform s (tagOp (.tagE h d a) h d a false false (fun c k _ => c.tagEvict s.cg.bid k))

end Sys2Proof.Machine
end

