-- ==== Sys2Proof/Machine/Cvt.lean ====
section
/-! DEFINITION. VX-CVT (05_numbers.md R126, R127, R140-R152) and the OVF trap of a conversion under action 3. -/

namespace Sys2Proof.Machine

open Sys2Proof

/-- The rounding field (R150); RS draws the lane's next LFSR value (R141). -/
def rndOf (r : Nat) (lfsr : Word) : Rm :=
  match r with
  | 0 => .rne
  | 1 => .rz
  | 2 => .rna
  | _ => .rs (lfsrStep lfsr).toNat

/-- An integer as a value. -/
def ofInt (x : Int) : FV := .fin (decide (x < 0)) x.natAbs 0

/-- A conversion that overflows in some lanes of this plane issue under action 3 has no effect (R149): its split stands at
it until the trap is raised. DEDUCED, log entry 37. -/
def ovfStop (lanes : LaneMask) (s : State) : State :=
  s.updCS fun x => { x with offset := s.cur.here, ovf := some (s.mkTrap 0x11 0 (w32 (lowLane lanes))) }

/-- The conversion of one plane issue (R151): the new vd, the poison mark, the LFSR of an RS conversion and the
sticky bits; or OVF for some lane of it (R149). DEDUCED, log entry 37. -/
def cvtAct (h : Hdr) (d a r : Nat) (shiftIn : Bool) (conv : State → Rm → Word → Conv) (build : Word → Nat → Word)
    (s : State) : State :=
  let out (l : Nat) : Conv := conv s (rndOf r (s.lfsr l)) (s.v a l)
  let bad := maskOf fun l => inMask (s.laneActive h) l && (out l).ovf
  if bad ≠ 0#32 then ovfStop bad s
  else
    let t := forLanes (s.laneActive h) s fun t l =>
      let c := out l
      let t := t.setV d l (build (s.v d l) c.code) (s.vp a l || (shiftIn && s.vp d l))
      let t := if r = 3 then t.setLfsr l (lfsrStep (s.lfsr l)) else t
      t.stick c.stick
    t

/-- A conversion with a rounding field (R151). -/
def cvt (i : Instr) (h : Hdr) (d a r : Nat) (shiftIn : Bool) (conv : State → Rm → Word → Conv)
    (build : Word → Nat → Word) : State → State :=
  laneOnly i h (cvtAct h d a r shiftIn conv build)

/-- Results that replace vd, and results that shift in at its low end (R150). -/
def whole (_ : Word) (c : Nat) : Word := w32 c
def shiftInto (n : Nat) (vd : Word) (c : Nat) : Word := (vd <<< n) ||| w32 c

/-- The value of an E2M1, E4M3, E5M2, FP16 or FP32 code as FP32, exactly; a NaN by R127. -/
def widen (f : Fmt) (nanOf : Nat → Word) (x : Nat) : Word :=
  match f.decode x with
  | .nan => nanOf x
  | v => v.toF32
/-- The FP32 NaN of an FP16, E5M2 or E4M3 NaN (R127). -/
def nanFp16 (x : Nat) : Word := w32 ((if bit x 15 then 2 ^ 31 else 0) + 0x7F800000 + (x % 1024 * 8192 ||| 0x400000))
def nanE5m2 (x : Nat) : Word := w32 ((if bit x 7 then 2 ^ 31 else 0) + 0x7F800000 + (x % 4 * 2 ^ 21 ||| 0x400000))
def nanE4m3 (x : Nat) : Word := w32 ((if bit x 7 then 2 ^ 31 else 0) + 0x7FC00000)

/-- Clamp to INT8 (kind 14, R151). -/
def clamp8 (w : Word) : Conv :=
  let x := sgn w
  let y := max (-128) (min 127 x)
  { code := wrap 8 y, stick := if x = y then [] else [cvtSat] }

/-! ### The meanings -/

/-- CVT.F32.I32 (R150, R151). -/
def execCvtF32I32 (h : Hdr) (d a r : Nat) (s : State) : Host.Outcome State Fault Refusal :=
  perform s (cvt (.cvtF32I32 h d a r) h d a r false (fun t rm w => toFloat fp32 t.cg.ovf 7 rm (ofInt (sgn w))) whole)

/-- CVT.F32.UI32 (R150, R151). -/
def execCvtF32Ui32 (h : Hdr) (d a r : Nat) (s : State) : Host.Outcome State Fault Refusal :=
  perform s (cvt (.cvtF32Ui32 h d a r) h d a r false (fun t rm w => toFloat fp32 t.cg.ovf 7 rm (ofInt w.toNat)) whole)

/-- CVT.I32.F32 (R150, R151). -/
def execCvtI32F32 (h : Hdr) (d a r : Nat) (s : State) : Host.Outcome State Fault Refusal :=
  perform s (cvt (.cvtI32F32 h d a r) h d a r false (fun t rm w => toInt t.cg.ovf 11 rm (fv w)) whole)

/-- CVT.UI32.F32 (R150, R151). -/
def execCvtUi32F32 (h : Hdr) (d a r : Nat) (s : State) : Host.Outcome State Fault Refusal :=
  perform s (cvt (.cvtUi32F32 h d a r) h d a r false (fun t rm w => toInt t.cg.ovf 12 rm (fv w)) whole)

/-- CVT.BF16.F32 (R150, R151). -/
def execCvtBf16F32 (h : Hdr) (d a r : Nat) (s : State) : Host.Outcome State Fault Refusal :=
  perform s (cvt (.cvtBf16F32 h d a r) h d a r true (fun t rm w => toFloat bf16 t.cg.ovf 5 rm (fv w)) (shiftInto 16))

/-- CVT.FP16.F32 (R150, R151). -/
def execCvtFp16F32 (h : Hdr) (d a r : Nat) (s : State) : Host.Outcome State Fault Refusal :=
  perform s (cvt (.cvtFp16F32 h d a r) h d a r true (fun t rm w => toFloat fp16 t.cg.ovf 6 rm (fv w)) (shiftInto 16))

/-- CVT.E4M3.F32 (R150, R151). -/
def execCvtE4m3F32 (h : Hdr) (d a r : Nat) (s : State) : Host.Outcome State Fault Refusal :=
  perform s (cvt (.cvtE4m3F32 h d a r) h d a r true (fun t rm w => toFloat e4m3 t.cg.ovf 3 rm (fv w)) (shiftInto 8))

/-- CVT.E5M2.F32 (R150, R151). -/
def execCvtE5m2F32 (h : Hdr) (d a r : Nat) (s : State) : Host.Outcome State Fault Refusal :=
  perform s (cvt (.cvtE5m2F32 h d a r) h d a r true (fun t rm w => toFloat e5m2 t.cg.ovf 4 rm (fv w)) (shiftInto 8))

/-- CVT.E2M1.F32 (R150, R151). -/
def execCvtE2m1F32 (h : Hdr) (d a r : Nat) (s : State) : Host.Outcome State Fault Refusal :=
  perform s (cvt (.cvtE2m1F32 h d a r) h d a r true (fun t rm w => toFloat e2m1 t.cg.ovf 10 rm (fv w)) (shiftInto 4))

/-- CVT.F32.BF16 (R127, R151). -/
def execCvtF32Bf16 (h : Hdr) (d a : Nat) (s : State) : Host.Outcome State Fault Refusal :=
  perform s (lane1 (.cvtF32Bf16 h d a) h d a (fun x => x <<< 16))

/-- CVT.F32.FP16 (R127, R151). -/
def execCvtF32Fp16 (h : Hdr) (d a : Nat) (s : State) : Host.Outcome State Fault Refusal :=
  perform s (lane1 (.cvtF32Fp16 h d a) h d a (fun x => widen fp16 nanFp16 (x.toNat % 65536)))

/-- CVT.F32.E4M3 (R127, R151). -/
def execCvtF32E4m3 (h : Hdr) (d a : Nat) (s : State) : Host.Outcome State Fault Refusal :=
  perform s (lane1 (.cvtF32E4m3 h d a) h d a (fun x => widen e4m3 nanE4m3 (x.toNat % 256)))

/-- CVT.F32.E5M2 (R127, R151). -/
def execCvtF32E5m2 (h : Hdr) (d a : Nat) (s : State) : Host.Outcome State Fault Refusal :=
  perform s (lane1 (.cvtF32E5m2 h d a) h d a (fun x => widen e5m2 nanE5m2 (x.toNat % 256)))

/-- CVT.F32.E2M1 (R127, R151). -/
def execCvtF32E2m1 (h : Hdr) (d a : Nat) (s : State) : Host.Outcome State Fault Refusal :=
  perform s (lane1 (.cvtF32E2m1 h d a) h d a (fun x => widen e2m1 (fun _ => 0#32) (x.toNat % 16)))

/-- CVT.F32.INT8 (R127, R151). -/
def execCvtF32Int8 (h : Hdr) (d a : Nat) (s : State) : Host.Outcome State Fault Refusal :=
  perform s (lane1 (.cvtF32Int8 h d a) h d a (fun x => (ofInt (sext 8 (x.toNat % 256))).toF32))

/-- CVT.INT8.I32 (R151): kind 14 neither steps the LFSR nor consults the table. -/
def execCvtInt8I32 (h : Hdr) (d a r : Nat) (s : State) : Host.Outcome State Fault Refusal :=
  perform s (cvt (.cvtInt8I32 h d a r) h d a 0 true (fun _ _ w => clamp8 w) (shiftInto 8))

/-- The split of a running group that raises its OVF now: 4 cycles after its last plane issue, when no other split is
between plane issues (R108, R149). -/
def State.ovfSplit (s : State) (gid : Nat) : Option Nat :=
  let g := s.g gid
  if g.live ∧ g.stop = .running then
    (List.range 4).find? fun k =>
      let x := g.splits.get k
      x.valid && x.ovf.isSome && decide (x.more = []) && decide (x.heldTo ≤ s.cycle) && g.othersWhole k
  else none
/-- OVF (R149): the trap of a conversion under action 3 is delivered. -/
def execOvf (gid : Nat) (s : State) : Host.Outcome State Fault Refusal :=
  event (match s.ovfSplit gid with
    | some k =>
      match ((s.g gid).splits.get k).ovf with
      | some t => (s.updG gid fun g => { g with splits := g.splits.upd k fun x => { x with ovf := none } }).trap gid t
      | none => s
    | none => s)

end Sys2Proof.Machine
end

