-- ==== Sys2Proof/Machine/Scalar.lean ====
section
/-! DEFINITION. The scalar unit: arithmetic, pairs, immediates, literals and the special registers
(04_scalar.md R110-R117, R119, R120; 02_encoding.md R70). -/

namespace Sys2Proof.Machine

open Sys2Proof

/-- sd := f(sd, sa) (R112). -/
def sc (i : Instr) (h : Hdr) (d a : Nat) (f : Word → Word → Word) : State → State :=
  scalarOnly i h fun s => s.setS d (f (s.s d) (s.s a))
/-- sd := f(sa). -/
def sc1 (i : Instr) (h : Hdr) (d a : Nat) (f : Word → Word) : State → State :=
  scalarOnly i h fun s => s.setS d (f (s.s a))
/-- sd := f(sd) with an immediate (R119). -/
def si (i : Instr) (h : Hdr) (d : Nat) (f : Word → Word) : State → State :=
  scalarOnly i h fun s => s.setS d (f (s.s d))
/-- sd:sd+1 := Wrap64(sd:sd+1 + x) (R113). -/
def pairAdd (i : Instr) (h : Hdr) (d : Nat) (x : State → Int) : State → State :=
  scalarOnly i h fun s => s.setS2 d (wrap 64 (s.s2 d + x s))
/-- SignExt(imm7, 7). -/
def i7 (m : Nat) : Int := sext 7 m
/-- The immediate as a word. -/
def w7 (m : Nat) : Word := wrap32 (i7 m)

/-! ### Special registers (R70) -/

/-- The persistent index of a group (R353, R354). -/
def State.persistIdx (s : State) (g : Group) : Nat :=
  let p := s.paramsOf g
  let blk := (s.b g.bid).blk
  if ¬ p.persist then 0
  else if p.det then
    let per := max 1 (p.percore / max 1 p.groups)
    blk / per * p.percore + blk % per * p.groups + g.index
  else blk * p.groups + g.index
/-- The coordinates of a block (R122). -/
def Params.blockX (p : Params) (blk : Nat) : Nat := blk % max 1 p.gridx
def Params.blockY (p : Params) (blk : Nat) : Nat := blk / max 1 p.gridx % max 1 p.gridy
def Params.blockZ (p : Params) (blk : Nat) : Nat := blk / (max 1 p.gridx * max 1 p.gridy)

/-- A special register as the issuing split reads it (R70, R115); a reserved number reads 0. -/
def State.specialReg (s : State) (n : Nat) : Word :=
  let g := s.cg
  let p := s.paramsOf g
  let blk := s.cb.blk
  match n with
  | 0 => w32 g.index
  | 1 => w32 (p.blockX blk)
  | 2 => w32 (p.blockY blk)
  | 3 => w32 (p.blockZ blk)
  | 4 => w32 g.core
  | 5 => w32 s.lcores
  | 6 => loW s.cycle
  | 7 => g.clockHi
  | 8 => s.cs.mask
  | 9 => g.dead
  | 10 => w32 (g.planeOcc s.cs.mask)
  | 11 => g.mmask
  | 12 => g.recno
  | 13 => crcFinish s.cs.sig
  | 14 => g.inflightWord
  | 15 => w32 (s.gridOf g)
  | 16 => w32 (s.persistIdx g)
  | 17 => g.xstat
  | _ => 0#32

/-- S.GETSR: a read of CLOCKLO copies the high word into the group's shadow (R116). -/
def getsr (d n : Nat) (s : State) : State :=
  let t := s.setS d (s.specialReg n)
  if n = 6 then t.updCG fun g => { g with clockHi := hiW s.cycle } else t
/-- S.SETSR: only MMASK and XSTAT are writable; XSTAT takes its assigned bits (R70, R115). -/
def setsr (n d : Nat) (s : State) : State :=
  if n = 11 then s.updCG fun g => { g with mmaskNext := some (s.s d) }
  else s.updCG fun g => { g with xstat := s.s d &&& 0x1F#32 }

/-! ### The meanings -/

/-- S.MOV (R112). -/
def execSMov (h : Hdr) (d a : Nat) (s : State) : Host.Outcome State Fault Refusal :=
  perform s (sc1 (.sMov h d a) h d a (fun x => x))

/-- S.ADD (R112). -/
def execSAdd (h : Hdr) (d a : Nat) (s : State) : Host.Outcome State Fault Refusal :=
  perform s (sc (.sAdd h d a) h d a (fun x y => x + y))

/-- S.SUB (R112). -/
def execSSub (h : Hdr) (d a : Nat) (s : State) : Host.Outcome State Fault Refusal :=
  perform s (sc (.sSub h d a) h d a (fun x y => x - y))

/-- S.MUL (R112). -/
def execSMul (h : Hdr) (d a : Nat) (s : State) : Host.Outcome State Fault Refusal :=
  perform s (sc (.sMul h d a) h d a (fun x y => x * y))

/-- S.MULHU (R112). -/
def execSMulhu (h : Hdr) (d a : Nat) (s : State) : Host.Outcome State Fault Refusal :=
  perform s (sc (.sMulhu h d a) h d a mulhu)

/-- S.AND (R112). -/
def execSAnd (h : Hdr) (d a : Nat) (s : State) : Host.Outcome State Fault Refusal :=
  perform s (sc (.sAnd h d a) h d a (fun x y => x &&& y))

/-- S.OR (R112). -/
def execSOr (h : Hdr) (d a : Nat) (s : State) : Host.Outcome State Fault Refusal :=
  perform s (sc (.sOr h d a) h d a (fun x y => x ||| y))

/-- S.XOR (R112). -/
def execSXor (h : Hdr) (d a : Nat) (s : State) : Host.Outcome State Fault Refusal :=
  perform s (sc (.sXor h d a) h d a (fun x y => x ^^^ y))

/-- S.SHL (R112). -/
def execSShl (h : Hdr) (d a : Nat) (s : State) : Host.Outcome State Fault Refusal :=
  perform s (sc (.sShl h d a) h d a shl)

/-- S.SHR (R112). -/
def execSShr (h : Hdr) (d a : Nat) (s : State) : Host.Outcome State Fault Refusal :=
  perform s (sc (.sShr h d a) h d a shr)

/-- S.SRA (R112). -/
def execSSra (h : Hdr) (d a : Nat) (s : State) : Host.Outcome State Fault Refusal :=
  perform s (sc (.sSra h d a) h d a sra)

/-- S.MIN (R112). -/
def execSMin (h : Hdr) (d a : Nat) (s : State) : Host.Outcome State Fault Refusal :=
  perform s (sc (.sMin h d a) h d a mins)

/-- S.MAX (R112). -/
def execSMax (h : Hdr) (d a : Nat) (s : State) : Host.Outcome State Fault Refusal :=
  perform s (sc (.sMax h d a) h d a maxs)

/-- S.MINU (R112). -/
def execSMinu (h : Hdr) (d a : Nat) (s : State) : Host.Outcome State Fault Refusal :=
  perform s (sc (.sMinu h d a) h d a minu)

/-- S.MAXU (R112). -/
def execSMaxu (h : Hdr) (d a : Nat) (s : State) : Host.Outcome State Fault Refusal :=
  perform s (sc (.sMaxu h d a) h d a maxu)

/-- S.SLT (R112). -/
def execSSlt (h : Hdr) (d a : Nat) (s : State) : Host.Outcome State Fault Refusal :=
  perform s (sc (.sSlt h d a) h d a (fun x y => ofBool (decide (sgn x < sgn y))))

/-- S.ADD64 (R113). -/
def execSAdd64 (h : Hdr) (d a : Nat) (s : State) : Host.Outcome State Fault Refusal :=
  perform s (pairAdd (.sAdd64 h d a) h d fun s => s.s2 a)

/-- S.SUB64 (R113). -/
def execSSub64 (h : Hdr) (d a : Nat) (s : State) : Host.Outcome State Fault Refusal :=
  perform s (pairAdd (.sSub64 h d a) h d fun s => -(s.s2 a : Int))

/-- S.LEA (R113). -/
def execSLea (h : Hdr) (d a : Nat) (s : State) : Host.Outcome State Fault Refusal :=
  perform s (pairAdd (.sLea h d a) h d fun s => (s.s a).toNat)

/-- S.LEAS (R113). -/
def execSLeas (h : Hdr) (d a : Nat) (s : State) : Host.Outcome State Fault Refusal :=
  perform s (pairAdd (.sLeas h d a) h d fun s => sgn (s.s a))

/-- S.SLTU (R114). -/
def execSSltu (h : Hdr) (d a : Nat) (s : State) : Host.Outcome State Fault Refusal :=
  perform s (sc (.sSltu h d a) h d a (fun x y => ofBool (decide (x.toNat < y.toNat))))

/-- S.SEQ (R114). -/
def execSSeq (h : Hdr) (d a : Nat) (s : State) : Host.Outcome State Fault Refusal :=
  perform s (sc (.sSeq h d a) h d a (fun x y => ofBool (decide (x = y))))

/-- S.NOT (R114). -/
def execSNot (h : Hdr) (d a : Nat) (s : State) : Host.Outcome State Fault Refusal :=
  perform s (sc1 (.sNot h d a) h d a (fun x => ~~~ x))

/-- S.NEG (R114). -/
def execSNeg (h : Hdr) (d a : Nat) (s : State) : Host.Outcome State Fault Refusal :=
  perform s (sc1 (.sNeg h d a) h d a (fun x => - x))

/-- S.CLZ (R114). -/
def execSClz (h : Hdr) (d a : Nat) (s : State) : Host.Outcome State Fault Refusal :=
  perform s (sc1 (.sClz h d a) h d a (fun x => w32 (clz32 x)))

/-- S.POPC (R114). -/
def execSPopc (h : Hdr) (d a : Nat) (s : State) : Host.Outcome State Fault Refusal :=
  perform s (sc1 (.sPopc h d a) h d a (fun x => w32 (popCount 32 x.toNat)))

/-- S.GETSR (R115, R116). -/
def execSGetsr (h : Hdr) (d a : Nat) (s : State) : Host.Outcome State Fault Refusal :=
  perform s (scalarOnly (.sGetsr h d a) h (getsr d a))

/-- S.SETSR (R115). Its number is part of the word, so a reserved or read-only one is ILLEGAL at step 2 (R66).
DEDUCED, log entry 46. -/
def execSSetsr (h : Hdr) (d a : Nat) (s : State) : Host.Outcome State Fault Refusal :=
  perform s (scalarOnly (.sSetsr h d a) h (setsr a d))

/-- S.PSET (R117): every lane of the split is written, whatever the member mask. -/
def execSPset (h : Hdr) (d q : Nat) (s : State) : Host.Outcome State Fault Refusal :=
  perform s (scalarOnly (.sPset h d q) h fun t =>
    forLanes t.liveS t fun u l => u.setP q l (decide (t.s d ≠ 0#32)))

/-- S.MOVI (R119). -/
def execSMovi (h : Hdr) (d m : Nat) (s : State) : Host.Outcome State Fault Refusal :=
  perform s (scalarOnly (.sMovi h d m) h fun s => s.setS d (w7 m))

/-- S.ADDI (R119). -/
def execSAddi (h : Hdr) (d m : Nat) (s : State) : Host.Outcome State Fault Refusal :=
  perform s (si (.sAddi h d m) h d (fun x => x + w7 m))

/-- S.ANDI (R119). -/
def execSAndi (h : Hdr) (d m : Nat) (s : State) : Host.Outcome State Fault Refusal :=
  perform s (si (.sAndi h d m) h d (fun x => x &&& w7 m))

/-- S.ORI (R119). -/
def execSOri (h : Hdr) (d m : Nat) (s : State) : Host.Outcome State Fault Refusal :=
  perform s (si (.sOri h d m) h d (fun x => x ||| w7 m))

/-- S.XORI (R119). -/
def execSXori (h : Hdr) (d m : Nat) (s : State) : Host.Outcome State Fault Refusal :=
  perform s (si (.sXori h d m) h d (fun x => x ^^^ w7 m))

/-- S.SHLI (R119). -/
def execSShli (h : Hdr) (d m : Nat) (s : State) : Host.Outcome State Fault Refusal :=
  perform s (si (.sShli h d m) h d (fun x => shl x (w32 m)))

/-- S.SHRI (R119). -/
def execSShri (h : Hdr) (d m : Nat) (s : State) : Host.Outcome State Fault Refusal :=
  perform s (si (.sShri h d m) h d (fun x => shr x (w32 m)))

/-- S.SRAI (R119). -/
def execSSrai (h : Hdr) (d m : Nat) (s : State) : Host.Outcome State Fault Refusal :=
  perform s (si (.sSrai h d m) h d (fun x => sra x (w32 m)))

/-- S.MULI (R119). -/
def execSMuli (h : Hdr) (d m : Nat) (s : State) : Host.Outcome State Fault Refusal :=
  perform s (si (.sMuli h d m) h d (fun x => wrap32 (sgn x * i7 m)))

/-- S.SLTI (R119). -/
def execSSlti (h : Hdr) (d m : Nat) (s : State) : Host.Outcome State Fault Refusal :=
  perform s (si (.sSlti h d m) h d (fun x => ofBool (decide (sgn x < i7 m))))

/-- S.ADDI64 (R119). -/
def execSAddi64 (h : Hdr) (d m : Nat) (s : State) : Host.Outcome State Fault Refusal :=
  perform s (pairAdd (.sAddi64 h d m) h d fun _ => i7 m)

/-- S.LIT (R120). -/
def execSLit (h : Hdr) (d lit : Nat) (s : State) : Host.Outcome State Fault Refusal :=
  perform s (scalarOnly (.sLit h d lit) h fun s => s.setS d (w32 lit))

/-- S.LIT64 (R120). -/
def execSLit64 (h : Hdr) (d lo hi : Nat) (s : State) : Host.Outcome State Fault Refusal :=
  perform s (scalarOnly (.sLit64 h d lo hi) h fun s => (s.setS d (w32 lo)).setS (d + 1) (w32 hi))

end Sys2Proof.Machine
end

