-- ==== Sys2Proof/Machine/Timeline.lean ====
section
/-! DEFINITION. Engine contexts and their timelines, WAITC, TLWAIT, TLREAD and the fences (07_memory.md R197;
08_ordering.md R229-R237). A fence is an event, and orders what the memory model finds before and after it
(Machine/Order.lean); only FENCE.MIR waits. -/

namespace Sys2Proof.Machine

open Sys2Proof

/-! ### Contexts (R231, R232) -/

/-- Counter(c): the greatest n for which commands 1 to n have completed (R232). -/
def Ctx.counter (c : Ctx) : Nat :=
  match c.open_ with
  | [] => c.accepted
  | n :: r => r.foldl min n - 1
/-- Accept a command: its number, and the context. -/
def Ctx.accept (c : Ctx) : Nat × Ctx := (c.accepted + 1, { c with accepted := c.accepted + 1, open_ := c.open_ ++ [c.accepted + 1] })
/-- A command completes, with the trap it records (R265, R289, R324). -/
def Ctx.finish (c : Ctx) (n : Nat) (t : Option Trap) : Ctx :=
  { c with
    open_ := c.open_.filter fun k => decide (k ≠ n)
    traps := match t with
      | some t => c.traps ++ [(n, t)]
      | none => c.traps }
/-- The lowest-numbered trap recorded up to n (R235). -/
def Ctx.firstTrap (c : Ctx) (n : Nat) : Option (Nat × Trap) :=
  (c.traps.filter fun x => decide (x.1 ≤ n)).foldl
    (fun a x => match a with
      | none => some x
      | some y => if x.1 < y.1 then some x else some y) none
/-- A wait covers the recorded traps up to n; the one it raises is raised once (R358). -/
def Ctx.cover (c : Ctx) (n : Nat) (raised : Option Nat) : Ctx :=
  { c with
    seen := c.seen ++ ((c.traps.map (·.1)).filter fun k => decide (k ≤ n) && decide (k ∉ c.seen))
    traps := c.traps.filter fun x => decide (some x.1 ≠ raised) }
/-- The recorded traps that no wait has covered. -/
def Ctx.uncovered (c : Ctx) : List (Nat × Trap) := c.traps.filter fun x => decide (x.1 ∉ c.seen)

/-- The timeline of a block's context: kind 0 copy, 1 matrix, 2 sampling, 3 collective (R231). -/
def Block.ctx (b : Block) (kind i : Nat) : Ctx :=
  match kind with
  | 0 => (b.copy.get i).c
  | 1 => b.mx.get i
  | 2 => (b.sm.get i).c
  | _ => (b.col.get i).c
/-- Change it. -/
def Block.updCtx (b : Block) (kind i : Nat) (f : Ctx → Ctx) : Block :=
  match kind with
  | 0 => { b with copy := b.copy.upd i fun x => { x with c := f x.c } }
  | 1 => { b with mx := b.mx.upd i f }
  | 2 => { b with sm := b.sm.upd i fun x => { x with c := f x.c } }
  | _ => { b with col := b.col.upd i fun x => { x with c := f x.c } }
/-- How many contexts of a kind a block owns (R231). -/
def ctxCount (kind : Nat) : Nat := [32, 8, 4, 8].getD kind 0
/-- A context word (R231). -/
def ctxWord (kind i : Nat) : Nat := kind * 2 ^ 28 + i
/-- Change a context of a block. -/
def State.updCtx (s : State) (bid kind i : Nat) (f : Ctx → Ctx) : State := s.updB bid fun b => b.updCtx kind i f
/-- Complete a command of a context. -/
def State.finish (s : State) (bid kind i n : Nat) (t : Option Trap) : State := s.updCtx bid kind i fun c => c.finish n t
/-- A context that has accepted 2^64 - 1 commands refuses further ones (R232). -/
def State.queueTrap (s : State) (kind i : Nat) : Option Trap :=
  if 2 ^ 64 - 1 ≤ (s.cb.ctx kind i).accepted then some (s.mkTrap 0x16 0 (w32 (ctxWord kind i))) else none
/-- No command of a block is incomplete. -/
def Block.idle (b : Block) : Bool :=
  (List.range 4).all fun k => (List.range (ctxCount k)).all fun i => decide ((b.ctx k i).open_ = [])

/-! ### WAITC (R197) -/

/-- All but the c youngest accesses of a path are covered: their results may be read (R64). DEDUCED, log entry 29. -/
def Group.cover (g : Group) (path c : Nat) : Group :=
  let n := max (g.covered.get path) (g.accs.get path - c)
  { g with
    covered := g.covered.put path n
    pend := g.pend.filter fun p => !(p.onPath && decide (p.path = path) && p.landed && decide (p.seq ≤ n)) }
/-- The lanes of the group may read the answers that a WAITC on path 4 has covered (R345): they acquire from them.
DEDUCED, log entry 134. -/
def State.takeAnswers (s : State) : State :=
  s.acquire (s.lanesAt s.cur.gid allLanes) 1 ((s.log.filter fun e =>
    decide (e.tag.take 2 = (answerTag s.cur.gid 0).take 2 ∧ e.tag.getD 2 0 ≤ s.cg.covered.get 4)).map (·.num))
/-- WAITC. -/
def execWaitc (h : Hdr) (y x : Nat) (s : State) : Host.Outcome State Fault Refusal :=
  perform s (scalarInstr (.waitc h y x) h (fun _ => none) (fun s => decide (s.cg.count x ≤ (s.s y).toNat)) fun s =>
    let t := s.updCG fun g => g.cover x (s.s y).toNat
    if x = 4 then t.takeAnswers else t)

/-! ### TLWAIT and TLREAD (R234-R236) -/

/-- A context word is checked: reserved bits, KIND, INDEX, and the part's units. -/
def State.ctxCheck (s : State) (c : Nat) : Option Trap :=
  let kind := bits c 31 28
  if bits c 27 5 ≠ 0 ∨ 4 ≤ kind ∨ ctxCount kind ≤ c % 32 then some s.illegal
  else if kind = 2 ∧ ¬ s.hasSampling then some s.unitAbsent
  else none

/-- The operands that the wait read at the first cycle it was considered. -/
def State.tlWait (s : State) : Option (Nat × Nat) :=
  match s.cs.waitOn with
  | some (.timeline c n _) => some (c, n)
  | _ => none

/-- The operand checks of TLWAIT (R235). -/
def tlCheck (x : Nat) (s : State) : Option Trap :=
  if s.tlWait.isSome then none
  else if s.s (x + 1) ≠ 0#32 then some s.illegal
  else s.ctxCheck (s.s x).toNat

/-- What the accesses of a command are known by, and what its acceptance is. -/
def engTag (kind bid i n : Nat) : List Nat := [3, kind, bid, i, n]
def issueTag (kind bid i n : Nat) : List Nat := [4, kind, bid, i, n]
/-- The accesses of the commands of a context numbered up to n (R234). -/
def State.engEvents (s : State) (bid kind i n : Nat) : List Nat :=
  (s.log.filter fun e => decide (e.tag.take 4 = [3, kind, bid, i] ∧ e.tag.getD 4 0 ≤ n)).map (·.num)

/-- An access of a command at a scope: it follows the command's issue and some other events (R233). -/
def State.engEvent (s : State) (bid kind i n scope : Nat) (after : List Nat := []) : Event :=
  { by_ := s.ctxAt bid kind i, scope := scope, from_ := s.tagged (issueTag kind bid i n) ++ after
    tag := engTag kind bid i n ++ [(s.b bid).grid] }
/-- A command as a reader. -/
def State.engReader (s : State) (bid kind i n : Nat) (after : List Nat := []) : Reader :=
  { q := s.ctxAt bid kind i, start := s.tagged (issueTag kind bid i n) ++ after, draw := s.free }
/-- A command has read: an access of it took place (R234). -/
def State.engRead (s : State) (bid kind i n scope : Nat) (after : List Nat := []) : State :=
  { s with free := s.free + 1 }.note (s.engEvent bid kind i n scope after)

/-- TLWAIT completes at a scope: it acquires from the accesses of the commands (R234), covers them, reports a clamped copy (R259), and raises the trap of the
lowest-numbered command that ended in a fault (R235, R358, R435). The raising wait stands at its own
offset. DEDUCED, log entry 48. -/
def State.tlDone (s : State) (scope c n : Nat) : State :=
  let kind := bits c 31 28
  let i := c % 32
  let x := s.cb.ctx kind i
  let t := if x.clamped.any fun k => decide (k ≤ n) then s.stick [plSat] else s
  let t := t.acquire t.issuers scope (t.engEvents t.cg.bid kind i n)
  match x.firstTrap n with
  | some (k, tr) =>
    (t.updCtx t.cg.bid kind i fun y => y.cover n (some k)).raiseRecorded tr
  | none => (t.updCtx t.cg.bid kind i fun y => y.cover n none).advance

/-- TLWAIT (R235): a wait that has begun does not read its operands again. DEDUCED, log entry 48. -/
def execTlwait (h : Hdr) (y x : Nat) (s : State) : Host.Outcome State Fault Refusal :=
  perform s fun s =>
    match s.wordTrap (.tlwait h y x) with
    | some t => s.trapCur t
    | none =>
      scalarCore (if s.tlWait.isSome then .cbar h else .tlwait h y x) h (tlCheck x) (fun s0 s =>
        let (c, n) := s.tlWait.getD ((s.s x).toNat, s.s2 (x + 2))
        if n ≤ (s.cb.ctx (bits c 31 28) (c % 32)).counter then s.tlDone y c n
        else if s.tlWait.isSome then s0.wait
        else s.waitFor (.timeline c n s.ns)) s

/-- TLREAD (R236). -/
def execTlread (h : Hdr) (y x : Nat) (s : State) : Host.Outcome State Fault Refusal :=
  perform s (scalarInstr (.tlread h y x) h (fun s => s.ctxCheck (s.s x).toNat) (fun _ => true) fun s =>
    let c := (s.s x).toNat
    s.setS2 y (s.cb.ctx (bits c 31 28) (c % 32)).counter)

/-! ### Fences (R229, R230) -/

/-- The events that an acquire fence of some lanes synchronises with (R220): the releases behind the writes that their
earlier reads returned and, for kind 0, the earlier fences of kind 0. -/
def State.fenceFrom (s : State) (kind : Nat) (e : Event) : List Nat :=
  if kind = 0 ∨ kind = 1 then
    s.syncs ((s.log.filter fun r => r.by_.same e.by_).flatMap (·.ret)) e ++
      (if kind = 0 then (s.log.filter fun f => f.fence && f.acq && f.rel && inclusive f e).map (·.num) else [])
  else []
/-- A fence of the issuing split takes place (R220, R229): kind 0 acquires and releases, 1 acquires, 2 and 3 release. -/
def State.fence (s : State) (kind scope : Nat) : State :=
  let e : Event := { by_ := s.issuers, scope := scope, fence := true, acq := decide (kind < 2), rel := decide (kind ≠ 1) }
  s.note { e with from_ := s.fenceFrom kind e }

/-- FENCE: a releasing one is a point at which a pair compares (R386). -/
def execFence (h : Hdr) (y x : Nat) (s : State) : Host.Outcome State Fault Refusal :=
  perform s (scalarOnly (.fence h y x) h fun s => (if y = 1 then s else s.pairFlush s.cur.gid).fence y x)

end Sys2Proof.Machine
end

