-- ==== Sys2Proof/Machine/Matrix.lean ====
section
/-! DEFINITION. The matrix arrays, the accumulator tiles and the adapter cache (10_matrix.md R268-R296;
05_numbers.md R132-R139). An array takes its commands one at a time; a K-step is one event. -/

namespace Sys2Proof.Machine

open Sys2Proof

/-! ### Tiles and tokens (R268-R270) -/

/-- Change a tile. -/
def State.updTile (s : State) (core t : Nat) (f : Tile → Tile) : State := s.setTile core t (f (s.tile core t))
/-- The issuing group's core. -/
def State.ccore (s : State) : Nat := s.cg.core
/-- A tile of the issuing core. -/
def State.ct (s : State) (t : Nat) : Tile := s.tile s.ccore t
/-- TOKEN: the issuing group does not hold a tile's token (R270). -/
def tokenTrap (t : Nat) (s : State) : Option Trap :=
  if (s.ct t).tok = some s.cur.gid then none else some (s.mkTrap 0x06 0 (w32 t))
/-- The follow-ons of a block that are armed, ride on a copy, or wait for the array (R263). -/
def CopyCtx.follows (c : CopyCtx) : List Mma := c.armed.toList ++ c.queue.filterMap (·.follow) ++ c.landed
def Block.follows (b : Block) : List Mma := b.copy.flatMap fun x => x.2.follows
/-- The commands accepted on a tile and not complete, follow-ons included (R263, R273). -/
def State.tileCmds (s : State) (core t : Nat) : List Mma :=
  let queued := (s.co core).mmas.filter fun m => decide (m.tile = t)
  match (s.tile core t).blk with
  | some bid => queued ++ ((s.b bid).follows.filter fun m => decide (m.tile = t ∧ (s.b bid).coreOf m.member = core))
  | none => queued

/-- The cleared state of MX.ZERO (R275). -/
def Tile.zero (x : Tile) (anchor : Nat) : Tile :=
  { x with elems := [], wovf := [], pois := [], acnt := 0, guard := false, mtmask := 0, apend := 0, amis := false
           anchor := anchor }

/-- The acquire of a tile is ready (R273). -/
def acqReady (t : Nat) (s : State) : Bool :=
  let x := s.ct t
  decide (x.blk = none ∨ x.blk = some s.cg.bid) && decide (x.tok = none) && (s.tileCmds s.ccore t).isEmpty

/-- The acquire takes the tile, acquires at GROUP scope from the commands that it waited for, and covers them (R234, R273,
R289): the first of them that ended in a fault not raised yet raises it. -/
def acqAct (t : Nat) (s : State) : State :=
  let bid := s.cg.bid
  let x := s.ct t
  let s := s.acquire s.issuers 1 (x.done.flatMap fun c => s.tagged (engTag 1 bid c.1 c.2))
  let pending := x.faulted.filter fun c => ((s.b bid).mx.get c.1).traps.any fun y => decide (y.1 = c.2)
  let raised := pending.head?
  let u := s.updTile s.ccore t fun x => { x with blk := some bid, tok := some s.cur.gid, faulted := pending.drop 1, done := [] }
  let u := pending.foldl (fun u c => u.updCtx bid 1 c.1 fun y => { y with seen := y.seen ++ [c.2] }) u
  match raised with
  | some (i, n) =>
    match ((s.b bid).mx.get i).traps.find? fun y => decide (y.1 = n) with
    | some (_, tr) =>
      (u.updCtx bid 1 i fun y => { y with traps := y.traps.filter fun z => decide (z.1 ≠ n) }).raiseRecorded tr
    | none => u.advance
  | none => u.advance

/-- MX.ACQ (R273). -/
def execMxAcq (h : Hdr) (t : Nat) (s : State) : Host.Outcome State Fault Refusal :=
  perform s (scalarCore (.mxAcq h t) h (fun _ => none) fun s0 s =>
    if (s.ct t).tok = some s.cur.gid then s.advance
    else if acqReady t s then acqAct t s else s0.wait)

/-- The tile that a plane issue still to come writes. -/
def Later.writesTile (x : Later) (t : Nat) : Bool :=
  match x.code with
  | .word w _ => decide (w / 2 % 32 = 17) && decide (w / 2 ^ 17 % 8 = t)
  | .parcel _ => false
/-- Every MX.WR of the group on a tile has written it, with all its plane issues (R44, R92, R274); its raw images are moved
when they issue. -/
def tileWritten (t : Nat) (s : State) : Bool :=
  (s.cg.pend.all fun p => !(decide (p.file = .tile ∧ p.reg = t) && decide (s.cycle < p.ready))) &&
    (List.range 4).all fun k => (s.cg.splits.get k).more.all fun x => !x.writesTile t
/-- MX.REL (R274). -/
def execMxRel (h : Hdr) (t : Nat) (s : State) : Host.Outcome State Fault Refusal :=
  perform s (scalarInstr (.mxRel h t) h (tokenTrap t) (tileWritten t) fun s =>
    s.updTile s.ccore t fun x => { x with tok := none })

/-- MX.ZERO (R275): what the group's MX.WR have still to write to the tile is cleared with it. -/
def execMxZero (h : Hdr) (y t : Nat) (s : State) : Host.Outcome State Fault Refusal :=
  perform s (scalarInstr (.mxZero h y t) h
    (fun s => (tokenTrap t s).or
      (if sgn (s.s (2 * y)) < -128 ∨ 127 < sgn (s.s (2 * y)) then some s.illegal else none))
    (fun _ => true) fun s =>
      (s.updTile s.ccore t fun x => x.zero ((s.s (2 * y)).toNat % 256)).updCG fun g =>
        { g with pend := g.pend.filter fun p => !decide (p.file = .tile ∧ p.reg = t) })

/-- MX.STAT (R295). -/
def execMxStat (h : Hdr) (y t : Nat) (s : State) : Host.Outcome State Fault Refusal :=
  perform s (scalarInstr (.mxStat h y t) h (tokenTrap t) (fun _ => true) fun s =>
    let x := s.ct t
    let w := (!x.pois.isEmpty).toNat * 2048 + x.amis.toNat * 1024 + (!x.wovf.isEmpty).toNat * 512
      + x.guard.toNat * 256 + x.anchor
    (((s.setS (2 * y) (w32 w)).setS (2 * y + 1) (w32 x.acnt)).setS (2 * y + 2) (loW x.mtmask)).setS (2 * y + 3)
      (hiW x.mtmask))

/-! ### Elements (R137-R139, R145) -/

/-- What a read of an element finds: the 64-bit integer, WOVF and POIS. -/
def Tile.elem (x : Tile) (e : Nat) : Nat × Bool × Bool := ((x.elems.get e).toNat, x.wovf.get e, x.pois.get e)
/-- An element as `Pend.old` keeps it. -/
def packElem (a : Nat × Bool × Bool) : Nat := a.1 + 2 ^ 64 * a.2.1.toNat + 2 ^ 65 * a.2.2.toNat
/-- Element e of a tile as the issuing split reads it (R62). -/
def State.elem (s : State) (t e : Nat) : Nat × Bool × Bool :=
  match staleFind s.cur.stale .tile t e with
  | some (x, _) => (x % 2 ^ 64, bit x 64, bit x 65)
  | none => (s.ct t).elem e
/-- A tile as the issuing split reads it whole. -/
def State.seenTile (s : State) (t : Nat) : Tile :=
  s.cur.stale.foldr
    (fun (y : RegFile × Nat × Nat × Nat × Bool) (x : Tile) =>
      if y.1 = .tile ∧ y.2.1 = t then
        let n := y.2.2.2.1
        { x with elems := x.elems.put y.2.2.1 (BitVec.ofNat 64 n), wovf := x.wovf.put y.2.2.1 (bit n 64), pois := x.pois.put y.2.2.1 (bit n 65) }
      else x) (s.ct t)
/-- The conversion of an element to FP32 under RNE (R138, R145). -/
def elemF32 (x : Tile) (table : Word) (a : Nat × Bool × Bool) : Conv :=
  if a.2.1 ∨ x.guard then { code := fp32.nan }
  else
    let n := sext 64 a.1
    toFloat fp32 table 7 .rne (.fin (decide (n < 0)) n.natAbs (sext 8 x.anchor))
/-- An FP32 word as an element (R139): the integer and WOVF. -/
def elemOf (x : Tile) (w : Word) : DWord × Bool :=
  match fv w with
  | .fin neg m e =>
    let n := roundInt .rne neg m (e - sext 8 x.anchor)
    if 2 ^ 63 ≤ n then (BitVec.ofNat 64 (2 ^ 63 - 1), true)
    else if n < -2 ^ 63 then (BitVec.ofNat 64 (2 ^ 63), true)
    else (wrap64 n, false)
  | _ => (0#64, true)
/-- Write an element. -/
def Tile.setElem (x : Tile) (e : Nat) (a : DWord) (w po : Bool) : Tile :=
  { x with elems := x.elems.put e a, wovf := x.wovf.put e w, pois := x.pois.put e po }

/-! ### MX.RD and MX.WR (R292) -/

/-- The slice index. -/
def State.sliceIdx (s : State) (m i : Nat) : Nat := (s.s i).toNat + m
/-- Element number k of a slice: a row or a column. -/
def sliceElem (slice x k : Nat) : Nat := if slice = 0 then 64 * x + k else 64 * k + x
/-- The operand checks: TOKEN, then the index. -/
def sliceCheck (m t i : Nat) (s : State) : Option Trap :=
  (tokenTrap t s).or (if 63 < s.sliceIdx m i then some s.illegal else none)

/-- MX.RD of one plane issue; a finite value beyond FP32 in some lane of it may raise OVF (R149). -/
def mxRdAct (h : Hdr) (m sl t i v : Nat) (s : State) : State :=
  let x := s.sliceIdx m i
  let out (l hi : Nat) : Conv := elemF32 (s.ct t) s.cg.ovf (s.elem t (sliceElem sl x (l + 32 * hi)))
  let bad := maskOf fun l => inMask (s.laneActive h) l && ((out l 0).ovf || (out l 1).ovf)
  if bad ≠ 0#32 then ovfStop bad s
  else forLanes (s.laneActive h) s fun u l =>
    let put (u : State) (hi : Nat) : State :=
      (u.setV (v + hi) l (w32 (out l hi).code) (s.elem t (sliceElem sl x (l + 32 * hi))).2.2).stick (out l hi).stick
    put (put u 0) 1

/-- MX.RD (R292). -/
def execMxRd (h : Hdr) (m sl t i v : Nat) (s : State) : Host.Outcome State Fault Refusal :=
  perform s (laneInstr (.mxRd h m sl t i v) h (sliceCheck m t i) (mxRdAct h m sl t i v))

/-- MX.WR of one plane issue. -/
def mxWrAct (h : Hdr) (m sl t i v : Nat) (s : State) : State :=
  let x := s.sliceIdx m i
  forLanes (s.laneActive h) s fun u l =>
    let put (hi : Nat) (y : Tile) : Tile :=
      let a := elemOf y (s.v (v + hi) l)
      y.setElem (sliceElem sl x (l + 32 * hi)) a.1 a.2 (s.vp (v + hi) l)
    u.updTile s.ccore t fun y => put 1 (put 0 y)

/-- MX.WR (R292). -/
def execMxWr (h : Hdr) (m sl t i v : Nat) (s : State) : Host.Outcome State Fault Refusal :=
  perform s (laneInstr (.mxWr h m sl t i v) h (sliceCheck m t i) (mxWrAct h m sl t i v))

/-! ### MX.MMA: acceptance (R276-R280, R282) -/

/-- The lanes whose format words count: Active(split). -/
def State.fmtLanes (s : State) (h : Hdr) : List Nat := lanesOf (s.active h)
/-- The format word breaks R276. -/
def fmtBad (w : Nat) : Bool :=
  let fa := bits w 3 0
  let fb := bits w 7 4
  decide (bits w 31 20 ≠ 0 ∨ 10 < fa ∨ 10 < fb ∨ 3 < bits w 19 17 ∨ (bit w 16 = false ∧ bits w 19 17 ≠ 0)
    ∨ (3 ≤ fa ∧ fa ≤ 7 ∧ bits w 11 8 = 0) ∨ (3 ≤ fb ∧ fb ≤ 7 ∧ bits w 15 12 = 0))
/-- The s[Y+4] rule under the word's ADPT (R277, R68). -/
def State.idRegBad (s : State) (w r : Nat) : Bool :=
  if bit w 16 then decide (63 < r) || !s.vExists s.cg r else decide (r ≠ 0xFFFFFFFF)
/-- Bytes of an operand (R278). -/
def operandBytes (k w : Nat) : Nat := k / 32 * (256 * w + 128)
/-- An operand lies outside the allocation (R278, R185). -/
def State.operandOut (s : State) (a k w : Nat) : Bool := (s.scratchPlace s.cg a (operandBytes k w)).isNone

/-- The adapter ids of the 64 rows (R282). DEDUCED, log entry 31. -/
def State.adapterIds (s : State) (v : Nat) : List Nat :=
  let word (l : Nat) : Nat := if inMask (s.liveS &&& ~~~ s.cg.dead) l then (s.v v l).toNat else 0xFFFFFFFF
  (List.range 64).map fun i => if i < 32 then word i % 65536 else word (i - 32) / 65536
/-- Some lane supplies no ids (R282). -/
def State.idsAbsent (s : State) : Bool := decide (s.liveS &&& ~~~ s.cg.dead ≠ allLanes)

/-- The operand checks of MX.MMA and CP.FOLLOW on the block at register r with the format words of va (R279). A
poisoned format word or adapter id stops the group like a poisoned scalar (R378). DEDUCED, log entry 51. -/
def mmaCheck (h : Hdr) (r a : Nat) (s : State) : Option Trap :=
  let w (k : Nat) : Nat := (s.s (r + k)).toNat
  let lanes := s.fmtLanes h
  match lanes.find? fun l => s.vp a l with
  | some _ => some (s.poisonTrap a)
  | none =>
    if 7 < w 0 ∨ w 1 % 4 ≠ 0 ∨ w 2 % 4 ≠ 0 ∨ w 3 % 32 ≠ 0 ∨ w 3 < 32 ∨ 2048 < w 3 ∨ bits (w 5) 15 12 ≠ 0
        ∨ bits (w 5) 31 28 ≠ 0 ∨ 7 < w 6 ∨ lanes = [] then some s.illegal
    else
      let f := s.v a (lanes.headD 0)
      match lanes.find? fun l => decide (s.v a l ≠ f) with
      | some l => some (s.mkTrap 0x05 0 (w32 l))
      | none =>
        if fmtBad f.toNat || s.idRegBad f.toNat (w 4) then some s.illegal
        else if bit f.toNat 16 ∧ (lanesOf (s.liveS &&& ~~~ s.cg.dead)).any fun l => s.vp (w 4) l then
          some (s.poisonTrap (w 4))
        else
          let x := s.ct (w 0)
          if x.blk ≠ some s.cg.bid ∨ x.tok ≠ none then some (s.mkTrap 0x06 0 (w32 (w 0)))
          else if s.operandOut (w 1) (w 3) (bits f.toNat 11 8 + 1) then some (s.rangeTrap 0 (w 1))
          else if s.operandOut (w 2) (w 3) (bits f.toNat 15 12 + 1) then some (s.rangeTrap 0 (w 2))
          else s.queueTrap 1 (w 6)

/-- The command that a block and a format word describe, as the matrix context accepts it. -/
def State.mmaOf (s : State) (h : Hdr) (r a num : Nat) : Mma :=
  let w (k : Nat) : Nat := (s.s (r + k)).toNat
  let f := (s.v a ((s.fmtLanes h).headD 0)).toNat
  { bid := s.cg.bid, ctx := w 6, num := num, part := partOf s.cg.slot, member := s.memberOf s.cg, seq := s.seq
    tile := w 0, a := w 1, b := w 2, k := w 3, wa := bits f 11 8 + 1, wb := bits f 15 12 + 1, adpt := bit f 16
    rcode := bits f 19 17, layer := bits (w 5) 11 0, koff := bits (w 5) 27 16
    ids := if bit f 16 then s.adapterIds (w 4) else [], marked := s.cg.poisonPass.isSome }

/-- Accept a command in a context of the issuing block and write its number back (R232, R249): a release at DEVICE scope,
FABRIC for a collective context (R233). -/
def State.acceptCmd (s : State) (kind i r : Nat) : Nat × State :=
  let n := ((s.cb.ctx kind i).accept).1
  let t := s.release s.issuers (if kind = 3 then 7 else 6) (issueTag kind s.cg.bid i n)
  (n, ((t.updCtx s.cg.bid kind i fun c => c.accept.2).setS r (w32 n)).updCG fun g => { g with cmds := g.cmds ++ [(kind, i, n)] })

/-- Accept a matrix command: its number goes to s[r+7], XABSENT is set where a lane supplies no ids (R282). -/
def State.acceptMma (s : State) (h : Hdr) (r a : Nat) : Mma × State :=
  let (n, t) := s.acceptCmd 1 (s.s (r + 6)).toNat (r + 7)
  let m := s.mmaOf h r a n
  let t := if m.adpt && s.idsAbsent then t.stick [xAbsent] else t
  (m, { t with seq := s.seq + 1 })

/-- A matrix context holds at most 16 incomplete commands (R280). -/
def State.mxRoom (s : State) (r : Nat) : Bool :=
  decide ((s.cb.mx.get (s.s (r + 6)).toNat).open_.length < 16)
/-- An array holds at most 4 (R280). -/
def State.arrayRoom (s : State) (core part : Nat) : Bool :=
  decide (((s.co core).mmas.filter fun m => decide (m.part = part)).length < 4)
/-- Queue a command on its array. -/
def State.queueMma (s : State) (core : Nat) (m : Mma) : State :=
  s.updCo core fun c => { c with mmas := c.mmas ++ [m] }

/-- MX.MMA (R279). A pair compares first (R386). -/
def execMxMma (h : Hdr) (y a : Nat) (s : State) : Host.Outcome State Fault Refusal :=
  perform s (scalarInstr (.mxMma h y a) h (mmaCheck h (2 * y) a)
    (fun s => s.mxRoom (2 * y) && s.arrayRoom s.ccore (partOf s.cg.slot))
    fun s =>
      let r := (s.pairFlush s.cur.gid).acceptMma h (2 * y) a
      r.2.queueMma s.ccore r.1)

/-! ### The array (R271, R272, R278, R279) -/

/-- A stand-in for the group that issued an engine command: its block, member, core and privilege. -/
def issuer (bid member core : Nat) (priv : Bool) : Group :=
  { bid := bid, index := 128 * member, core := core, priv := priv }
/-- Where an operand of a command lies. -/
def State.operandPlace (s : State) (core : Nat) (m : Mma) (a w : Nat) : Place :=
  (s.scratchPlace (issuer m.bid m.member core false) a (operandBytes m.k w)).getD (.scratch m.bid 0)

/-- The number in some bytes at an offset of a place, as an engine reads it. -/
def State.numAt (s : State) (r : Reader) (p : Place) (o n : Nat) : Nat := leNat (s.see r (p.plus o) n)
/-- Some of n bytes at an offset carries poison. -/
def State.poAt (s : State) (p : Place) (o n : Nat) : Bool := s.placePo (p.plus o) n

/-- Row i of block b of an operand at width w (R278): the exponent, the 32 integers, and the poison of its words. -/
structure PlaneRow where
  e : Int := 0
  q : List Int := []
  po : Bool := false
  deriving DecidableEq, Repr, Inhabited

/-- A row with the mark of a command's writes (R372). -/
def PlaneRow.mark (r : PlaneRow) (po : Bool) : PlaneRow := { r with po := r.po || po }

/-- The w-bit two's-complement integer whose bit p is bit k of plane word p (R132). -/
def planeInt (words : List Nat) (k : Nat) : Int :=
  sext words.length (words.foldr (fun x a => 2 * a + x / 2 ^ k % 2) 0)

/-- The NaN exponent (R133). -/
def nanExp : Int := -32768
/-- Read a row of an operand, word by word (R279); the q of a NaN block are never read, and their marks do not count (R133). -/
def State.planeRow (s : State) (r : Reader) (p : Place) (w b i : Nat) : PlaneRow :=
  let base := b * (256 * w + 128)
  let words := (List.range w).map fun k => s.numAt r p (base + 4 * (i * w + k)) 4
  let e := sext 16 (s.numAt r p (base + 256 * w + 2 * i) 2)
  { e := e
    q := (List.range 32).map (planeInt words)
    po := (decide (e ≠ nanExp) && s.poAt p (base + 4 * (i * w)) (4 * w)) || s.poAt p (base + 256 * w + 2 * i) 2 }

/-- Floor(x × 2^n). -/
def floorScale (x n : Int) : Int := if 0 ≤ n then x * (2 ^ n.toNat : Nat) else x / (2 ^ (-n).toNat : Nat)
/-- The clamp of an addend: its value and whether it sets WOVF (R271). -/
def clampAddend (d : Int) : Int × Bool :=
  if 2 ^ 47 ≤ d.natAbs then (if 0 < d then 2 ^ 47 - 1 else -(2 ^ 47 - 1), true) else (d, false)
/-- Add an addend to an element, or only set its WOVF. -/
def Tile.addend (x : Tile) (e : Nat) (d : Int) (w po : Bool) : Tile :=
  { x with
    elems := x.elems.upd e fun a => wrap64 (sext 64 a.toNat + d)
    wovf := if w then x.wovf.put e true else x.wovf
    pois := if po then x.pois.put e true else x.pois }
/-- Σ of the products of two lists. -/
def dot (a b : List Int) : Int := (a.zip b).foldl (fun t x => t + x.1 * x.2) 0

/-- One element of a K-step (R271). -/
def Tile.kElem (x : Tile) (e : Nat) (a b : PlaneRow) : Tile :=
  if a.e = nanExp ∨ b.e = nanExp then x.addend e 0 true (a.po || b.po)
  else
    let d := clampAddend (floorScale (dot a.q b.q) (a.e + b.e - sext 8 x.anchor))
    x.addend e d.1 d.2 (a.po || b.po)

/-- One more addend for each element: ACNT and GUARD (R271, R282). -/
def Tile.countUp (x : Tile) : Tile :=
  let n := min (x.acnt + 1) (2 ^ 32 - 1)
  { x with acnt := n, guard := x.guard || decide (32767 < n) }

/-- One K-step on the 64 × 64 elements (R271). -/
def Tile.kStep (x : Tile) (step : Nat) (a b : List PlaneRow) : Tile :=
  let y := (List.range 4096).foldl (fun y e => y.kElem e (a.getD (e / 64) {}) (b.getD (e % 64) {})) x
  let y := y.countUp
  { y with mtmask := if bit y.mtmask step then y.mtmask else y.mtmask + 2 ^ step }

/-- The K-steps a command has. -/
def Mma.steps (m : Mma) : Nat := m.k / 32
/-- The first K-step that a tile's running command has not performed. -/
def Mma.nextStep (m : Mma) (x : Tile) : Option Nat := (List.range m.steps).find? fun k => !bit x.mtmask k

/-- The command that an array runs. -/
def State.running (s : State) (core part : Nat) : Option Mma :=
  (s.co core).mmas.find? fun m => decide (m.part = part) && m.started
/-- Replace a command by its acceptance number. -/
def State.setMma (s : State) (core : Nat) (m : Mma) : State :=
  s.updCo core fun c => { c with mmas := c.mmas.map fun x => if x.seq = m.seq then m else x }
/-- A command becomes counted against GUARD: ACC_GUARD is recorded where GTRAP is 1 (R289). -/
def State.guardTrap (s : State) (core : Nat) (before : Tile) (m : Mma) : Mma :=
  if (s.tile core m.tile).guard ∧ ¬ before.guard ∧ (s.co core).mxctl.getLsbD 0 ∧ m.trap = none then
    { m with trap := some { code := 0x0E, tval := w32 m.tile, taddr := m.num } }
  else m

/-- The commands of a partition that may start: no earlier one is outstanding on the tile (R279).
DESIGN CHOICE, log entry 137. -/
def State.mayStart (s : State) (core part : Nat) : Option Mma :=
  match s.running core part with
  | some _ => none
  | none => (s.co core).mmas.find? fun m => decide (m.part = part) &&
      (s.tileCmds core m.tile).all fun x => decide (m.seq ≤ x.seq)

/-- MMA_COMMAND_START (R279). -/
def execMmaCommandStart (core part : Nat) (s : State) : Host.Outcome State Fault Refusal :=
  event (match s.mayStart core part with
    | some m => (s.setMma core { m with started := true }).updTile core m.tile fun x => { x with mtmask := 0, apend := 0 }
    | none => s)

/-- A command as a reader of its operands, and the event of a read (R233). -/
def State.mmaReader (s : State) (m : Mma) : Reader := s.engReader m.bid 1 m.ctx m.num m.after
def State.mmaRead (s : State) (m : Mma) : State := s.engRead m.bid 1 m.ctx m.num 6 m.after
/-- One K-step of a command (R271). DESIGN CHOICE, log entry 18. -/
def State.kStep (s : State) (core : Nat) (m : Mma) (k : Nat) : State :=
  let pa := s.operandPlace core m m.a m.wa
  let pb := s.operandPlace core m m.b m.wb
  let before := s.tile core m.tile
  let r := s.mmaReader m
  let row (p : Place) (w i : Nat) : PlaneRow := (s.planeRow r p w k i).mark m.marked
  let t := s.updTile core m.tile fun x => x.kStep k ((List.range 64).map (row pa m.wa)) ((List.range 64).map (row pb m.wb))
  (t.setMma core (t.guardTrap core before m)).mmaRead m

/-- K_STEP (R271). -/
def execKStep (core part : Nat) (s : State) : Host.Outcome State Fault Refusal :=
  event (match s.running core part with
    | some m => match m.nextStep (s.tile core m.tile) with
      | some k => s.kStep core m k
      | none => s
    | none => s)

/-! ### Adapter rows (R282-R289) -/

/-- The adapter cache of a die. -/
def State.adKey (s : State) (die key : Nat) : AdKey := (s.di die).adapters.get key
/-- Change a key of it. -/
def State.setAdKey (s : State) (die key : Nat) (k : AdKey) : State :=
  s.updDi die fun d => { d with adapters := d.adapters.put key k }
/-- A key from its layer and id. -/
def keyNum (layer id : Nat) : Nat := layer * 65536 + id
/-- The key of a row of a command; none where it has no adapter. -/
def Mma.rowKey (m : Mma) (i : Nat) : Option Nat :=
  let id := m.ids.getD i 0xFFFF
  if id = 0xFFFF then none else some (keyNum m.layer id)

/-- A fill starts unless the key is there (R284, R290). -/
def State.startFill (s : State) (die key : Nat) : State :=
  if (s.adKey die key).st = 0 then s.setAdKey die key { st := 1 } else s

/-- Fields of an adapter record (R286). -/
def recKl (bs : List Byte) : Nat := field32 bs 0
def recRcode (bs : List Byte) : Nat := (bs.getD 4 0#8).toNat
def recEl (bs : List Byte) : Int := sext 16 (leNat ((bs.drop 8).take 2))
def recEr (bs : List Byte) : Int := sext 16 (leNat ((bs.drop 10).take 2))
/-- A signed byte of a record. -/
def recByte (bs : List Byte) (o : Nat) : Int := sext 8 (bs.getD o 0#8).toNat

/-- The rows of A of a command at row i, one for each K-step. -/
def State.rowsA (s : State) (core : Nat) (m : Mma) (i : Nat) : List PlaneRow :=
  (List.range m.steps).map fun k => (s.planeRow (s.mmaReader m) (s.operandPlace core m m.a m.wa) m.wa k i).mark m.marked

/-- An exact sum of dyadic terms, each an integer times a power of two. -/
def sumDyadic (l : List (Int × Int)) : Int × Int :=
  let e := l.foldl (fun a x => if x.1 = 0 then a else min a x.2) (l.foldl (fun a x => max a x.2) 0)
  (l.foldl (fun a x => a + x.1 * (2 ^ (x.2 - e).toNat : Nat)) 0, e)

/-- Tr(c): the rounded sum of a column of L (R282). -/
def trOf (rows : List PlaneRow) (bs : List Byte) (r k0 c : Nat) : Word :=
  let kl := recKl bs
  let terms := rows.zipIdx.map fun (row, s) =>
    (dot row.q ((List.range 32).map fun k =>
      let x := k0 + 32 * s + k
      if x < kl then recByte bs (64 + x * r + c) else 0), row.e + recEl bs)
  let t := sumDyadic terms
  if t.1 = 0 then 0#32 else f32 .rne (decide (t.1 < 0)) t.1.natAbs t.2

/-- WOVF for every element of a row, with the mark of the command's writes (R372). -/
def Tile.rowWovf (x : Tile) (i : Nat) (po : Bool) : Tile :=
  let all (m : SMap Bool) : SMap Bool := (List.range 64).foldl (fun m j => m.put (64 * i + j) true) m
  { x with wovf := all x.wovf, pois := if po then all x.pois else x.pois }

/-- The adapter term of a row (R282). -/
def Tile.adapterRow (x : Tile) (m : Mma) (i : Nat) (rows : List PlaneRow) (k : AdKey) : Tile :=
  let r := 8 * 2 ^ m.rcode
  if ¬ k.valid ∨ recRcode k.bytes ≠ m.rcode ∨ rows.any fun a => decide (a.e = nanExp) then x.rowWovf i m.marked
  else
    let tr := (List.range r).map fun c => fv (trOf rows k.bytes r (32 * m.koff) c)
    if tr.any fun v => match v with | .inf _ => true | _ => false then x.rowWovf i m.marked
    else
      let base := 64 + recKl k.bytes * r
      let po := k.poison || m.marked || rows.any (·.po)
      (List.range 64).foldl
        (fun x j =>
          let t := sumDyadic (tr.zipIdx.map fun (v, c) => match v with
            | .fin n a e => (sm n a * recByte k.bytes (base + 64 * c + j), e)
            | _ => (0, 0))
          let d := clampAddend (floorScale t.1 (t.2 + recEr k.bytes - sext 8 x.anchor))
          x.addend (64 * i + j) d.1 d.2 po)
        x

/-- One row at the adapter stage: its term where the key is present, else the row is owed and a fill starts
(R284). -/
def State.adapterRow (s : State) (core : Nat) (m : Mma) (i : Nat) : State :=
  match m.rowKey i with
  | none => s
  | some key =>
    let die := dieOf core
    let k := s.adKey die key
    if k.st = 2 then
      (s.updTile core m.tile fun x =>
        { (x.adapterRow m i (s.rowsA core m i) k) with apend := if bit x.apend i then x.apend - 2 ^ i else x.apend }).mmaRead m
    else
      (s.startFill die key).updTile core m.tile fun x =>
        { x with apend := if bit x.apend i then x.apend else x.apend + 2 ^ i }

/-- The rows a command still owes. -/
def Mma.owed (m : Mma) (x : Tile) : List Nat :=
  if m.staged then (List.range 64).filter (bit x.apend) else (List.range 64).filter fun i => (m.rowKey i).isSome

/-- ADAPTER_STAGE (R282, R284): the first pass counts once and takes every row; a later one replays the owed rows
whose keys have landed, and starts the fills that are missing. -/
def State.adapterStage (s : State) (core : Nat) (m : Mma) : State :=
  let x := s.tile core m.tile
  let t := if m.staged then s else s.updTile core m.tile Tile.countUp
  let m' := t.guardTrap core x { m with staged := true }
  (m.owed x).foldl (fun t i => t.adapterRow core m i) (t.setMma core m')

/-- ADAPTER_STAGE (R282). -/
def execAdapterStage (core part : Nat) (s : State) : Host.Outcome State Fault Refusal :=
  event (match s.running core part with
    | some m => if m.adpt ∧ m.nextStep (s.tile core m.tile) = none then s.adapterStage core m else s
    | none => s)

/-- A command has nothing left to do. -/
def Mma.finished (m : Mma) (x : Tile) : Bool :=
  decide (m.nextStep x = none) && (!m.adpt || (m.staged && decide (x.apend = 0)))

/-- A command leaves its array, and its number completes with its trap (R279, R289). -/
def State.retireMma (s : State) (core : Nat) (m : Mma) : State :=
  let t := (s.updCo core fun c => { c with mmas := c.mmas.filter fun x => decide (x.seq ≠ m.seq) }).finish m.bid 1 m.ctx
    m.num m.trap
  t.updTile core m.tile fun x =>
    { x with
      done := x.done ++ [(m.ctx, m.num)], faulted := if m.trap.isSome then x.faulted ++ [(m.ctx, m.num)] else x.faulted }

/-- MMA_COMMAND_COMPLETE (R279). -/
def execMmaCommandComplete (core part : Nat) (s : State) : Host.Outcome State Fault Refusal :=
  event (match s.running core part with
    | some m => if m.finished (s.tile core m.tile) then s.retireMma core m else s
    | none => s)

/-! ### Fills (R285-R288, R291) -/

/-- ADIRBASE and EN (R287). -/
def State.adirBase (s : State) : Nat := bits s.adirhi.toNat 19 0 * 2 ^ 32 + bits s.adirlo.toNat 31 4 * 16
def State.adirEn (s : State) : Bool := s.adirlo.getLsbD 0

/-- What the invalidation of a key is known by, and of every key (R290). -/
def ainvTag (key : Option Nat) : List Nat := match key with
  | some k => [11, k]
  | none => [12]
/-- A fill of a key as a reader: it follows every MX.AINV that covers the key (R291). DEDUCED, log entry 113. -/
def State.fillReader (s : State) (die key : Nat) : Reader :=
  { q := { kind := 2, index := die, core := 48 * die }
    start := s.tagged (ainvTag (some key)) ++ s.tagged (ainvTag none), draw := s.free }
/-- Bytes that a privileged engine of a die reads, translated byte by byte: the bytes and their poison, or the fault's
code and address. One draw settles for the whole fill whether it finds the record as it stands or as the last MX.AINV that
covers the key left it (R291). DEDUCED, log entry 128. -/
def State.fillRead (s : State) (die : Nat) (r : Reader) (va n : Nat) : Except (Nat × Nat) (List Byte × Bool) :=
  let one (a : Nat) : Except (Nat × Nat) (Byte × Bool) :=
    match (s.translate (48 * die) true .load a).1 with
    | .ok p =>
      let j := if Config.freeBit r.draw then s.missable r.q r.start p 1 else 0
      .ok ((s.without p 1 j).1.headD 0#8, s.placePo p 1)
    | .error c => .error (c, a)
  (List.range n).foldr
    (fun k r => match one (va + k), r with
      | .ok b, .ok l => .ok (b.1 :: l.1, b.2 || l.2)
      | .error e, _ => .error e
      | _, .error e => .error e)
    (.ok ([], false))

/-- What a fill finds: the key as it will stand, or the trap it records and its address. A record larger than the
cache is none. -/
inductive FillResult where
  | got (k : AdKey)
  | tooLarge
  | failed (code sub taddr : Nat)
  deriving DecidableEq, Repr, Inhabited

/-- The bytes a record takes (R285). -/
def recSize (kl rcode : Nat) : Nat := 64 + kl * (8 * 2 ^ rcode) + 64 * (8 * 2 ^ rcode)
/-- The cache's size and its keys (R285). -/
def adBytes : Nat := 32 * 2 ^ 20
def adKeys : Nat := 2048

/-- An invalid record is present without bytes. -/
def AdKey.invalid (po : Bool) : AdKey := { st := 2, poison := po }

/-- Fetch the record of a key (R285, R286). -/
def State.fetchRecord (s : State) (die key : Nat) : FillResult :=
  let r := s.fillReader die key
  if ¬ s.adirEn then .got (.invalid false)
  else match s.fillRead die r (s.adirBase + 16 * key) 16 with
    | .error (c, a) => .failed c 2 a
    | .ok (e, po) =>
      let x := leNat e
      let va := x % 2 ^ 52
      if po then .failed 0x0D 4 0
      else if ¬ bit x 52 ∨ x / 2 ^ 53 ≠ 0 ∨ va % 64 ≠ 0 then .got (.invalid false)
      else match s.fillRead die r va 64 with
        | .error (c, a) => .failed c 2 a
        | .ok (hd, po1) =>
          let kl := recKl hd
          let rc := recRcode hd
          if kl % 32 ≠ 0 ∨ kl < 32 ∨ 65536 < kl ∨ 3 < rc ∨ ((hd.drop 5).take 3 ++ hd.drop 12).any (· ≠ 0#8) then
            .got (.invalid po1)
          else if adBytes < recSize kl rc then .tooLarge
          else match s.fillRead die r (va + 64) (recSize kl rc - 64) with
            | .error (c, a) => .failed c 2 a
            | .ok (bs, po2) => .got { st := 2, recva := va, bytes := hd ++ bs, valid := true, poison := po1 || po2 }

/-- Room for one more record: keys are evicted, freely chosen, until it fits (R285). DESIGN CHOICE, log entry 57. -/
def makeRoom (draw size : Nat) : Nat → List (Nat × AdKey) → List (Nat × AdKey)
  | 0, l => l
  | fuel + 1, l =>
    let here := l.filter fun k => decide (k.2.st = 2)
    let used := here.foldl (fun a k => a + max 64 k.2.bytes.length) 0
    if here.length < adKeys ∧ used + size ≤ adBytes then l
    else
      match here[Config.pick (draw + fuel) % max 1 here.length]? with
      | some v => makeRoom draw size fuel (l.filter fun k => decide (k.1 ≠ v.1))
      | none => l

/-- The commands of a die that owe rows of a key. -/
def State.waiters (s : State) (die key : Nat) : List (Nat × Mma × Nat) :=
  (List.range 48).flatMap fun c =>
    let core := 48 * die + c
    (s.co core).mmas.flatMap fun m =>
      if m.started && m.staged then
        ((m.owed (s.tile core m.tile)).filter fun i => decide (m.rowKey i = some key)).map fun i => (core, m, i)
      else []

/-- An owed row is given up: WOVF on its elements, no term (R285, R288). DESIGN CHOICE, log entry 138. -/
def State.dropRow (s : State) (core : Nat) (m : Mma) (i : Nat) (t : Option Trap) : State :=
  let u := s.updTile core m.tile fun x => { (x.rowWovf i m.marked) with apend := if bit x.apend i then x.apend - 2 ^ i else x.apend }
  match (u.co core).mmas.find? fun x => decide (x.seq = m.seq) with
  | some x => if x.trap = none then u.setMma core { x with trap := t } else u
  | none => u

/-- ADAPTER_FILL_LAND (R284, R285): a fill that finds a record, an invalid one, or one too large for the cache. -/
def execAdapterFillLand (die key : Nat) (s : State) : Host.Outcome State Fault Refusal :=
  event (
    let k := s.adKey die key
    if k.st ≠ 1 then s
    else match s.fetchRecord die key with
      | .got x =>
        let n := (s.di die).adapters.length
        let t := s.updDi die fun d => { d with adapters := makeRoom s.free (max 64 x.bytes.length) n d.adapters }
        { t with free := s.free + n + 1 }.setAdKey die key x
      | .tooLarge => (s.waiters die key).foldl (fun t w => t.dropRow w.1 w.2.1 w.2.2 none) (s.setAdKey die key {})
      | .failed _ _ _ => s)

/-- The trap that a failed fill records against a command (R288, R435). -/
def fillTrap (m : Mma) (code sub taddr : Nat) : Trap :=
  if sub = 2 then { code := code, sub := 2, tval := w32 (ctxWord 1 m.ctx + 256), taddr := taddr }
  else { code := code, sub := sub, tval := w32 (ctxWord 1 m.ctx), taddr := m.num }

/-- ADAPTER_FILL_FAIL (R285, R288): the key is absent, and each command that waits for it records the trap. A fill that
MX.APF alone asked for has no such command (R290). -/
def execAdapterFillFail (die key : Nat) (s : State) : Host.Outcome State Fault Refusal :=
  event (
    let k := s.adKey die key
    if k.st ≠ 1 then s
    else match s.fetchRecord die key with
      | .failed c sub a =>
        (s.waiters die key).foldl (fun t w => t.dropRow w.1 w.2.1 w.2.2 (some (fillTrap w.2.1 c sub a)))
          (s.setAdKey die key {})
      | _ => s)

/-- ADAPTER_KEY_EVICT (R285). DESIGN CHOICE, log entry 57. -/
def execAdapterKeyEvict (die key : Nat) (s : State) : Host.Outcome State Fault Refusal :=
  event (if (s.adKey die key).st = 2 then s.setAdKey die key {} else s)

/-! ### MX.APF, MX.AINV, MX.AQRY (R290) -/

/-- A key with nonzero top bits is ILLEGAL. -/
def keyCheck (x : Nat) (s : State) : Option Trap := if (s.s x).toNat / 2 ^ 28 ≠ 0 then some s.illegal else none
/-- The key of a register. -/
def State.keyOf (s : State) (x : Nat) : Nat := (s.s x).toNat % 2 ^ 28

/-- MX.APF (R290). -/
def execMxApf (h : Hdr) (x : Nat) (s : State) : Host.Outcome State Fault Refusal :=
  perform s (scalarInstr (.mxApf h x) h (keyCheck (2 * x)) (fun _ => true) fun s =>
    s.startFill (dieOf s.ccore) (s.keyOf (2 * x)))

/-- A die's cache without a key, or without any: what a fill in progress brings is discarded (R290). DEDUCED, log entry 55. -/
def Die.dropKeys (d : Die) (all : Bool) (key : Nat) : Die :=
  { d with adapters := d.adapters.filter fun k => !all && decide (k.1 ≠ key) }

/-- MX.AINV (R290): a release at DEVICE scope, so that a pair compares first. -/
def execMxAinv (h : Hdr) (x : Nat) (s : State) : Host.Outcome State Fault Refusal :=
  perform s (scalarInstr (.mxAinv h x) h
    (fun s => if s.s (2 * x) = 0xFFFFFFFF#32 then none else keyCheck (2 * x) s) (fun _ => true) fun s =>
      let all := decide (s.s (2 * x) = 0xFFFFFFFF#32)
      let key := s.keyOf (2 * x)
      (List.range s.part.dies).foldl (fun t d => t.updDi d fun y => y.dropKeys all key)
        ((s.pairFlush s.cur.gid).release s.issuers 6 (ainvTag (if all then none else some key))))

/-- MX.AQRY (R290). DEDUCED, log entry 55. -/
def execMxAqry (h : Hdr) (y x : Nat) (s : State) : Host.Outcome State Fault Refusal :=
  perform s (scalarInstr (.mxAqry h y x) h (keyCheck (2 * x)) (fun _ => true) fun s =>
    let k := s.adKey (dieOf s.ccore) (s.keyOf (2 * x))
    s.setS (2 * y) (w32 k.st))

/-- Every adapter cache is empty of keys (R287). DEDUCED, log entry 56. -/
def State.adaptersEmpty (s : State) : Bool := (List.range s.part.dies).all fun d => (s.di d).adapters.isEmpty
/-- ADIR_WRITE (R287): number 64 or 65 takes a value; it waits until every adapter cache is empty.
DEDUCED, log entry 56. -/
def State.adirWrite (s : State) (reg value : Nat) : State :=
  if s.adaptersEmpty then
    if reg = 64 then { s with adirlo := w32 value &&& 0xFFFFFFF1#32 }
    else if reg = 65 then { s with adirhi := w32 value &&& 0x000FFFFF#32 } else s
  else s
def execAdirWrite (reg value : Nat) (s : State) : Host.Outcome State Fault Refusal := event (s.adirWrite reg value)

/-! ### Raw images (R293, R294) -/

/-- The bytes of an image. -/
def imageBytes : Nat := 33344
/-- The image of a tile (R293). -/
def Tile.image (x : Tile) : List Byte :=
  leBytes 4 0x4152584D ++ leBytes 1 x.anchor ++ leBytes 1 (x.guard.toNat + 2 * x.amis.toNat) ++ leBytes 2 0
    ++ leBytes 4 x.acnt ++ List.replicate 52 0#8
    ++ (List.range 512).map (fun k =>
        BitVec.ofNat 8 ((List.range 8).foldl (fun a b => a + (x.wovf.get (8 * k + b)).toNat * 2 ^ b) 0))
    ++ (List.range 4096).flatMap (fun e => leBytes 8 (x.elems.get e).toNat)

/-- The image's address (R294). -/
def State.imageAddr (s : State) (y : Nat) : Nat := s.s2 (2 * y)
/-- The operand checks (R294): TOKEN, PAGE_PROT, MISALIGN, and the window's range (R187). -/
def imageCheck (k : Acc) (y t : Nat) (s : State) : Option Trap :=
  let a := s.imageAddr y
  (tokenTrap t s).or (
    if 2 ^ 52 ≤ a then some (s.pageTrap 0x09 k a)
    else if a % 64 ≠ 0 then some (s.alignTrap 0 a)
    else if s.windowBad a imageBytes then some (s.rangeTrap 0 (a - s.cc.scrBase)) else none)

/-- The places of an image in pieces of 64 bytes, or the first fault (R294: a fault moves nothing). -/
def State.imagePlaces (s : State) (k : Acc) (a : Nat) : Except Trap (List (Nat × Place)) × State :=
  s.resolve k 64 ((List.range (imageBytes / 64)).map fun i => (i, a + 64 * i))

/-- Some element whose 8 bytes overlap n bytes at an offset of the image carries POIS. -/
def Tile.imagePo (x : Tile) (o n : Nat) : Bool :=
  (List.range n).any fun k => decide (0x240 ≤ o + k) && x.pois.get ((o + k - 0x240) / 8)

/-- Write one piece of an image in its 8-byte elements; each unit takes its own mark (R199, R294). -/
def State.imagePiece (s : State) (gid : Nat) (x : Tile) (img : List Byte) (a i : Nat) (p : Place) : State :=
  let po (o : Nat) : Bool := match p with
    | .scratch _ _ => x.imagePo (64 * i + o) 8
    | _ => x.imagePo (64 * i + o / 32 * 32) 32
  s.groupStores gid ((List.range 8).map fun k =>
    s.storeOf (p.plus (8 * k)) ((img.drop (64 * i + 8 * k)).take 8) (po (8 * k)) s.liveS 6 false (a + 64 * i + 8 * k))

/-- MX.STRAW's effect (R294). -/
def strawAct (y t : Nat) (s : State) : State :=
  let a := s.imageAddr y
  let x := s.seenTile t
  match s.imagePlaces .store a with
  | (.error tr, u) => u.pushFault 5 tr
  | (.ok ps, u) =>
    (ps.foldl (fun u q => u.imagePiece s.cur.gid x x.image a q.1 q.2) u).push
      (s.accessOf 5 .store (ps.map fun q => (q.1, q.2, a + 64 * q.1)) [])

/-- MX.STRAW (R294). -/
def execMxStraw (h : Hdr) (y t : Nat) (s : State) : Host.Outcome State Fault Refusal :=
  perform s (scalarInstr (.mxStraw h y t) h (imageCheck .store y t) (State.roomFor 5) (strawAct y t))

/-- An image's fixed fields are wrong for a tile (R294). -/
def imageBad (x : Tile) (img : List Byte) : Bool :=
  decide (field32 img 0 ≠ 0x4152584D) || decide ((img.getD 4 0#8).toNat ≠ x.anchor)
    || decide ((img.getD 5 0#8).toNat / 4 ≠ 0) || ((img.drop 6).take 2 ++ (img.drop 12).take 52).any (· ≠ 0#8)

/-- Add an image into a tile (R294). `po e` is the poison of element e's bytes. DEDUCED, log entry 52. -/
def Tile.addImage (x : Tile) (img : List Byte) (po : Nat → Bool) : Tile :=
  if imageBad x img then
    { x with amis := true, wovf := (List.range 4096).foldl (fun m e => m.put e true) x.wovf }
  else
    let f := (img.getD 5 0#8).toNat
    let n := min (x.acnt + field32 img 8) (2 ^ 32 - 1)
    let y := (List.range 4096).foldl
      (fun y e => y.addend e (leNat ((img.drop (0x240 + 8 * e)).take 8)) (bit (img.getD (0x40 + e / 8) 0#8).toNat (e % 8))
        (po e)) x
    { y with acnt := n, guard := x.guard || bit f 0 || decide (32767 < n), amis := x.amis || bit f 1 }

/-- Read an image in its 8-byte elements (R294). -/
def State.readImage (s : State) (gid : Nat) (ps : List Place) : List Byte × State :=
  let r := ps.foldl
    (fun (acc : List (List Byte) × State) p =>
      (List.range 8).foldl
        (fun (acc : List (List Byte) × State) k =>
          let x := acc.2.groupRead gid s.liveS 6 false (p.plus (8 * k)) 8
          (x.1 :: acc.1, x.2)) acc) ([], s)
  (r.1.reverse.flatten, r.2)
/-- MX.ADDRAW's effect (R294): the tile is added into when it issues, so no MX.RD, MX.WR or MX.REL has to be held for it
(R274, R292). DESIGN CHOICE, log entry 129. -/
def addrawAct (y t : Nat) (s : State) : State :=
  let a := s.imageAddr y
  let gid := s.cur.gid
  match s.imagePlaces .load a with
  | (.error tr, u) => u.pushFault 5 tr
  | (.ok ps, u) =>
    let r := u.readImage gid (ps.map (·.2))
    let po (e : Nat) : Bool :=
      match ps[(0x240 + 8 * e) / 64]? with
      | some q => u.groupPo gid (q.2.plus ((0x240 + 8 * e) % 64)) 8
      | none => false
    (r.2.updTile s.ccore t fun _ => (r.2.seenTile t).addImage r.1 po).push
      (s.accessOf 5 .load (ps.map fun q => (q.1, q.2, a + 64 * q.1)) [])

/-- MX.ADDRAW (R294). -/
def execMxAddraw (h : Hdr) (y t : Nat) (s : State) : Host.Outcome State Fault Refusal :=
  perform s (scalarInstr (.mxAddraw h y t) h (imageCheck .load y t) (State.roomFor 5) (addrawAct y t))

/-! ### The end of a block (R269) -/

/-- A block holds no groups any more. -/
def Block.gone (b : Block) : Bool := !b.live || decide (b.state = .exited)

/-- TILE_UNBIND (R269): the tile of a block that has exited becomes free once its commands are complete. -/
def execTileUnbind (core tile : Nat) (s : State) : Host.Outcome State Fault Refusal :=
  event (match (s.tile core tile).blk with
    | some bid => if (s.b bid).gone && (s.tileCmds core tile).isEmpty then s.setTile core tile {} else s
    | none => s)

end Sys2Proof.Machine
end

