-- ==== Sys2Proof/Machine/Sluice.lean ====
section
/-! DEFINITION. Copy commands (09_sluices.md R247-R267): their acceptance, the LAYOUT checks, the bytes they move in
raw and in plane form, follow-ons, cancellation, faults and poison. -/

namespace Sys2Proof.Machine

open Sys2Proof

/-! ### Layout records and windows (R252, R253, R256) -/

/-- A layout record with its window, taken apart. -/
structure Layout where
  base : Nat := 0
  fmt : Nat := 0
  rank : Nat := 0
  il : Nat := 0
  ilg : Nat := 0
  fill : Nat := 0
  fillen : Bool := false
  planes : Bool := false
  pw : Nat := 1
  /-- EXTENT and byte stride of each dimension. -/
  dims : List (Nat × Nat) := []
  org : List Int := []
  /-- The window's extents. -/
  ext : List Nat := []
  dest : Nat := 0
  ctx : Nat := 0
  down : Bool := false
  follow : Bool := false
  deriving DecidableEq, Repr, Inhabited

/-- Bits [hi:lo] of a list of words, low word first. -/
def wordsNat (ws : List Word) : Nat := ws.foldr (fun w a => w.toNat + 2 ^ 32 * a) 0
/-- The window extent of dimension d (R256). -/
def winExt (w : List Word) (d : Nat) : Nat := bits (w.getD (10 + d / 4) 0#32).toNat (8 * (d % 4) + 7) (8 * (d % 4)) + 1

/-- Read a record and a window. -/
def layoutOf (r w : List Word) : Layout :=
  let x := wordsNat r
  let c := (w.getD 14 0#32).toNat
  { base := bits x 63 0, fmt := bits x 67 64, rank := bits x 71 68, il := bits x 75 72, ilg := bits x 79 76
    fill := bits x 95 80, fillen := bit x 96, planes := bit x 97, pw := bits x 101 98 + 1
    dims := (List.range 10).map fun d =>
      (bits x (128 + 64 * d + 23) (128 + 64 * d), bits x (128 + 64 * d + 63) (128 + 64 * d + 32) * 2 ^ bits x (128 + 64 * d + 27) (128 + 64 * d + 24))
    org := (List.range 10).map fun d => sgn (w.getD d 0#32)
    ext := (List.range 10).map (winExt w)
    dest := (w.getD 13 0#32).toNat, ctx := bits c 7 0, down := bit c 8, follow := bit c 9 }

/-- Element bytes of the byte formats (R123). -/
def elemBytes (fmt : Nat) : Nat := if fmt = 7 then 4 else if fmt = 5 ∨ fmt = 6 ∨ fmt = 8 then 2 else 1
/-- INT4 and E2M1: two elements in a byte (R124). -/
def nibbleFmt (fmt : Nat) : Bool := decide (fmt = 1 ∨ fmt = 10)
/-- 32 times the bytes of n elements in a row (R257): a row of an odd number of 4-bit elements ends inside a byte. -/
def rowBytes32 (fmt n : Nat) : Nat := if fmt = 0 then 18 * n else if nibbleFmt fmt then 16 * n else 32 * n * elemBytes fmt
/-- A power of two. -/
def isPow2 (n : Nat) : Bool := (List.range 32).any fun k => decide (n = 2 ^ k)
/-- Extent of a window dimension. -/
def Layout.e (l : Layout) (d : Nat) : Nat := l.ext.getD d 1
/-- R, G and N of the swizzle (R257). -/
def Layout.row (l : Layout) : Nat := rowBytes32 l.fmt (l.e 0) / 32
def Layout.gran (l : Layout) : Nat := 2 ^ (l.ilg + 4)
def Layout.rows (l : Layout) : Nat := min 8 (l.row / l.gran)
/-- R is a multiple of G, and R / G a power of two (R257). -/
def Layout.granular (l : Layout) : Bool :=
  let r := rowBytes32 l.fmt (l.e 0)
  decide (r % (32 * l.gran) = 0) && isPow2 (r / (32 * l.gran))
/-- How many bytes the landing occupies (R257, R258). -/
def Layout.outer (l : Layout) (d : Nat) : Nat := (l.ext.drop d).foldl (· * ·) 1
def Layout.landBytes (l : Layout) : Nat :=
  if l.planes then l.e 0 / 32 * l.outer 2 * (256 * l.pw + 128) else l.row * l.outer 1

/-- The lowest set bit of the field [hi:lo] of a number, counted from bit `at_`. -/
def lowSet (x hi lo at_ : Nat) : List Nat := ((List.range (hi - lo + 1)).filter fun k => bit x (lo + k)).map fun k => at_ + k
/-- A bit that offends when a condition holds. -/
def offend (b : Bool) (n : Nat) : List Nat := if b then [n] else []

/-- Every offending bit of a record (R252-R255, R261). -/
def recordFaults (x : Nat) (l : Layout) : List Nat :=
  let fl := decide (3 ≤ l.fmt ∧ l.fmt ≤ 7)
  lowSet x 63 52 52 ++ offend (decide (11 ≤ l.fmt)) 64 ++ offend (decide (l.rank = 0 ∨ 10 < l.rank)) 68
    ++ offend (decide (3 ≤ l.il) || (decide (l.il = 1) && l.planes) || (decide (l.il = 2) && !l.planes)) 72
    ++ (if l.il = 0 then lowSet x 79 76 76 else []) ++ offend (decide (7 < l.ilg)) 76
    ++ offend (decide (l.il = 1) && !l.granular) 76
    ++ offend (l.fillen && decide (l.fmt = 0)) 96 ++ offend (l.planes && l.down) 97
    ++ (if l.planes then offend (fl && decide (l.pw < 2)) 98 else lowSet x 101 98 98) ++ lowSet x 127 102 102
    ++ (List.range 10).flatMap (fun d =>
        let a := 128 + 64 * d
        if d < l.rank then
          offend (decide ((l.dims.getD d (0, 0)).1 = 0)) a ++ lowSet x (a + 31) (a + 28) (a + 28)
            ++ (if d = 0 then
                  offend (decide (l.fmt = 0 ∧ (l.dims.getD 0 (0, 0)).1 % 32 ≠ 0)) a ++ lowSet x (a + 27) (a + 24) (a + 24)
                    ++ lowSet x (a + 63) (a + 32) (a + 32)
                else [])
        else lowSet x (a + 63) a a)

/-- Every offending bit of a window (R256-R258, R261). -/
def windowFaults (w : List Word) (l : Layout) : List Nat :=
  let x := wordsNat w
  let at_ (n k : Nat) : Nat := 1024 + 32 * n + k
  let reg (n hi lo : Nat) : List Nat := lowSet x (32 * n + hi) (32 * n + lo) (at_ n lo)
  let o := l.org.getD 0 0
  (List.range 10).flatMap (fun d => if d < l.rank then [] else reg d 31 0)
    ++ offend (decide (l.fmt = 0 ∧ o % 32 ≠ 0) || (nibbleFmt l.fmt && decide (o % 2 ≠ 0))) (at_ 0 0)
    ++ (List.range 10).flatMap (fun d => if d < l.rank then [] else reg (10 + d / 4) (8 * (d % 4) + 7) (8 * (d % 4)))
    ++ offend (decide (l.fmt = 0 ∧ l.e 0 % 32 ≠ 0) || (nibbleFmt l.fmt && decide (l.e 0 % 2 ≠ 0))
        || (l.planes && decide (l.e 0 % 32 ≠ 0))) (at_ 10 0)
    ++ offend (l.planes && decide (64 < l.e 1)) (at_ 10 8)
    ++ reg 12 31 16 ++ offend (decide (l.dest % 4 ≠ 0) || (decide (l.il = 1) && decide (l.dest % l.gran ≠ 0))) (at_ 13 0)
    ++ reg 14 31 10 ++ offend (l.follow && l.down) (at_ 14 9) ++ reg 14 7 5

/-- The lowest offending bit (R261). -/
def layoutFault (r w : List Word) : Option Nat :=
  match recordFaults (wordsNat r) (layoutOf r w) ++ windowFaults w (layoutOf r w) with
  | [] => none
  | n :: ns => some (ns.foldl min n)

/-! ### Plane form (R132-R136) -/

/-- A run in plane form: its exponent, its integers, and whether R136 clamped one. -/
structure Run where
  e : Int := 0
  q : List Int := []
  clamped : Bool := false
  deriving DecidableEq, Repr, Inhabited

/-- Clamp to w bits (R135, R136). -/
def clampTo (w : Nat) (q : Int) : Int := max (-(2 ^ (w - 1) : Nat)) (min ((2 ^ (w - 1) : Nat) - 1) q)
/-- Integers narrowed by R136. -/
def narrowed (e : Int) (w : Nat) (q : List Int) : Run := { e := e, q := q.map (clampTo w), clamped := q.any fun x => clampTo w x ≠ x }
/-- Twice the value of an E2M1 code (R128). -/
def twiceE2m1 (c : Nat) : Int := sm (bit c 3) ([0, 1, 2, 3, 4, 6, 8, 12].getD (c % 8) 0)
/-- A block of NaN (R133). -/
def nanRun : Run := { e := nanExp, q := List.replicate 32 0 }

/-- A float run (R135). -/
def alignRun (f : Fmt) (w : Nat) (codes : List Nat) : Run :=
  let vs := codes.map f.decode
  if vs.any fun v => match v with | .fin _ _ _ => false | _ => true then nanRun
  else
    match vs.filterMap fun v => match v with
      | .fin _ m e => if m = 0 then none else some (lead m e)
      | _ => none with
    | [] => { e := 0, q := List.replicate 32 0 }
    | a :: r =>
      let e := r.foldl max a - ((w : Int) - 2)
      { e := e, q := vs.map fun v => match v with
          | .fin n m x => clampTo w (roundInt .rne n m (x - e))
          | _ => 0 }

/-- An E2M1B block (R130, R131, R134). -/
def blockRun (w : Nat) (codes : List Nat) (scale special : Nat) : Run :=
  let m := sext 8 special
  if scale = 0xFF ∨ (special ≠ 0x80 ∧ (m < -64 ∨ 63 < m)) then nanRun
  else narrowed ((scale : Int) - 128) w (codes.map fun c =>
    if c = 8 then (if special = 0x80 then 0 else m) else twiceE2m1 c)

/-- A run of element codes of a format other than E2M1B (R134). -/
def landRun (fmt w : Nat) (codes : List Nat) : Run :=
  match fmt with
  | 1 => narrowed 0 w (codes.map fun c => sext 4 c)
  | 2 => narrowed 0 w (codes.map fun c => sext 8 c)
  | 8 => narrowed 0 w (codes.map fun c => sext 16 c)
  | 9 => narrowed 0 w (codes.map fun c => (c : Int))
  | 10 => narrowed (-1) w (codes.map twiceE2m1)
  | 3 => alignRun e4m3 w codes
  | 4 => alignRun e5m2 w codes
  | 5 => alignRun bf16 w codes
  | 6 => alignRun fp16 w codes
  | _ => alignRun fp32 w codes

/-- Plane word p of a run (R258): bit k is bit p of integer k. -/
def planeWord (q : List Int) (p : Nat) : Nat :=
  q.zipIdx.foldl (fun a (x, k) => a + wrap 64 x / 2 ^ p % 2 * 2 ^ k) 0

/-! ### What a command moves -/

/-- Where a byte comes from: a fixed byte with its mark, or memory. -/
inductive SrcByte where
  | val (b : Byte) (po : Bool)
  | mem (p : Place)
  deriving DecidableEq, Repr, Inhabited

/-- A byte, or one nibble of it, that a command writes. `nib`: 0 the whole byte, 1 and 2 its low and high
nibble; `hi` tells which nibble of the source goes there; `sat` tells that R136 clamped a value of its run. -/
structure Move where
  dst : Place
  src : SrcByte
  nib : Nat := 0
  hi : Bool := false
  sat : Bool := false
  deriving DecidableEq, Repr, Inhabited

/-- What a command is about to do: its moves by element, in order; the faults it would meet; the scratchpad bytes that
keep their value and become poisoned (R262); and the trap of a poisoned index. -/
structure Plan where
  elems : List (List Move) := []
  faults : List Trap := []
  marks : List Place := []
  index : Option Trap := none
  ordered : Bool := false
  deriving Repr, Inhabited

/-- The context word of a command with the access kind that R435 reports. -/
def engTrap (code ctx va : Nat) (write : Bool) : Trap :=
  { code := code, sub := 1, tval := w32 (ctx + (if write then 512 else 256)), taddr := va }

/-- Who a command acts for. -/
def CopyCmd.who (c : CopyCmd) (bid : Nat) : Group := issuer bid c.member c.core c.priv

/-- The places of n bytes from a global address that an engine accesses, or the first fault (R265).
DEDUCED, log entry 43. -/
def State.engPlaces (s : State) (g : Group) (ctx : Nat) (write : Bool) (va n : Nat) : Except Trap (List Place) :=
  (List.range n).foldr
    (fun k r =>
      let a := (va + k) % 2 ^ 64
      match (s.translate g.core g.priv (if write then .store else .load) a).1, r with
      | .ok p, .ok l => .ok (p :: l)
      | .error c, _ => .error (engTrap c ctx a write)
      | _, .error e => .error e)
    (.ok [])

/-- One more element of a plan. -/
def Plan.add (pl : Plan) (e : Except Trap (List Move)) : Plan :=
  match e with
  | .ok m => { pl with elems := pl.elems ++ [m] }
  | .error t => { pl with faults := pl.faults ++ [t] }

/-- All coordinates below some extents, the first fastest. -/
def coords : List Nat → List (List Nat)
  | [] => [[]]
  | e :: r => (coords r).flatMap fun t => (List.range e).map fun w => w :: t

/-- The element of the tensor at a window coordinate: whether it is inside, and its coordinates (R255, R256). -/
def Layout.at_ (l : Layout) (w : List Nat) : Option (List Nat) :=
  let x := (w.zip l.org).map fun (a, o) => (a : Int) + o
  if (List.range l.rank).all fun d => decide (0 ≤ x.getD d 0 ∧ x.getD d 0 < ((l.dims.getD d (0, 0)).1 : Int)) then
    some (x.map Int.toNat)
  else none
/-- Addr of an element (R254). -/
def Layout.addr (l : Layout) (x : List Nat) : Nat :=
  let x0 := x.getD 0 0
  let off := if l.fmt = 0 then 18 * (x0 / 32) else if nibbleFmt l.fmt then x0 / 2 else x0 * elemBytes l.fmt
  ((List.range l.rank).foldl (fun a d => if d = 0 then a else a + x.getD d 0 * (l.dims.getD d (0, 0)).2) (l.base + off)) % 2 ^ 64
/-- The landing offset of a byte (R257). -/
def Layout.swz (l : Layout) (o : Nat) : Nat :=
  if l.il = 1 then o ^^^ (o / max 1 l.row % max 1 l.rows * l.gran) else o

/-- The bytes of the fill element (R255). -/
def Layout.fillBytes (l : Layout) : List Byte :=
  if l.fmt = 7 then leBytes 4 (l.fill * 65536)
  else if elemBytes l.fmt = 2 then leBytes 2 l.fill else [BitVec.ofNat 8 l.fill]
/-- A zero block (R255). -/
def zeroBlock : List Byte := List.replicate 16 0#8 ++ [0x7F#8, 0x80#8]

/-- One element, or one E2M1B block, of a raw copy (R257, R260): its moves. `lin` is the linear index L. -/
def State.rawElem (s : State) (g : Group) (ctxw : Nat) (l : Layout) (land : Place) (w : List Nat) (lin : Nat) :
    Except Trap (List Move) :=
  let n := if l.fmt = 0 then 18 else if nibbleFmt l.fmt then 1 else elemBytes l.fmt
  let o := if l.fmt = 0 then 18 * (lin / 32) else if nibbleFmt l.fmt then lin / 2 else lin * n
  let here := (List.range n).map fun k => land.plus (l.swz (o + k))
  let nib (hiDst hiSrc : Bool) (m : Move) : Move :=
    if nibbleFmt l.fmt then { m with nib := if hiDst then 2 else 1, hi := hiSrc } else m
  let lo := decide (lin % 2 = 1)
  match l.at_ w with
  | some x =>
    let hx := decide (x.getD 0 0 % 2 = 1)
    match s.engPlaces g ctxw l.down (l.addr x) n with
    | .error t => .error t
    | .ok ps =>
      .ok ((ps.zip here).map fun (p, q) =>
        if l.down then nib hx lo { dst := p, src := .mem q } else nib lo hx { dst := q, src := .mem p })
  | none =>
    if l.down then .ok []
    else if l.fmt = 0 then .ok ((here.zip zeroBlock).map fun (q, b) => { dst := q, src := .val b false })
    else if l.fillen then .ok ((here.zip l.fillBytes).map fun (q, b) => nib lo false { dst := q, src := .val b false })
    else .ok []

/-- The plan of a raw copy. -/
def State.rawPlan (s : State) (g : Group) (ctxw : Nat) (l : Layout) (land : Place) : Plan :=
  (coords l.ext).zipIdx.foldl
    (fun pl (w, lin) => if l.fmt = 0 ∧ lin % 32 ≠ 0 then pl else pl.add (s.rawElem g ctxw l land w lin)) {}

/-- The code of one element of a plane run with its poison: from memory, or the fill (R258). -/
def State.planeCode (s : State) (rd : Reader) (g : Group) (ctxw : Nat) (l : Layout) (w : List Nat) : Except Trap (Nat × Bool) :=
  match l.at_ w with
  | none => .ok (if l.fillen then leNat l.fillBytes else 0, false)
  | some x =>
    match s.engPlaces g ctxw false (l.addr x) (elemBytes l.fmt) with
    | .error t => .error t
    | .ok ps =>
      let c := leNat (s.seeAll rd ps)
      .ok (if nibbleFmt l.fmt then c / 16 ^ (x.getD 0 0 % 2) % 16 else c, ps.any fun p => s.placePo p 1)

/-- A run of the window (R258): row `rest` (dimensions 1 to 9), block kb of dimension 0. -/
def State.planeRun (s : State) (rd : Reader) (g : Group) (ctxw : Nat) (l : Layout) (kb : Nat) (rest : List Nat) :
    Except Trap (Run × Bool) :=
  if l.fmt = 0 then
    match l.at_ (32 * kb :: rest) with
    | none => .ok ({ e := 0, q := List.replicate 32 0 }, false)
    | some x =>
      match s.engPlaces g ctxw false (l.addr x) 18 with
      | .error t => .error t
      | .ok ps =>
        let bs := s.seeAll rd ps
        let codes := (List.range 32).map fun k => (bs.getD (k / 2) 0#8).toNat / 16 ^ (k % 2) % 16
        .ok (blockRun l.pw codes (bs.getD 16 0#8).toNat (bs.getD 17 0#8).toNat, ps.any fun p => s.placePo p 1)
  else
    let cs := (List.range 32).map fun k => s.planeCode rd g ctxw l ((32 * kb + k) :: rest)
    match cs.findSome? fun c => match c with | .error t => some t | _ => none with
    | some t => .error t
    | none =>
      let ok := cs.filterMap fun c => match c with | .ok x => some x | _ => none
      .ok (landRun l.fmt l.pw (ok.map fun x => x.1 % (if nibbleFmt l.fmt then 16 else 2 ^ (8 * elemBytes l.fmt))), ok.any (·.2))

/-- Bytes at a place, all with one mark. -/
def valMoves (p : Place) (bs : List Byte) (po sat : Bool) : List Move :=
  bs.zipIdx.map fun (b, k) => { dst := p.plus k, src := .val b po, sat := sat }

/-- The moves of row i of an operand block at offset b (R258, R266). -/
def rowMoves (l : Layout) (land : Place) (b i : Nat) (r : Run) (po : Bool) : List Move :=
  ((List.range l.pw).flatMap fun p =>
    valMoves (land.plus (b + 4 * (if l.il = 2 then p * 64 + i else i * l.pw + p))) (leBytes 4 (planeWord r.q p)) po r.clamped)
  ++ valMoves (land.plus (b + 256 * l.pw + 2 * i)) (leBytes 2 (wrap 16 r.e)) po r.clamped

/-- The plan of a plane landing (R258). -/
def State.planePlan (s : State) (rd : Reader) (g : Group) (ctxw : Nat) (l : Layout) (land : Place) : Plan :=
  let nK := l.e 0 / 32
  (coords (l.ext.drop 2)).zipIdx.foldl
    (fun pl (rest, outer) =>
      (List.range nK).foldl
        (fun pl kb =>
          (List.range 64).foldl
            (fun pl i =>
              let b := (kb + nK * outer) * (256 * l.pw + 128)
              if l.e 1 ≤ i then pl.add (.ok (rowMoves l land b i { e := 0, q := [] } false))
              else match s.planeRun rd g ctxw l kb (i :: rest) with
                | .error t => pl.add (.error t)
                | .ok (r, po) => pl.add (.ok (rowMoves l land b i r po)))
            pl)
        pl)
    {}

/-- One side of CP.LIN: byte k, in scratchpad or at a global address (R262). -/
def State.linSide (s : State) (g : Group) (ctxw : Nat) (spad write : Bool) (lo hi : Word) (n k : Nat) : Except Trap Place :=
  if spad then .ok (((s.scratchPlace g lo.toNat n).getD (.scratch g.bid 0)).plus k)
  else match s.engPlaces g ctxw write ((pair lo hi + k) % 2 ^ 64) 1 with
    | .ok (p :: _) => .ok p
    | .ok [] => .error {}
    | .error t => .error t

/-- One byte moved between two places that may fault. -/
def moveOf (src dst : Except Trap Place) : Except Trap (List Move) :=
  match src, dst with
  | .ok p, .ok q => .ok [{ dst := q, src := .mem p }]
  | .error t, _ => .error t
  | _, .error t => .error t

/-- The plan of CP.LIN. -/
def State.linPlan (s : State) (g : Group) (ctxw : Nat) (b : List Word) : Plan :=
  let w (k : Nat) : Word := b.getD k 0#32
  let n := (w 5).toNat
  (List.range n).foldl
    (fun pl k => pl.add (moveOf (s.linSide g ctxw ((w 4).getLsbD 8) false (w 0) (w 1) n k)
      (s.linSide g ctxw ((w 4).getLsbD 9) true (w 2) (w 3) n k))) {}

/-- The plan of CP.GATHER (`up` false: rows go to scratchpad) or CP.SCATTER. Every entry of the list is read before the
command writes, also where the list overlaps the rows (R250). DESIGN CHOICE, log entry 110. -/
def State.rowsPlan (s : State) (rd : Reader) (g : Group) (ctxw num : Nat) (up : Bool) (b : List Word) (rows : Nat) : Plan :=
  let w (k : Nat) : Nat := (b.getD k 0#32).toNat
  let list := (s.scratchPlace g (w 2) (4 * w 3)).getD (.scratch g.bid 0)
  let area := (s.scratchPlace g rows (w 3 * w 4)).getD (.scratch g.bid 0)
  (List.range (w 3)).foldl
    (fun pl j =>
      let here := (List.range (w 4)).map fun k => area.plus (j * w 4 + k)
      let t := s.numAt rd list (4 * j) 4
      if s.poAt list (4 * j) 4 then
        if up then { pl with index := some { code := 0x0D, sub := 4, tval := w32 ctxw, taddr := num } }
        else { pl with marks := pl.marks ++ here }
      else if t = 0xFFFFFFFF then pl
      else
        (List.range (w 4)).foldl
          (fun pl k =>
            let va := (w 0 + 2 ^ 32 * w 1 + t * w 5 + k) % 2 ^ 64
            let gl : Except Trap Place := match s.engPlaces g ctxw up va 1 with
              | .ok (p :: _) => .ok p
              | .ok [] => .error {}
              | .error e => .error e
            let sp : Except Trap Place := .ok (area.plus (j * w 4 + k))
            pl.add (if up then moveOf sp gl else moveOf gl sp))
          pl)
    { ordered := up }

/-- A copy command as a reader, and the event of its accesses (R233). -/
def State.copyReader (s : State) (bid ctx : Nat) (c : CopyCmd) : Reader := s.engReader bid 0 ctx c.num
def State.copyEvent (s : State) (bid ctx : Nat) (c : CopyCmd) : Event := s.engEvent bid 0 ctx c.num 6
/-- The plan of a command of context `ctx` of block `bid`. -/
def State.planOf (s : State) (bid ctx : Nat) (c : CopyCmd) : Plan :=
  let g := c.who bid
  let ctxw := ctxWord 0 ctx
  match c.op with
  | .tensor r w =>
    let l := layoutOf r w
    let land := (s.scratchPlace g l.dest l.landBytes).getD (.scratch bid 0)
    if l.planes then s.planePlan (s.copyReader bid ctx c) g ctxw l land else s.rawPlan g ctxw l land
  | .lin b => s.linPlan g ctxw b
  | .gather b d => s.rowsPlan (s.copyReader bid ctx c) g ctxw c.num false b d
  | .scatter b d => s.rowsPlan (s.copyReader bid ctx c) g ctxw c.num true b d

/-! ### Performing the moves -/

/-- No byte is both written and read, and no nibble is written twice: then order does not matter (R250, R254). -/
def disjointMoves (ms : List Move) : Bool :=
  let dst := ms.map fun m => m.dst.key
  decide (ms.map fun m => (m.dst.key, m.nib)).Nodup
    && ms.all fun m => match m.src with
      | .mem p => !dst.contains p.key
      | .val _ _ => true

/-- The mark of a source. -/
def SrcByte.marked (s : State) : SrcByte → Bool
  | .val _ po => po
  | .mem p => s.placePo p 1
/-- The bytes that some moves take: those of memory as one unit, where all come from there (R190, R260). -/
def State.sources (s : State) (rd : Reader) (ms : List Move) : List Byte :=
  let ps := ms.filterMap fun m => match m.src with
    | .mem p => some p
    | .val _ _ => none
  if ps.length = ms.length then s.seeAll rd ps
  else ms.map fun m => match m.src with
    | .val b _ => b
    | .mem p => (s.see rd p 1).headD 0#8
/-- The byte that a move of one nibble leaves, given the byte that stood there. -/
def Move.result (m : Move) (old src : Byte) : Byte :=
  let n := if m.hi then src.toNat / 16 else src.toNat % 16
  if m.nib = 1 then BitVec.ofNat 8 (old.toNat / 16 * 16 + n) else BitVec.ofNat 8 (n * 16 + old.toNat % 16)
/-- Perform some moves, each with the number of its element and the byte it takes: the bytes of one element make up one unit, and
so do bytes side by side of one word (R260, R301); a nibble is written by reading and writing its byte. Marks are settled
afterwards. -/
def State.applyMoves (s : State) (grid : Nat) (e : Event) (ms : List (Nat × Move × Byte)) : State :=
  let near (a b : Nat × Move × Byte) : Bool :=
    decide (a.2.1.nib = 0 ∧ b.2.1.nib = 0) &&
      (decide (a.1 = b.1) || (decide (b.2.1.dst.key = keyAt a.2.1.dst.key 1) && decide (b.2.1.dst.key.2.2 % 4 ≠ 0)))
  (ms.splitBy near).foldl
    (fun (t : State) r => match r with
      | [] => t
      | (_, m, b) :: _ =>
        if m.nib = 0 then
          t.writeUnit (some grid) e ((r.splitBy fun x y => decide (y.2.1.dst.key = keyAt x.2.1.dst.key 1)).map fun q =>
            (((q.map fun x => x.2.1.dst).headD m.dst), q.map fun x => x.2.2)) false
        else t.topWrite (some grid) { e with rmw := true } m.dst [m.result (t.placeByte m.dst 0) b] false) s

/-- Sort elements by freely drawn keys: any order may result (R250). DESIGN CHOICE, log entry 54. -/
def shuffle (draw : Nat) (es : List (List Move)) : List (List Move) :=
  let ins (x : Nat × List Move) (l : List (Nat × List Move)) : List (Nat × List Move) :=
    l.takeWhile (fun y => decide (y.1 ≤ x.1)) ++ x :: l.dropWhile fun y => decide (y.1 ≤ x.1)
  ((es.zipIdx.map fun (e, k) => (Config.pick (draw + k), e)).foldl (fun l x => ins x l) []).map (·.2)

/-- Marks after a command's writes (R199, R266): a unit that received poisoned bytes is marked, one that was wholly
written clean loses its mark. -/
def State.settleMarks (s : State) (clean dirty : List Place) : State :=
  let keys := clean.map Place.key
  let words := clean.filterMap fun p => match p with
    | .scratch b k => if (List.range 4).all fun i => keys.contains (0, b, k / 4 * 4 + i) then some (b, k / 4) else none
    | _ => none
  let t := words.foldl (fun t (b, k) => t.updB b fun x => { x with scratchPo := x.scratchPo.put k false }) s
  let t := t.clearCovered (clean.filterMap fun p => match p with | .dev pa _ => some (pa, 1) | _ => none)
  dirty.foldl
    (fun t p => match p with
      | .scratch b k => t.updB b fun x => { x with scratchPo := x.scratchPo.put (k / 4) true }
      | .dev pa _ => t.markPo pa 1
      | _ => t) t

/-- The bytes that some moves write whole, as bytes or as both of their nibbles. -/
def wholeBytes (ms : List Move) : List Place :=
  (ms.filter fun m => decide (m.nib = 0) ||
    (decide (m.nib = 1) && ms.any fun x => decide (x.nib = 2 ∧ x.dst.key = m.dst.key))).map (·.dst)

/-- The marks that moves leave, each with whether it takes a poisoned byte (R199, R266). -/
def State.markMoves (s : State) (ms : List (Move × Bool)) : State :=
  s.settleMarks (wholeBytes ((ms.filter fun x => !x.2).map (·.1))) ((ms.filter (·.2)).map fun x => x.1.dst)
/-- Perform some elements, and tell the moves made. `part` leaves each byte written or not, freely (R264, R265); `all`
marks every write (R372). Rows in order come one above the other (R262); other elements, where the command overlaps itself, in
any order, each reading bytes and marks as they stood or as the command leaves them (R250, R266). DESIGN CHOICE, log entry 54. -/
def State.runMoves (s : State) (grid : Nat) (ev : Event) (rd : Reader) (ordered part all : Bool) (es : List (List Move)) :
    State × List Move :=
  let ms := es.flatten
  let n := ms.length
  let calm := disjointMoves ms
  let es := if ordered || calm then es else shuffle s.free es
  let ev : Event := if ordered then { ev with instr := s.log.length + 1 } else ev
  let keep (m : Move) : Bool := !part || Config.freeBit (s.free + n + ms.findIdx fun x => decide (x.dst.key = m.dst.key))
  let taken (r marks : State) (e : List Move) : List (Move × Byte × Bool) :=
    (e.zip (r.sources rd e)).filterMap fun x => if keep x.1 then some (x.1, x.2, all || x.1.src.marked marks) else none
  let run :=
    if calm then
      let ts := es.zipIdx.map fun x => (taken s s x.1).map fun y => (x.2, y)
      (s.applyMoves grid ev (ts.flatten.map fun y => (y.1, y.2.1, y.2.2.1)), ts.flatten.map fun y => (y.2.1, y.2.2.2))
    else
      es.zipIdx.foldl
        (fun (acc : State × List (Move × Bool)) (e, j) =>
          let late := !ordered && Config.freeBit (s.free + 2 * n + j)
          let ts := if late then taken acc.1 (acc.1.markMoves acc.2) e else taken s s e
          (acc.1.applyMoves grid ev (ts.map fun y => (j, y.1, y.2.1)), acc.2 ++ ts.map fun y => (y.1, y.2.2)))
        (s, [])
  let t := run.1.markMoves run.2
  ({ t with free := t.free + 3 * n + 1 }, run.2.map (·.1))

/-- One fault among several: which one the command met first is timing (R250, R265). DESIGN CHOICE, log entry 53. -/
def State.pickFault (s : State) (l : List Trap) : Option Trap × State :=
  match l with
  | [] => (none, s)
  | [t] => (some t, s)
  | _ => (l[Config.pick s.free % l.length]?, { s with free := s.free + 1 })

/-! ### Commands in their contexts -/

/-- Change a copy context. -/
def State.updCopy (s : State) (bid ctx : Nat) (f : CopyCtx → CopyCtx) : State :=
  s.updB bid fun b => { b with copy := b.copy.upd ctx f }
/-- Replace a command of a context. -/
def State.setCmd (s : State) (bid ctx : Nat) (c : CopyCmd) : State :=
  s.updCopy bid ctx fun x => { x with queue := x.queue.map fun y => if y.num = c.num then c else y }
/-- A follow-on is discarded: its number completes without effect (R263). -/
def State.discardMma (s : State) (m : Mma) : State := s.finish m.bid 1 m.ctx m.num none

/-- The peers that some moves reach, each with the fault should it be lost (R397). -/
def peersOf (ms : List Move) (ctxw : Nat) : List (Nat × Trap) :=
  ms.foldl (fun l m => match m.dst, m.src with
    | .peer r pa, _ => addPeer l (r, engTrap 0x09 ctxw pa true)
    | _, .mem (.peer r pa) => addPeer l (r, engTrap 0x09 ctxw pa false)
    | _, _ => l) []

/-- The destination words of poisoned indices that a command which stops has marked: freely any (R262, R264).
DESIGN CHOICE, log entry 111. -/
def State.someMarks (s : State) (part : Bool) (marks : List Place) : State :=
  if part ∧ marks ≠ [] then
    { s.settleMarks [] ((marks.zipIdx.filter fun x => Config.freeBit (s.free + x.2)).map (·.1)) with free := s.free + marks.length }
  else s.settleMarks [] marks

/-- A copy has clamped a value that it wrote (R259). -/
def State.noteClamp (s : State) (bid ctx num : Nat) (ms : List Move) : State :=
  if ms.any (·.sat) then
    s.updCopy bid ctx fun x => { x with c := { x.c with clamped := x.c.clamped ++ [num] } }
  else s

/-- A command performs its reads and writes (R260, R262, R265, R266). DESIGN CHOICE, log entry 18. -/
def State.runCopy (s : State) (bid ctx : Nat) (c : CopyCmd) : State :=
  let grid := (s.b bid).grid
  let pl := s.planOf bid ctx c
  let (fault, t) := s.pickFault (pl.faults ++ pl.index.toList)
  let stops := !pl.faults.isEmpty
  let (u, ms) := t.runMoves grid (s.copyEvent bid ctx c) (s.copyReader bid ctx c) pl.ordered stops c.marked pl.elems
  let u := ((u.someMarks stops pl.marks).noteClamp bid ctx c.num ms).note (s.copyEvent bid ctx c)
  let u := if stops then (match c.follow with | some m => u.discardMma m | none => u) else u
  let peers := peersOf pl.elems.flatten (ctxWord 0 ctx)
  u.setCmd bid ctx { c with ran := true, fault := fault, follow := if stops then none else c.follow, peers := peers }

/-- A command of a context that may run, and has not: the commands of a context are unordered (R233). DESIGN CHOICE, log entry 18. -/
def State.nextCopy (s : State) (bid ctx : Nat) : Option CopyCmd × State :=
  match ((s.b bid).copy.get ctx).queue.filter fun c => !c.ran && decide (c.notBefore ≤ s.bounds) with
  | [] => (none, s)
  | [c] => (some c, s)
  | cs => (cs[Config.pick s.free % cs.length]?, { s with free := s.free + 1 })
/-- A copy that has an end in a peer sends its flits at the boundary of the tick in which it starts, and moves its data then (R405). -/
def State.startCopy (s : State) (bid ctx : Nat) (c : CopyCmd) : State :=
  if s.detx ∧ peersOf (s.planOf bid ctx c).elems.flatten (ctxWord 0 ctx) ≠ [] ∧ c.notBefore = 0 then
    s.setCmd bid ctx { c with notBefore := s.bounds + 1 }
  else s.runCopy bid ctx c
/-- SLUICE_COMMAND_RUN (R247, R260): a command of a context that has not run. -/
def execSluiceCommandRun (bid ctx : Nat) (s : State) : Host.Outcome State Fault Refusal :=
  event (match s.nextCopy bid ctx with
    | (some c, t) => t.startCopy bid ctx c
    | (none, t) => t)

/-- A command leaves its context with the trap it records; its follow-on may go to the array, or is discarded where the
copy stopped on a fault (R250, R263). -/
def State.retireCopy (s : State) (bid ctx : Nat) (c : CopyCmd) (t : Option Trap) : State :=
  let u := s.updCopy bid ctx fun x =>
    { x with
      queue := x.queue.filter fun y => decide (y.num ≠ c.num)
      landed := if t.isNone then x.landed ++ c.follow.toList.map fun m => { m with after := s.tagged (engTag 0 bid ctx c.num) }
        else x.landed }
  let u := if t.isNone then u else c.follow.toList.foldl State.discardMma u
  u.finish bid 0 ctx c.num t

/-- Its peer traffic has been performed. -/
def State.copyLanded (s : State) (c : CopyCmd) : Bool :=
  c.ran && decide (c.notBefore ≤ s.bounds) && (c.fault.isSome || c.peers.all fun x => !s.routeWaits x.1)

/-- COPY_COMMAND_COMPLETE (R250). -/
def execCopyCommandComplete (bid ctx num : Nat) (s : State) : Host.Outcome State Fault Refusal :=
  event (match ((s.b bid).copy.get ctx).queue.find? fun c => decide (c.num = num) with
    | some c => if s.copyLanded c then s.retireCopy bid ctx c c.fault else s
    | none => s)

/-- FOLLOW_ON_ISSUE (R263, R280): the oldest follow-on whose copy is complete goes to its array when there is room. -/
def execFollowOnIssue (bid ctx : Nat) (s : State) : Host.Outcome State Fault Refusal :=
  event (match ((s.b bid).copy.get ctx).landed with
    | [] => s
    | m :: r =>
      let core := (s.b bid).coreOf m.member
      if s.arrayRoom core m.part then (s.updCopy bid ctx fun x => { x with landed := r }).queueMma core m else s)

/-- A command stops before its time: the bytes it has not moved yet may be moved or not, and its follow-on is
discarded (R264, R265, R381). DESIGN CHOICE, log entry 111. -/
def State.stopCopy (s : State) (bid ctx : Nat) (c : CopyCmd) (t : Option Trap) : State :=
  let pl := s.planOf bid ctx c
  let u :=
    if c.ran then s
    else
      let (u, ms) := s.runMoves (s.b bid).grid (s.copyEvent bid ctx c) (s.copyReader bid ctx c) pl.ordered true c.marked pl.elems
      ((u.someMarks true pl.marks).noteClamp bid ctx c.num ms).note (s.copyEvent bid ctx c)
  let u := match c.follow with
    | some m => u.discardMma m
    | none => u
  u.retireCopy bid ctx { c with follow := none } (t.or c.fault)

/-! ### The instructions -/

/-- The sluice that serves a context of a block, and its die (R247). -/
def Block.sluice (b : Block) (ctx : Nat) : Nat × Nat := (dieOf (b.coreOf 0), (b.coreOf 0 % 48 + ctx) % 32)
/-- The commands that a sluice has accepted and not completed. -/
def State.sluiceLoad (s : State) (x : Nat × Nat) : Nat :=
  s.blocks.foldl (fun n b => (List.range 32).foldl
    (fun n k => if b.2.sluice k = x then n + (b.2.copy.get k).queue.length else n) n) 0
/-- There is room for one more command (R248). -/
def State.copyRoom (s : State) (ctx : Nat) : Bool :=
  decide ((s.cb.copy.get ctx).queue.length < 16) && decide (s.sluiceLoad (s.cb.sluice ctx) < 64)

/-- The context has an armed follow-on. -/
def State.armed (s : State) (ctx : Nat) : Bool := (s.cb.copy.get ctx).armed.isSome
/-- A scratchpad range that is not in the allocation (R185): a copy command has no lanes, and the trap names lane 0 and the
start of the range. DESIGN CHOICE, log entry 112. -/
def State.spadOut (s : State) (a n : Nat) : Option Trap :=
  if (s.scratchPlace s.cg a n).isNone then some (s.rangeTrap 0 a) else none

/-- Accept a copy command (R248, R249, R263): a pair compares first (R386). The number is written before the operands are
taken (R260). -/
def State.acceptCopy (s : State) (ctx reg : Nat) (follow : Bool) (op : State → CopyOp) : State :=
  let bid := s.cg.bid
  let (n, t) := (s.pairFlush s.cur.gid).acceptCmd 0 ctx reg
  let g := s.cg
  t.updCopy bid ctx fun x =>
    { x with
      queue := x.queue ++ [{ num := n, op := op t, member := s.memberOf g, core := g.core, priv := g.priv
                             follow := if follow then x.armed else none, marked := g.poisonPass.isSome }]
      armed := if follow then none else x.armed }

/-- n scalar registers from r on. -/
def State.block (s : State) (r n : Nat) : List Word := (regs r n).map s.s

/-- The operand checks of CP.TENSOR (R260, R261). DEDUCED, log entry 51. -/
def tensorCheck (x y : Nat) (s : State) : Option Trap :=
  let r := s.block (2 * x) 24
  let w := s.block (2 * y) 16
  let l := layoutOf r w
  match layoutFault r w with
  | some n => some (s.mkTrap 0x0A 0 (w32 n))
  | none =>
    if l.follow ∧ ¬ s.armed l.ctx then some s.illegal
    else (s.spadOut l.dest l.landBytes).or (s.queueTrap 0 l.ctx)

/-- CP.TENSOR (R260). -/
def execCpTensor (h : Hdr) (y x : Nat) (s : State) : Host.Outcome State Fault Refusal :=
  let ctx (s : State) : Nat := (s.s (2 * y + 14)).toNat % 256
  perform s (scalarInstr (.cpTensor h y x) h (tensorCheck x y) (fun s => s.copyRoom (ctx s)) fun s =>
    s.acceptCopy (ctx s) (2 * y + 15) ((s.s (2 * y + 14)).getLsbD 9)
      fun t => .tensor (t.block (2 * x) 24) (t.block (2 * y) 16))

/-- The operand checks of CP.LIN (R262). -/
def linCheck (x : Nat) (s : State) : Option Trap :=
  let w (k : Nat) : Word := s.s (2 * x + k)
  let c := w 4
  let n := (w 5).toNat
  if c.toNat / 2048 ≠ 0 ∨ 31 < c.toNat % 256 ∨ w 6 ≠ 0#32 ∨ n = 0 ∨ 2 ^ 24 < n ∨ (c.getLsbD 8 ∧ w 1 ≠ 0#32)
      ∨ (c.getLsbD 9 ∧ w 3 ≠ 0#32) ∨ (c.getLsbD 10 ∧ ¬ s.armed (c.toNat % 256)) then some s.illegal
  else
    ((if c.getLsbD 8 then s.spadOut (w 0).toNat n else none).or (if c.getLsbD 9 then s.spadOut (w 2).toNat n else none)).or
      (s.queueTrap 0 (c.toNat % 256))

/-- CP.LIN (R262). -/
def execCpLin (h : Hdr) (x : Nat) (s : State) : Host.Outcome State Fault Refusal :=
  let ctx (s : State) : Nat := (s.s (2 * x + 4)).toNat % 256
  perform s (scalarInstr (.cpLin h x) h (linCheck x) (fun s => s.copyRoom (ctx s)) fun s =>
    s.acceptCopy (ctx s) (2 * x + 7) ((s.s (2 * x + 4)).getLsbD 10) fun t => .lin (t.block (2 * x) 7))

/-- The operand checks of CP.GATHER (`gat`) and CP.SCATTER (R262). -/
def rowsCheck (gat : Bool) (y x : Nat) (s : State) : Option Trap :=
  let w (k : Nat) : Nat := (s.s (2 * x + k)).toNat
  let c := w 6
  if c / 512 ≠ 0 ∨ 31 < c % 256 ∨ w 2 % 4 ≠ 0 ∨ w 3 = 0 ∨ 4096 < w 3 ∨ w 4 = 0 ∨ 65536 < w 4
      ∨ (bit c 8 ∧ (¬ gat ∨ ¬ s.armed (c % 256))) then some s.illegal
  else
    ((s.spadOut (w 2) (4 * w 3)).or (s.spadOut (s.s (2 * y)).toNat (w 3 * w 4))).or (s.queueTrap 0 (c % 256))

/-- CP.GATHER (R262). -/
def execCpGather (h : Hdr) (y x : Nat) (s : State) : Host.Outcome State Fault Refusal :=
  let ctx (s : State) : Nat := (s.s (2 * x + 6)).toNat % 256
  perform s (scalarInstr (.cpGather h y x) h (rowsCheck true y x) (fun s => s.copyRoom (ctx s)) fun s =>
    s.acceptCopy (ctx s) (2 * x + 7) ((s.s (2 * x + 6)).getLsbD 8)
      fun t => .gather (t.block (2 * x) 7) (t.s (2 * y)).toNat)

/-- CP.SCATTER (R262). -/
def execCpScatter (h : Hdr) (y x : Nat) (s : State) : Host.Outcome State Fault Refusal :=
  let ctx (s : State) : Nat := (s.s (2 * x + 6)).toNat % 256
  perform s (scalarInstr (.cpScatter h y x) h (rowsCheck false y x) (fun s => s.copyRoom (ctx s)) fun s =>
    s.acceptCopy (ctx s) (2 * x + 7) false
      fun t => .scatter (t.block (2 * x) 7) (t.s (2 * y)).toNat)

/-- The operand checks of CP.FOLLOW (R263): its own, then those of MX.MMA. -/
def followCheck (h : Hdr) (a x : Nat) (s : State) : Option Trap :=
  let c := (s.s (2 * x + 7)).toNat
  if c / 32 ≠ 0 ∨ s.armed c then some s.illegal else mmaCheck h (2 * x) a s

/-- CP.FOLLOW (R263): the matrix context accepts the command now. -/
def execCpFollow (h : Hdr) (a x : Nat) (s : State) : Host.Outcome State Fault Refusal :=
  perform s (scalarInstr (.cpFollow h a x) h (followCheck h a x) (State.mxRoom · (2 * x)) fun s =>
    let ctx := (s.s (2 * x + 7)).toNat
    let r := (s.pairFlush s.cur.gid).acceptMma h (2 * x) a
    r.2.updCopy s.cg.bid ctx fun c => { c with armed := some r.1 })

/-- Cancel the commands of a context (R264). -/
def State.cancelCopies (s : State) (bid ctx : Nat) : State :=
  let x := (s.b bid).copy.get ctx
  let t := x.queue.foldl (fun t c => t.stopCopy bid ctx c none) s
  match x.armed with
  | some m => (t.discardMma m).updCopy bid ctx fun x => { x with armed := none }
  | none => t

/-- CP.CANCEL (R264). -/
def execCpCancel (h : Hdr) (x : Nat) (s : State) : Host.Outcome State Fault Refusal :=
  perform s (scalarInstr (.cpCancel h x) h (fun s => if (s.s (2 * x)).toNat / 32 ≠ 0 then some s.illegal else none)
    (fun _ => true) fun s => (s.pairFlush s.cur.gid).cancelCopies s.cg.bid (s.s (2 * x)).toNat)

/-! ### FENCE.MIR (R230) -/

/-- A copy that has not run would write mirrored pages. DEDUCED, log entry 135. -/
def State.mirCopy (s : State) (bid ctx num : Nat) : Bool :=
  ((s.b bid).copy.get ctx).queue.any fun c => decide (c.num = num) && !c.ran &&
    (s.planOf bid ctx c).elems.flatten.any fun m => match m.dst with
      | .dev _ mir => mir
      | _ => false
/-- A write on its way to the mirror, a line that will be sent there, or a copy that is still to write mirrored pages is of
some parties (R230): the lanes that made the write, added to the line, or issued the copy. DEDUCED, log entry 135. -/
def State.mirOwed (s : State) (q : Origin) : Bool :=
  (s.mirror.any fun w => w.who.any (·.same q)) || (s.red.any fun l => l.2.live && l.2.mir && l.2.adders.any (·.same q)) ||
    (s.log.any fun e => e.by_.same q && decide (e.tag.take 3 = [4, 0, s.cg.bid]) && s.mirCopy s.cg.bid (e.tag.getD 3 0) (e.tag.getD 4 0))

/-- FENCE.MIR is ready (R230, R407): the mirror is off or lost, or it is in sync and every write of Live(S) has been
acknowledged. With the mirror off it waits for nothing. DESIGN CHOICE, log entry 116. -/
def State.mirReady (s : State) : Bool :=
  decide (s.mirstat = 0 ∨ s.mirstat = 2) || (decide (s.mirstat = 1) && !s.mirOwed s.issuers)

/-- FENCE.MIR (R230, R407): with the mirror lost it completes at once and sets MIRLOST. -/
def execFenceMir (h : Hdr) (x : Nat) (s : State) : Host.Outcome State Fault Refusal :=
  perform s (scalarCore (.fenceMir h x) h (fun _ => none) fun s0 s =>
    if (s.pairFlush s.cur.gid).mirReady then
      let t := ((s.pairFlush s.cur.gid).fence 3 x).advance
      if s.mirstat = 2 then t.stick [mirLost] else t
    else s0.wait)

end Sys2Proof.Machine
end

