-- ==== Sys2Proof/Machine/Sampling.lean ====
section
/-! DEFINITION. The sampling arrays (11_sampling.md R297-R328): acceptance, the ten commands, the colour step with its
probability table, the health monitors, and boundary exchange. -/

namespace Sys2Proof.Machine

open Sys2Proof

/-! ### The update rule (R302-R306) -/

/-- P(a) for a from 0 to 128: 65536 / (1 + e^(-a/16)) to the nearest integer (R302). -/
def logisticTab : List Nat :=
  [32768, 33792, 34813, 35831, 36843, 37847, 38841, 39824, 40793, 41748, 42687, 43608, 44511, 45393, 46254, 47094]
  ++ [47911, 48704, 49474, 50220, 50941, 51638, 52310, 52957, 53581, 54179, 54754, 55306, 55834, 56339, 56822, 57284]
  ++ [57724, 58144, 58544, 58925, 59287, 59632, 59959, 60270, 60565, 60844, 61109, 61360, 61598, 61823, 62036, 62238]
  ++ [62428, 62608, 62778, 62938, 63090, 63233, 63368, 63495, 63615, 63728, 63835, 63935, 64030, 64119, 64203, 64283]
  ++ [64357, 64427, 64494, 64556, 64614, 64669, 64721, 64770, 64816, 64859, 64900, 64938, 64974, 65008, 65039, 65069]
  ++ [65097, 65124, 65149, 65172, 65194, 65215, 65234, 65252, 65269, 65285, 65300, 65315, 65328, 65341, 65352, 65364]
  ++ [65374, 65384, 65393, 65402, 65410, 65417, 65425, 65431, 65438, 65444, 65449, 65454, 65459, 65464, 65468, 65472]
  ++ [65476, 65480, 65483, 65486, 65489, 65492, 65495, 65497, 65500, 65502, 65504, 65506, 65508, 65509, 65511, 65513]
  ++ [65514]

/-- The probability table (R302); P(-a) is 65536 - P(a), and no entry exceeds 65535. -/
def probOf (a : Int) : Nat :=
  if 0 ≤ a then min 65535 (logisticTab.getD a.toNat 0) else 65536 - logisticTab.getD (-a).toNat 0

/-- The seed of key K for node n (R305). -/
def smSeed (key n : Nat) : Nat :=
  let x := (key % 65536) ^^^ (n * 40503 % 65536)
  if x = 0 then 0xACE1 else x
/-- A step of the replay LFSR (R305). -/
def smLfsr (x : Nat) : Nat := if x % 2 = 1 then (x / 2) ^^^ 0xB400 else x / 2

/-- The state of node m as the update rule reads it: a ghost's latched state (R302). -/
def SmCtx.state (x : SmCtx) (m : Nat) : Bool := if m < x.n then x.st.get m else x.latched.get (m - x.n)
/-- The key of a coupling. -/
def coupling (i m : Nat) : Nat := 4096 * min i m + max i m
/-- The couplings of a node: the other end and the weight. -/
def SmCtx.couplings (x : SmCtx) (n : Nat) : List (Nat × Int) :=
  x.j.filterMap fun e =>
    if e.1 / 4096 = n then some (e.1 % 4096, sext 8 e.2)
    else if e.1 % 4096 = n then some (e.1 / 4096, sext 8 e.2) else none
/-- The field I(n) (R302). -/
def SmCtx.field (x : SmCtx) (n : Nat) : Int :=
  (x.couplings n).foldl (fun a c => a + (if x.state c.1 then c.2 else -c.2)) (sext 16 (x.h.get n))
/-- The activation a (R302). -/
def SmCtx.activation (x : SmCtx) (n : Nat) : Int :=
  max (-128) (min 127 (floorShift (x.field n * x.beta) (8 + x.bsh)))
/-- The nodes that a step of colour c updates. -/
def SmCtx.updated (x : SmCtx) (c : Nat) : List Nat :=
  (List.range x.n).filter fun n => decide (x.colour.get n = c ∧ x.clamp.get n = 0)
/-- The states of the ghosts. -/
def SmCtx.ghosts (x : SmCtx) : SMap Bool := SMap.tab x.g fun g => x.st.get (x.n + g)

/-! ### The monitors (R322) -/

/-- Monitor state cleared. -/
def SmArray.cleared (a : SmArray) : SmArray := { a with draws := [], below := [], last := [], run := [] }
/-- One monitored draw v at a position: the array, and the monitor, if its test fails. -/
def SmArray.count (a : SmArray) (pos v : Nat) : SmArray × Option Nat :=
  let k := pos / 64
  let run := if a.last.get pos = v + 1 then a.run.get pos + 1 else 1
  let n := a.draws.get k + 1
  let b := a.below.get k + (if v < 32768 then 1 else 0)
  let full := decide (n = 65536)
  let bad := decide (6 ≤ run) || (full && !decide (31488 ≤ b ∧ b ≤ 34048))
  ({ a with
     last := a.last.put pos (v + 1), run := a.run.put pos run
     draws := a.draws.put k (if full then 0 else n), below := a.below.put k (if full then 0 else b)
     propcnt := if full then a.propcnt.put k (b + 1) else a.propcnt }, if bad then some k else none)
/-- A draw of a sweep: a failing test clears the monitors (R322). DEDUCED, log entry 143. -/
def SmArray.draw (a : SmArray) (pos v : Nat) : SmArray × Option Nat :=
  let x := a.count pos v
  (if x.2.isSome then x.1.cleared else x.1, x.2)
/-- A test has failed (R322). -/
def SmArray.failAt (a : SmArray) (k : Nat) : SmArray := { a with failed := true, mon := k }

/-- The 65,536 draws of one monitor in SM.HLTH, from its 64 positions (R319): its counts, and the number of the first draw at
which a test fails. DEDUCED, log entry 59. -/
def monitorRun (free k : Nat) : SmArray × Option Nat :=
  (List.range 65536).foldl
    (fun (acc : SmArray × Option Nat) d =>
      let x := acc.1.count (64 * k + d % 64) (Config.noise (free + 32 * d + k)).toNat
      (x.1, acc.2.or (x.2.map fun _ => d))) ({}, none)
/-- SM.HLTH's draws (R319), the monitors side by side and from cleared state: the test that fails first counts, of those of one
draw that of the lowest monitor. It clears the monitors, so that no window is whole after it (R318, R322).
DEDUCED, log entry 59. -/
def SmArray.health (a : SmArray) (free : Nat) : SmArray :=
  let runs := (List.range 32).map fun k => (k, monitorRun free k)
  let fails := runs.filterMap fun x => x.2.2.map fun d => (d, x.1)
  let first := fails.find? fun f => fails.all fun g => decide (f.1 < g.1 ∨ f.1 = g.1 ∧ f.2 ≤ g.2)
  let b := if first.any fun f => decide (f.1 < 65535) then a
    else { a with propcnt := runs.foldl (fun m x => m.put x.1 (x.2.1.propcnt.get x.1)) a.propcnt }
  match first with
  | some f => b.cleared.failAt f.2
  | none => { b.cleared with failed := false, mon := 0xFFFFFFFF }

/-! ### Arrays and contexts (R297-R301) -/

/-- The core whose array a block uses (R297). -/
def Block.arrayCore (b : Block) : Nat := b.coreOf 0
/-- The array of a core. -/
def State.array (s : State) (core : Nat) : SmArray := (s.co core).array
/-- Change it. -/
def State.updArray (s : State) (core : Nat) (f : SmArray → SmArray) : State :=
  s.updCo core fun c => { c with array := f c.array }
/-- Change a sampling context. -/
def State.updSm (s : State) (bid ctx : Nat) (f : SmCtx → SmCtx) : State :=
  s.updB bid fun b => { b with sm := b.sm.upd ctx f }
/-- Commands accepted and not complete over a block's contexts. -/
def Block.smLoad (b : Block) : Nat := ((List.range 4).map fun k => (b.sm.get k).queue.length).foldl (· + ·) 0
/-- The array can serve a block: free, its own, or bound to a block that has nothing on it (R297). -/
def State.arrayOpen (s : State) (bid : Nat) : Bool :=
  match (s.array (s.b bid).arrayCore).bound with
  | none => true
  | some o => decide (o = bid) || (decide ((s.b o).smLoad = 0) && (List.range 4).all fun k => decide (((s.b o).sm.get k).cfgN = 0))
/-- Bind the array to a block by its first accepted command; nothing of another block is left (R297). -/
def State.bindArray (s : State) (bid : Nat) : State :=
  let core := (s.b bid).arrayCore
  if (s.array core).bound = some bid then s else s.updArray core fun _ => { bound := some bid }

/-- The state of a context after SM.CFG (R299, R311); it keeps its numbering, its queue and its accepted
configuration. -/
def SmCtx.config (x : SmCtx) (n colours beta bsh g : Nat) (pos : SMap Nat) : SmCtx :=
  { c := x.c, queue := x.queue, cfgN := x.cfgN, cfgG := x.cfgG, cfgC := x.cfgC, configured := decide (n ≠ 0), n := n
    g := g, colours := if n = 0 then 0 else colours, beta := if n = 0 then 0 else beta, bsh := if n = 0 then 0 else bsh
    pos := pos, x := SMap.tab n (smSeed 0) }

/-- Choose n of some positions freely (R322). DESIGN CHOICE, log entry 58. -/
def pickPositions (draw : Nat) : Nat → List Nat → List Nat
  | 0, _ => []
  | n + 1, l =>
    match l[Config.pick (draw + n) % max 1 l.length]? with
    | some p => p :: pickPositions draw n (l.erase p)
    | none => []

/-! ### The words a command reads (R301, R325) -/

/-- Where a block's scratchpad operand lies, counted from member core 0. -/
def State.smPlace (s : State) (bid a n : Nat) : Place :=
  (s.scratchPlace (issuer bid 0 (s.b bid).arrayCore false) a n).getD (.scratch bid 0)
/-- n words; a poisoned one is none. -/
def State.smWords (s : State) (bid ctx num a n : Nat) : List (Option Nat) :=
  let p := s.smPlace bid a (4 * n)
  let r := s.engReader bid 2 ctx num
  (List.range n).map fun k => if s.poAt p (4 * k) 4 then none else some (s.numAt r p (4 * k) 4)
/-- Apply words in order; a poisoned word is skipped as a bad entry (R325). -/
def SmCtx.applyWords (x : SmCtx) (ws : List (Option Nat)) (f : SmCtx → Nat → Nat → SmCtx) : SmCtx :=
  ws.zipIdx.foldl
    (fun x (w, k) => match w with
      | some v => f x k v
      | none => { x with badent := true, poison := true }) x
/-- The entry is skipped. DEDUCED, log entry 60. -/
def SmCtx.bad (x : SmCtx) : SmCtx := { x with badent := true }

/-- One entry of SM.LDC (R312). -/
def SmCtx.ldcEntry (x : SmCtx) (_k w : Nat) : SmCtx :=
  let i := bits w 10 0
  let j := bits w 21 11
  let jw := bits w 31 24
  let key := coupling i j
  let total := x.n + x.g
  if bits w 23 22 ≠ 0 ∨ i = j ∨ total ≤ i ∨ total ≤ j ∨ (x.n ≤ i ∧ x.n ≤ j) then x.bad
  else if jw = 0 then { x with j := x.j.erase key }
  else if x.j.get key ≠ 0 then { x with j := x.j.put key jw }
  else if [i, j].any fun e => decide (e < x.n ∧ 64 ≤ (x.couplings e).length) then x.bad
  else { x with j := x.j.put key jw }
/-- One word of SM.LDB (R313). -/
def SmCtx.ldbWord (x : SmCtx) (k w : Nat) : SmCtx :=
  if bits w 31 19 ≠ 0 ∨ x.colours ≤ bits w 18 16 then x.bad
  else { x with h := x.h.put k (w % 65536), colour := x.colour.put k (bits w 18 16) }
/-- One entry of SM.CLAMP (R314). -/
def SmCtx.clampEntry (x : SmCtx) (_k w : Nat) : SmCtx :=
  let n := bits w 10 0
  if bits w 31 17 ≠ 0 ∨ bits w 15 11 ≠ 0 ∨ x.n ≤ n then x.bad
  else { x with clamp := x.clamp.put n (if bit w 16 then 2 else 1), st := x.st.put n (bit w 16) }
/-- One word of SM.INIT's bitmap (R315). -/
def SmCtx.initWord (x : SmCtx) (k w : Nat) : SmCtx :=
  { x with
    st := (List.range 32).foldl
      (fun m b =>
        let n := 32 * k + b
        if n < x.n ∧ x.clamp.get n = 0 then m.put n (bit w b) else m) x.st }

/-- The states of a context as a bitmap word (R315, R318). -/
def SmCtx.bitmap (x : SmCtx) (k : Nat) : Nat :=
  (List.range 32).foldl (fun a b => if 32 * k + b < x.n ∧ x.st.get (32 * k + b) then a + 2 ^ b else a) 0
/-- PROPCNT (R318): a free value while the monitor that MON names has had no complete window.
DESIGN CHOICE, log entry 141. -/
def SmArray.shown (a : SmArray) (free : Nat) : Nat :=
  if a.mon < 32 then
    match a.propcnt.get a.mon with
    | 0 => (Config.freeWord free).toNat
    | n + 1 => n
  else 0
/-- The health record (R318). DEDUCED, log entry 59. -/
def SmCtx.health (x : SmCtx) (a : SmArray) (free : Nat) : List Byte :=
  leBytes 4 (x.poison.toNat * 16 + x.mode * 8 + x.bxdrop.toNat * 4 + x.badent.toNat * 2 + a.failed.toNat)
    ++ leBytes 4 (a.shown free) ++ leBytes 4 a.mon ++ leBytes 4 x.sweeps
    ++ leBytes 8 x.updates ++ leBytes 8 0

/-! ### Running a command (R300, R311-R320) -/

/-- A command of a context completes with the trap it records (R232, R324). -/
def State.retireSm (s : State) (bid ctx : Nat) (c : SmCmd) (t : Option Trap) : State :=
  let u := s.updSm bid ctx fun x =>
    { x with queue := x.queue.filter fun y => decide (y.num ≠ c.num), running := none, bx := none }
  (u.updArray (s.b bid).arrayCore fun a => { a with busy := none }).finish bid 2 ctx c.num t
/-- SAMPLER_HEALTH and POISON as a command records them (R435). -/
def smHealthTrap (mon num : Nat) : Trap := { code := 0x12, tval := w32 mon, taddr := num }
def smPoisonTrap (ctx num : Nat) : Trap := { code := 0x0D, sub := 4, tval := w32 (ctxWord 2 ctx), taddr := num }

/-- Word k of a command's operand block. -/
def SmCmd.w (c : SmCmd) (k : Nat) : Nat := (c.blk.getD k 0#32).toNat
/-- A slot of the colour order; none at its end (R317). -/
def SmCmd.slot (c : SmCmd) (k : Nat) : Option Nat :=
  if 8 ≤ k ∨ ((List.range (k + 1)).any fun i => decide (c.w 1 / 16 ^ i % 16 = 15)) then none else some (c.w 1 / 16 ^ k % 16)
/-- START and ACC (R317). -/
def SmCmd.start (c : SmCmd) : Nat := c.w 2 % 2 ^ 31
def SmCmd.acc (c : SmCmd) : Bool := bit (c.w 2) 31

/-- A command that reads words: apply them, and record POISON where one was poisoned (R325). DEDUCED, log entry 60. -/
def State.smInput (s : State) (bid ctx : Nat) (c : SmCmd) (n : Nat) (pre : SmCtx → SmCtx)
    (f : SmCtx → Nat → Nat → SmCtx) : State :=
  let ws := s.smWords bid ctx c.num (c.w 0) n
  let t := s.updSm bid ctx fun x => (pre x).applyWords ws f
  t.retireSm bid ctx c (if ws.any Option.isNone then some (smPoisonTrap ctx c.num) else none)

/-- Write words of SM.READ: each with its mark (R318, R325, R372). -/
def State.smWrite (s : State) (bid ctx num a : Nat) (ws : List (List Byte × Bool)) : State :=
  let p := s.smPlace bid a (4 * ws.length)
  let e := s.engEvent bid 2 ctx num 6
  ws.zipIdx.foldl (fun t (w, k) => t.writeAs (some (s.b bid).grid) e (p.plus (4 * k)) w.1 w.2) s

/-- SM.READ (R318). -/
def State.smRead (s : State) (bid ctx : Nat) (c : SmCmd) : State :=
  let x := (s.b bid).sm.get ctx
  let words : List (List Byte × Bool) :=
    match c.w 1 with
    | 0 => (List.range x.n).map fun n => (leBytes 4 (x.count.get n), x.nodePo.get n)
    | 1 => (List.range ((x.n + 31) / 32)).map fun k =>
        (leBytes 4 (x.bitmap k), (List.range 32).any fun b => decide (32 * k + b < x.n) && x.nodePo.get (32 * k + b))
    | _ =>
      let r := x.health (s.array (s.b bid).arrayCore) s.free
      (List.range 8).map fun k => ((r.drop (4 * k)).take 4, false)
  let t := if c.w 1 = 2 then { s with free := s.free + 1 } else s
  (t.smWrite bid ctx c.num (c.w 0) (words.map fun w => (w.1, w.2 || c.marked))).retireSm bid ctx c none

/-- SM.CFG (R311): its nodes take distinct array positions, those that no other context of the block holds first.
DESIGN CHOICE, log entry 58. -/
def State.smConfig (s : State) (bid ctx : Nat) (c : SmCmd) : State :=
  let n := c.w 0
  let held := (List.range 4).flatMap fun k =>
    if k = ctx then [] else
      let y := (s.b bid).sm.get k
      (List.range y.n).map y.pos.get
  let ps := pickPositions s.free n ((List.range 2048).filter fun p => decide (p ∉ held)) ++ distinctAsc held
  let t := s.updSm bid ctx fun x => x.config n (c.w 1) (c.w 2) (c.w 3) (c.w 4) (SMap.tab n fun k => ps.getD k 0)
  { t with free := s.free + n }.retireSm bid ctx c none

/-- The entries of SM.BX that will land (R320): ghost and state, in list order. -/
def SmCtx.bxEntries (x : SmCtx) (ws : List (Option Nat)) : List (Nat × Bool) :=
  ws.filterMap fun w => match w with
    | some v => if bits v 31 22 ≠ 0 ∨ x.n ≤ bits v 10 0 then none else some (bits v 21 11, x.st.get (bits v 10 0))
    | none => none
/-- A word of SM.BX that is skipped sets BADENT (R320). -/
def SmCtx.bxCheck (x : SmCtx) (_k w : Nat) : SmCtx := if bits w 31 22 ≠ 0 ∨ x.n ≤ bits w 10 0 then x.bad else x

/-- The start of SM.SWEEP (R317, R323). -/
def State.smSweepStart (s : State) (bid ctx : Nat) (c : SmCmd) : State :=
  let core := (s.b bid).arrayCore
  let x := (s.b bid).sm.get ctx
  let a := s.array core
  if x.mode = 0 ∧ a.failed then s.retireSm bid ctx c (some (smHealthTrap a.mon c.num))
  else
    let t := s.updSm bid ctx fun x =>
      { x with count := if c.acc then x.count else [], latched := if x.mode = 1 then x.ghosts else x.latched
               running := some {} }
    t.updArray core fun a => { a with busy := some ctx }

/-- Run a command. SM.SWEEP and SM.BX only start: colour steps and landings follow. -/
def State.runSm (s : State) (bid ctx : Nat) (c : SmCmd) : State :=
  let core := (s.b bid).arrayCore
  let x := (s.b bid).sm.get ctx
  match c.fn with
  | 20 => s.smConfig bid ctx c
  | 21 => s.smInput bid ctx c (c.w 1) (fun x => x) SmCtx.ldcEntry
  | 22 => s.smInput bid ctx c x.n (fun x => x) SmCtx.ldbWord
  | 23 => s.smInput bid ctx c (c.w 1) (fun x => { x with clamp := [] }) SmCtx.clampEntry
  | 24 => s.smInput bid ctx c ((x.n + 31) / 32) (fun x => x) SmCtx.initWord
  | 25 =>
    (s.updSm bid ctx fun x =>
      { x with mode := c.mode, x := if c.mode = 1 then SMap.tab x.n (smSeed (c.w 0)) else x.x }).retireSm bid ctx c none
  | 26 => s.smSweepStart bid ctx c
  | 27 => s.smRead bid ctx c
  | 28 =>
    let t := { (s.updArray core fun a => a.health s.free) with free := s.free + 32 * 65536 }
    let a := t.array core
    t.retireSm bid ctx c (if a.failed then some (smHealthTrap a.mon c.num) else none)
  | _ =>
    let ws := s.smWords bid ctx c.num (c.w 0) (c.w 1)
    let trap := if ws.any Option.isNone then some (smPoisonTrap ctx c.num) else none
    let t := s.updSm bid ctx fun x =>
      { (x.applyWords ws SmCtx.bxCheck) with
        bx := some (x.bxEntries ws), queue := x.queue.map fun y => if y.num = c.num then { y with trap := trap } else y }
    t.updArray core fun a => { a with busy := some ctx }

/-- A command reads or writes the scratchpad. -/
def SmCmd.accesses (c : SmCmd) : Bool := decide (c.fn ∈ [21, 22, 23, 24, 27, 29])
/-- The context that comes next on a block's array, from the one whose turn it is on (R300).
DESIGN CHOICE, log entry 139. -/
def State.smNext (s : State) (bid : Nat) : Option Nat :=
  let t := (s.array (s.b bid).arrayCore).turn
  ((List.range 4).map fun k => (t + k) % 4).find? fun k => decide (((s.b bid).sm.get k).queue ≠ [])
/-- SAMPLING_COMMAND_RUN (R300): the oldest command of the context that comes next, while no command runs on the array. -/
def execSamplingCommandRun (bid ctx : Nat) (s : State) : Host.Outcome State Fault Refusal :=
  event (
    let core := (s.b bid).arrayCore
    let a := s.array core
    match ((s.b bid).sm.get ctx).queue with
    | c :: _ =>
      if a.bound = some bid ∧ a.busy = none ∧ s.smNext bid = some ctx then
        let t := s.updArray core fun a => { a with turn := (ctx + 1) % 4 }
        if c.accesses then (t.runSm bid ctx c).engRead bid 2 ctx c.num 6 else t.runSm bid ctx c
      else s
    | [] => s)

/-! ### COLOUR_STEP (R302, R306, R322) -/

/-- The new states of a step's nodes, each read from the start-of-step states, with the array, the LFSRs and the
monitor whose test fails first, the nodes taken in their order. DEDUCED, log entry 59. -/
def colourDraws (x : SmCtx) (a : SmArray) (monen : Bool) (free : Nat) (nodes : List Nat) :
    List (Nat × Bool) × SMap Nat × SmArray × Option Nat :=
  nodes.zipIdx.foldl
    (fun acc (n, k) =>
      let p := probOf (x.activation n)
      if x.mode = 1 then
        let u := smLfsr (x.x.get n)
        (acc.1 ++ [(n, decide (u < p))], acc.2.1.put n u, acc.2.2.1, acc.2.2.2)
      else
        let u := (Config.noise (free + k)).toNat
        let r := if monen then acc.2.2.1.draw (x.pos.get n) u else (acc.2.2.1, none)
        (acc.1 ++ [(n, decide (u < p))], acc.2.1, r.1, acc.2.2.2.or r.2))
    ([], x.x, a, none)

/-- Count the states after a counted sweep (R306). -/
def SmCtx.counted (x : SmCtx) : SmCtx :=
  { x with
    count := (List.range x.n).foldl
      (fun m n => if x.st.get n then m.put n (min (m.get n + 1) (2 ^ 32 - 1)) else m) x.count }

/-- A sweep ends: its counts and SWEEPS (R306, R317). -/
def SmCtx.sweepEnd (x : SmCtx) (c : SmCmd) (t : Nat) : SmCtx :=
  let y := if c.start ≤ t then x.counted else x
  { y with sweeps := min (y.sweeps + 1) (2 ^ 32 - 1) }

/-- One colour step of a running sweep, and what follows it: the next slot, the next sweep, or the end.
DEDUCED, log entry 142. -/
def State.colourStep (s : State) (core bid ctx : Nat) (c : SmCmd) (w : Sweep) : State :=
  let x0 := (s.b bid).sm.get ctx
  let x := if x0.mode = 0 then { x0 with latched := x0.ghosts } else x0
  let nodes := x.updated ((c.slot w.slot).getD 8)
  let (new, lf, a, fail) := colourDraws x (s.array core) ((s.co core).smctl.getLsbD 0) s.free nodes
  let y := { x with st := new.foldl (fun m z => m.put z.1 z.2) x.st, x := lf, updates := (x.updates + nodes.length) % 2 ^ 64 }
  let s := if x.mode = 0 then { s with free := s.free + nodes.length } else s
  match fail with
  | some k =>
    ((s.updSm bid ctx fun _ => y).updArray core fun _ => a.failAt k).retireSm bid ctx c (some (smHealthTrap k c.num))
  | none =>
    let s := s.updArray core fun _ => a
    if (c.slot (w.slot + 1)).isSome then
      s.updSm bid ctx fun _ => { y with running := some { w with slot := w.slot + 1 } }
    else
      let z := y.sweepEnd c w.t
      if w.t + 1 < c.w 0 then s.updSm bid ctx fun _ => { z with running := some { t := w.t + 1, slot := 0 } }
      else (s.updSm bid ctx fun _ => z).retireSm bid ctx c none

/-- COLOUR_STEP (R302). -/
def execColourStep (core : Nat) (s : State) : Host.Outcome State Fault Refusal :=
  event (match (s.array core).bound, (s.array core).busy with
    | some bid, some ctx =>
      let x := (s.b bid).sm.get ctx
      match x.running, x.queue with
      | some w, c :: _ => s.colourStep core bid ctx c w
      | _, _ => s
    | _, _ => s)

/-! ### BX_LANDING (R307, R308, R320, R326) -/

/-- The block of a grid that landings on a core reach: the one its array is bound to, or one saved there (R326). -/
def State.landingBlock (s : State) (grid core : Nat) : Option Nat :=
  let saved := (s.blocks.find? fun b => b.2.savedArray.isSome && decide (b.2.arrayCore = core ∧ b.2.grid = grid)).map (·.1)
  match (s.array core).bound with
  | some bid => if (s.b bid).grid = grid then some bid else saved
  | none => saved

/-- One landing: it is dropped unless the target is of the same grid, configured, and has the ghost (R307). -/
def State.landOne (s : State) (bid ctx tcore tctx : Nat) (e : Nat × Bool) : State :=
  let drop := s.updSm bid ctx fun x => { x with bxdrop := true }
  match s.landingBlock (s.b bid).grid tcore with
  | some tb =>
    let y := (s.b tb).sm.get tctx
    if y.configured ∧ e.1 < y.g then
      s.updSm tb tctx fun y => { y with st := y.st.put (y.n + e.1) e.2 }
    else drop
  | none => drop

/-- BX_LANDING (R308): every entry of the running SM.BX lands, in list order, and the command completes.
DESIGN CHOICE, log entry 140. -/
def execBxLanding (bid ctx : Nat) (s : State) : Host.Outcome State Fault Refusal :=
  event (
    let x := (s.b bid).sm.get ctx
    match x.bx, x.queue with
    | some es, c :: _ =>
      let t := es.foldl (fun t e => t.landOne bid ctx (c.w 2 % 256) (bits (c.w 2) 9 8) e) s
      t.retireSm bid ctx c c.trap
    | _, _ => s)

/-! ### SMCTL and the end of a block (R297, R321, R322) -/

/-- SMCTL_WRITE: writing MONEN clears the monitors. -/
def State.smctlWrite (s : State) (core value : Nat) : State :=
  (s.updCo core fun c => { c with smctl := w32 (value % 2) }).updArray core SmArray.cleared
/-- SMCTL_WRITE (R321). -/
def execSmctlWrite (core value : Nat) (s : State) : Host.Outcome State Fault Refusal := event (s.smctlWrite core value)

/-- A context as it stands after an SM.CFG with N = 0; its numbering and its traps stay. -/
def SmCtx.unconfigured (x : SmCtx) : SmCtx := { c := x.c }
/-- The array's block has exited and its commands are complete (R297). -/
def State.arrayDone (s : State) (core : Nat) : Bool :=
  match (s.array core).bound with
  | some bid => (s.b bid).gone && decide ((s.b bid).smLoad = 0)
  | none => false
/-- The array is unbound and everything in it is cleared. -/
def State.arrayUnbind (s : State) (core : Nat) : State :=
  match (s.array core).bound with
  | some bid => (s.updB bid fun b => { b with sm := (List.range 4).foldl (fun m k => m.upd k SmCtx.unconfigured) b.sm }).updArray
      core fun _ => {}
  | none => s
/-- ARRAY_UNBIND (R297). -/
def execArrayUnbind (core : Nat) (s : State) : Host.Outcome State Fault Refusal :=
  event (if s.arrayDone core then s.arrayUnbind core else s)

/-! ### Acceptance (R298, R300, R309, R310) -/

/-- Operand value k of the block at r. -/
def State.op (s : State) (r k : Nat) : Nat := (s.s (r + k)).toNat
/-- Some operand words are not 0. -/
def State.opsNonzero (s : State) (r : Nat) (ks : List Nat) : Bool := ks.any fun k => decide (s.op r k ≠ 0)
/-- A context that is out of range, or has no configuration with nodes (R310). -/
def State.smUnconfigured (s : State) (ctx : Nat) : Bool := decide (3 < ctx) || decide ((s.cb.sm.get ctx).cfgN = 0)
/-- The accepted configuration's N, and the words of its bitmap. -/
def State.smN (s : State) (ctx : Nat) : Nat := (s.cb.sm.get ctx).cfgN
def State.smMapWords (s : State) (ctx : Nat) : Nat := (s.smN ctx + 31) / 32
/-- A scratchpad range of a sampling command, counted from member core 0 (R301, R310). -/
def State.smOut (s : State) (a n : Nat) : Option Trap :=
  if n = 0 ∨ (s.scratchPlace (issuer s.cg.bid 0 s.cb.arrayCore false) a n).isSome then none else some (s.rangeTrap 0 a)

/-- What a sampling command's checks look at: the context word, whether a value is out of its range, whether the core
that it names is absent, and the scratchpad range it takes. -/
structure SmForm where
  ctx : Nat := 0
  bad : Bool := false
  absent : Bool := false
  range : Option (Nat × Nat) := none
  deriving DecidableEq, Repr, Inhabited

/-- The operand checks in the order of R310, then ENGINE_QUEUE (R232). SM.CFG alone needs no configuration.
DEDUCED, log entry 61. -/
def smCheck (cfg : Bool) (form : State → SmForm) (s : State) : Option Trap :=
  let f := form s
  firstOf [(f.bad || decide (3 < f.ctx) || (!cfg && s.smUnconfigured f.ctx), s.illegal), (f.absent, s.unitAbsent)]
    |>.or (match f.range with
      | some (a, n) => s.smOut a n
      | none => none)
    |>.or (s.queueTrap 2 f.ctx)

/-- The nodes that the other contexts of the block hold reserved (R298). -/
def State.smReserved (s : State) (ctx : Nat) : Nat :=
  (List.range 4).foldl
    (fun a k => if k = ctx then a else a + (s.cb.sm.get k).cfgN + (s.cb.sm.get k).cfgG) 0
/-- Room for one more command, and the array free for this block (R297, R300). -/
def State.smReady (s : State) (ctx : Nat) : Bool :=
  s.arrayOpen s.cg.bid && decide ((s.cb.sm.get ctx).queue.length < 16) && decide (s.cb.smLoad < 32)

/-- Accept a sampling command: its number goes to register `reg` (R249, R297); a pair compares first (R386). -/
def State.acceptSm (s : State) (fn mode ctx reg : Nat) (blk : List Word) : State :=
  let bid := s.cg.bid
  let marked := s.cg.poisonPass.isSome
  let (n, t) := ((s.pairFlush s.cur.gid).bindArray bid).acceptCmd 2 ctx reg
  t.updSm bid ctx fun x =>
    { x with queue := x.queue ++ [{ num := n, fn := fn, mode := mode, blk := blk, core := s.cb.arrayCore, member := 0
                                    marked := marked }] }

/-- A command of the ENG functions other than SM.CFG and SM.KEY; `i` is one that names the same registers. -/
def smInstr (i : Instr) (h : Hdr) (fn r : Nat) (form : State → SmForm) : State → State :=
  scalarInstr i h (smCheck false form) (fun s => s.smReady (form s).ctx) fun s =>
    s.acceptSm fn 0 (form s).ctx (r + 7) (s.block r 7)

/-- The operands of SM.CFG (R311). -/
def cfgForm (r : Nat) (s : State) : SmForm :=
  { ctx := s.op r 5
    bad := decide (2048 < s.op r 0 ∨ s.op r 1 = 0 ∨ 8 < s.op r 1 ∨ 65535 < s.op r 2 ∨ 15 < s.op r 3
      ∨ 2048 - s.op r 0 < s.op r 4 ∨ (s.op r 0 = 0 ∧ s.op r 4 ≠ 0) ∨ s.op r 6 ≠ 0) }
/-- SM.CFG (R298, R311): it reserves its nodes when it is accepted. -/
def execSmCfg (h : Hdr) (x : Nat) (s : State) : Host.Outcome State Fault Refusal :=
  let r := 2 * x
  perform s (scalarInstr (.smCfg h x) h (smCheck true (cfgForm r))
    (fun s => s.smReady (s.op r 5) && decide (s.smReserved (s.op r 5) + s.op r 0 + s.op r 4 ≤ 2048)) fun s =>
      (s.acceptSm 20 0 (s.op r 5) (r + 7) (s.block r 7)).updSm s.cg.bid (s.op r 5) fun y =>
        { y with cfgN := s.op r 0, cfgG := s.op r 4, cfgC := s.op r 1 })

/-- A scratchpad address that is not a multiple of 4 (R310). -/
def State.smUneven (s : State) (r : Nat) : Bool := decide (s.op r 0 % 4 ≠ 0)

/-- SM.LDC (R312). -/
def ldcForm (r : Nat) (s : State) : SmForm :=
  { ctx := s.op r 2, bad := decide (s.op r 1 = 0 ∨ 32768 < s.op r 1) || s.opsNonzero r [3, 4, 5, 6] || s.smUneven r
    range := some (s.op r 0, 4 * s.op r 1) }
def execSmLdc (h : Hdr) (x : Nat) (s : State) : Host.Outcome State Fault Refusal :=
  perform s (smInstr (.smCfg h x) h 21 (2 * x) (ldcForm (2 * x)))

/-- SM.LDB (R313). -/
def ldbForm (r : Nat) (s : State) : SmForm :=
  { ctx := s.op r 1, bad := s.opsNonzero r [2, 3, 4, 5, 6] || s.smUneven r, range := some (s.op r 0, 4 * s.smN (s.op r 1)) }
def execSmLdb (h : Hdr) (x : Nat) (s : State) : Host.Outcome State Fault Refusal :=
  perform s (smInstr (.smCfg h x) h 22 (2 * x) (ldbForm (2 * x)))

/-- SM.CLAMP (R314). DEDUCED, log entry 61. -/
def clampForm (r : Nat) (s : State) : SmForm :=
  { ctx := s.op r 2, bad := decide (2048 < s.op r 1) || s.opsNonzero r [3, 4, 5, 6] || s.smUneven r
    range := some (s.op r 0, 4 * s.op r 1) }
def execSmClamp (h : Hdr) (x : Nat) (s : State) : Host.Outcome State Fault Refusal :=
  perform s (smInstr (.smCfg h x) h 23 (2 * x) (clampForm (2 * x)))

/-- SM.INIT (R315). -/
def initForm (r : Nat) (s : State) : SmForm :=
  { ctx := s.op r 1, bad := s.opsNonzero r [2, 3, 4, 5, 6] || s.smUneven r
    range := some (s.op r 0, 4 * s.smMapWords (s.op r 1)) }
def execSmInit (h : Hdr) (x : Nat) (s : State) : Host.Outcome State Fault Refusal :=
  perform s (smInstr (.smCfg h x) h 24 (2 * x) (initForm (2 * x)))

/-- SM.KEY (R316). -/
def keyForm (r : Nat) (s : State) : SmForm := { ctx := s.op r 1, bad := decide (65535 < s.op r 0) }
def execSmKey (h : Hdr) (y m : Nat) (s : State) : Host.Outcome State Fault Refusal :=
  let r := 2 * y
  perform s (scalarInstr (.smKey h y m) h (smCheck false (keyForm r)) (fun s => s.smReady (s.op r 1)) fun s =>
    s.acceptSm 25 m (s.op r 1) (r + 2) (s.block r 1))

/-- The colour order is in range: slot 0 is a colour, and every slot before the end is below C (R317). -/
def orderOk (order colours : Nat) : Bool :=
  let slots := ((List.range 8).map fun k => order / 16 ^ k % 16).takeWhile (· ≠ 15)
  decide (slots ≠ []) && slots.all fun k => decide (k < colours)
/-- SM.SWEEP (R317). -/
def sweepForm (r : Nat) (s : State) : SmForm :=
  { ctx := s.op r 3
    bad := decide (s.op r 0 = 0 ∨ 2 ^ 24 < s.op r 0) || !orderOk (s.op r 1) (s.cb.sm.get (s.op r 3)).cfgC
      || s.opsNonzero r [4, 5, 6] }
def execSmSweep (h : Hdr) (x : Nat) (s : State) : Host.Outcome State Fault Refusal :=
  perform s (smInstr (.smCfg h x) h 26 (2 * x) (sweepForm (2 * x)))

/-- SM.READ (R318). -/
def readForm (r : Nat) (s : State) : SmForm :=
  let n := match s.op r 1 with
    | 0 => 4 * s.smN (s.op r 2)
    | 1 => 4 * s.smMapWords (s.op r 2)
    | _ => 32
  { ctx := s.op r 2, bad := decide (2 < s.op r 1) || s.opsNonzero r [3, 4, 5, 6] || s.smUneven r
    range := some (s.op r 0, n) }
def execSmRead (h : Hdr) (x : Nat) (s : State) : Host.Outcome State Fault Refusal :=
  perform s (smInstr (.smCfg h x) h 27 (2 * x) (readForm (2 * x)))

/-- SM.HLTH (R319). -/
def hlthForm (r : Nat) (s : State) : SmForm := { ctx := s.op r 0, bad := s.opsNonzero r [1, 2, 3, 4, 5, 6] }
def execSmHlth (h : Hdr) (x : Nat) (s : State) : Host.Outcome State Fault Refusal :=
  perform s (smInstr (.smCfg h x) h 28 (2 * x) (hlthForm (2 * x)))

/-- SM.BX (R310, R320). -/
def bxForm (r : Nat) (s : State) : SmForm :=
  { ctx := s.op r 3
    bad := decide (s.op r 1 = 0 ∨ 2048 < s.op r 1 ∨ 1024 ≤ s.op r 2) || s.opsNonzero r [4, 5, 6] || s.smUneven r
    absent := !s.inService (s.op r 2 % 256), range := some (s.op r 0, 4 * s.op r 1) }
def execSmBx (h : Hdr) (x : Nat) (s : State) : Host.Outcome State Fault Refusal :=
  perform s (smInstr (.smCfg h x) h 29 (2 * x) (bxForm (2 * x)))

end Sys2Proof.Machine
end

