-- ==== Sys2Proof/Machine/Collective.lean ====
section
/-! DEFINITION. The collective commands (14_fabric.md R398-R403). What other modules bring to a collective arrives with
COLLECTIVE_COMPLETE; a collective of this module alone needs nothing from outside. -/

namespace Sys2Proof.Machine

open Sys2Proof

/-! ### Acceptance (R398, R399) -/

/-- The bytes of an element. -/
def colSize (ty : Nat) : Nat := if ty = 2 then 2 else 4
/-- The ranks of a mask, ascending. -/
def maskRanks (mask : Nat) : List Nat := (List.range 32).filter (bit mask)

/-- The command of the operand block at r; `fn` is 32 COL.RED, 33 COL.BCAST, 34 COL.GATH. -/
def State.colOf (s : State) (fn r : Nat) : ColCmd :=
  let c := s.op r 5
  { fn := fn, src := s.s2 r, dst := s.s2 (r + 2), n := s.op r 4, comm := bits c 31 16, root := bits c 12 8, op := bits c 7 4
    ty := bits c 3 0, mask := s.op r 6 }

/-- The operand checks (R399): ILLEGAL, then ENGINE_QUEUE. -/
def colCheck (fn r : Nat) (s : State) : Option Trap :=
  let c := s.colOf fn r
  let bad := decide (2 < c.op) || decide (2 < c.ty) || decide (c.n = 0 ∨ 2 ^ 24 < c.n) || decide (c.mask / 2 ^ s.fabSize ≠ 0)
    || !bit c.mask s.rank || (decide (fn = 33) && !bit c.mask c.root) || (decide (fn ≠ 33) && decide (c.root ≠ 0))
    || (decide (fn ≠ 32) && decide (c.op ≠ 0)) || decide (c.src % colSize c.ty ≠ 0) || decide (c.dst % colSize c.ty ≠ 0)
  if bad then some s.illegal else s.queueTrap 3 (bits (s.op r 5) 15 13)

/-- Accept a collective command: its number goes to s[r+7], and it is the next of its COMM (R400); a pair compares first
(R386). -/
def State.acceptCol (s : State) (fn r : Nat) : State :=
  let bid := s.cg.bid
  let ctx := bits (s.op r 5) 15 13
  let g := s.cg
  let (n, t) := (s.pairFlush s.cur.gid).acceptCmd 3 ctx (r + 7)
  let comm := (s.colOf fn r).comm
  let c : ColCmd := { s.colOf fn r with
    num := n, k := s.comms.get comm, core := g.core, priv := g.priv, marked := g.poisonPass.isSome, notBefore := if s.detx then s.bounds + 1 else 0 }
  { t with comms := t.comms.upd comm (· + 1) }.updB bid fun b =>
    { b with col := b.col.upd ctx fun x => { x with queue := x.queue ++ [c] } }

/-- A collective instruction; `i` is one that names the same registers. -/
def colInstr (i : Instr) (h : Hdr) (fn r : Nat) : State → State :=
  scalarInstr i h (colCheck fn r) (fun s => decide ((s.cb.col.get (bits (s.op r 5) 15 13)).queue.length < 16))
    (fun s => s.acceptCol fn r)

/-- COL.RED (R398-R401). -/
def execColRed (h : Hdr) (x : Nat) (s : State) : Host.Outcome State Fault Refusal :=
  perform s (colInstr (.colRed h x) h 32 (2 * x))
/-- COL.BCAST (R398, R399, R402). -/
def execColBcast (h : Hdr) (x : Nat) (s : State) : Host.Outcome State Fault Refusal :=
  perform s (colInstr (.colRed h x) h 33 (2 * x))
/-- COL.GATH (R398, R399, R402). -/
def execColGath (h : Hdr) (x : Nat) (s : State) : Host.Outcome State Fault Refusal :=
  perform s (colInstr (.colRed h x) h 34 (2 * x))

/-! ### The reduction (R401) -/

/-- Op on two FP32 words, or on two integers. -/
def colOp (op ty : Nat) (a b : Word) : Word :=
  if ty = 0 then
    match op with
    | 0 => a + b
    | 1 => if sgn a < sgn b then b else a
    | _ => if sgn b < sgn a then b else a
  else
    match op with
    | 0 => faddw a b
    | 1 => fmaxw a b
    | _ => fminw a b

/-- One level of the tree: neighbours combine, and a last one alone goes up as it is. -/
def combineLevel (f : Word → Word → Word) : List Word → List Word
  | a :: b :: r => f a b :: combineLevel f r
  | l => l
/-- The tree of R401 over the words of the ranks in ascending order. -/
def combineAll (f : Word → Word → Word) : Nat → List Word → Word
  | 0, l => l.headD 0#32
  | n + 1, l => if l.length ≤ 1 then l.headD 0#32 else combineAll f n (combineLevel f l)

/-- Narrow an FP32 word to BF16 under RNE, overflow giving the infinity of its sign. -/
def toBf16 (w : Word) : Nat :=
  match fv w with
  | .nan => bf16.nan
  | .inf neg => bf16.infCode neg
  | .fin neg m e =>
    if m = 0 then bf16.signBit neg
    else
      let r := bf16.round .rne neg m e
      if r.beyond then bf16.infCode neg else bf16.code r

/-- One element of COL.RED as bytes, from the element's bytes on each rank. -/
def colElem (op ty : Nat) (xs : List Nat) : List Byte :=
  let ws := xs.map fun x => if ty = 2 then w32 (x * 65536) else w32 x
  let r := combineAll (colOp op ty) 6 ws
  if ty = 2 then leBytes 2 (toBf16 r) else leBytes 4 r.toNat

/-! ### COLLECTIVE_COMPLETE (R400-R403) -/

/-- The place of one byte that a collective command reads or writes: it must be on a device page (R399).
DEDUCED, log entry 62. -/
def State.colPlace (s : State) (c : ColCmd) (ctxw : Nat) (write : Bool) (va : Nat) : Except Trap Place :=
  match (s.translate c.core c.priv (if write then .store else .load) va).1 with
  | .ok (.dev pa mir) => .ok (.dev pa mir)
  | .ok _ => .error (engTrap 0x09 ctxw va write)
  | .error e => .error (engTrap e ctxw va write)

/-- Whether this module's source is read (R402). -/
def ColCmd.reads (c : ColCmd) (rank : Nat) : Bool := decide (c.fn ≠ 33) || decide (c.root = rank)
/-- The bytes of a source. -/
def ColCmd.bytes (c : ColCmd) : Nat := c.n * colSize c.ty

/-- The places of this module's source, byte by byte. -/
def State.colSource (s : State) (c : ColCmd) (ctxw : Nat) : List (Except Trap Place) :=
  if c.reads s.rank then (List.range c.bytes).map fun k => s.colPlace c ctxw false ((c.src + k) % 2 ^ 64) else []

/-- One element of this module's source: the bytes of its places, read as one unit; none where one faults. -/
def State.colOwn (s : State) (rd : Reader) (c : ColCmd) (own : List (Except Trap Place)) (e : Nat) : List Byte :=
  let ps := ((own.drop (colSize c.ty * e)).take (colSize c.ty)).filterMap Except.toOption
  if ps.length = colSize c.ty then s.seeAll rd ps else []
/-- The bytes of each rank's source. A byte that never came is free: it can be left only where the command faults.
DESIGN CHOICE, log entry 64. -/
def State.colData (s : State) (rd : Reader) (c : ColCmd) (own : List (Except Trap Place)) (peers : List PeerPart) (r : Nat) :
    List Byte :=
  let free (k : Nat) : Byte := (Config.freeWord (s.free + 32 * k + r)).setWidth 8
  let z := colSize c.ty
  (List.range c.n).flatMap fun e =>
    if r = s.rank then
      let bs := s.colOwn rd c own e
      (List.range z).map fun i => bs.getD i (free (z * e + i))
    else match peers.find? fun p => decide (p.rank = r) with
      | some p => (List.range z).map fun i => p.data.getD (z * e + i) (free (z * e + i))
      | none => (List.range z).map fun i => free (z * e + i)

/-- What the command writes: the bytes of the destination. -/
def ColCmd.result (c : ColCmd) (data : Nat → List Byte) : List Byte :=
  let ranks := maskRanks c.mask
  let z := colSize c.ty
  match c.fn with
  | 32 => (List.range c.n).flatMap fun e => colElem c.op c.ty (ranks.map fun r => leNat (((data r).drop (z * e)).take z))
  | 33 => data c.root
  | _ => ranks.flatMap data

/-- A command leaves its context with the trap it records (R232). -/
def State.retireCol (s : State) (bid ctx : Nat) (c : ColCmd) (t : Option Trap) : State :=
  (s.updB bid fun b => { b with col := b.col.upd ctx fun x =>
    { x with queue := x.queue.filter fun y => decide (y.num ≠ c.num) } }).finish bid 3 ctx c.num t
/-- POISON, sub-code 4, and REMOTE_TIMEOUT of a collective command (R435). -/
def colPoison (ctx num : Nat) : Trap := { code := 0x0D, sub := 4, tval := w32 (ctxWord 3 ctx), taddr := num }
def colTimeout (ctx num : Nat) : Trap := { code := 0x13, tval := w32 (ctxWord 3 ctx), taddr := num }

/-- The other ranks of a command. DEDUCED, log entry 62. -/
def State.colOthers (s : State) (c : ColCmd) : List Nat := (maskRanks c.mask).filter fun r => decide (r ≠ s.rank)
/-- A needed rank cannot be reached any more (R397, R403). -/
def State.colLost (s : State) (c : ColCmd) : Bool := (s.colOthers c).any s.unreachable
/-- The parts of the commands that one is matched with: the k-th of its COMM on every module (R400). -/
def ColCmd.parts (c : ColCmd) (peers : List PeerPart) : List PeerPart := peers.filter fun p => decide (p.comm = c.comm ∧ p.k = c.k)
/-- The command of a part gives another kind, mask, n, TYPE, OP or ROOT (R400). DEDUCED, log entry 63. -/
def ColCmd.differs (c : ColCmd) (p : PeerPart) : Bool :=
  decide (p.fn ≠ c.fn ∨ p.mask ≠ c.mask ∨ p.n ≠ c.n ∨ p.ty ≠ c.ty ∨ p.op ≠ c.op ∨ p.root ≠ c.root)
/-- The data of a part may be applied: with DETX, the end markers of its tick are in, and the accesses of the tick and of
those before it have been applied (R405). -/
def State.partIn (s : State) (p : PeerPart) : Bool :=
  !s.detx || (s.markersIn p.tick && s.received.all fun f => decide (p.tick < f.2.1))
/-- Every other member has brought its part, over a route that does not wait.
DESIGN CHOICE, log entry 64; DEDUCED, log entry 91. -/
def State.colMatched (s : State) (c : ColCmd) (peers : List PeerPart) : Bool :=
  decide (c.notBefore ≤ s.bounds ∨ s.colOthers c = []) && (s.colOthers c).all fun r =>
    (peers.any fun p => decide (p.rank = r) && s.partIn p) && !s.routeWaits r

/-- The command performs its reads and writes and completes. A member that faults, or is lost, leaves each
destination byte old or new. DEDUCED, log entry 63; DESIGN CHOICE, log entry 64. -/
def State.colRun (s : State) (bid ctx : Nat) (c : ColCmd) (peers : List PeerPart) : State :=
  let ctxw := ctxWord 3 ctx
  let own := s.colSource c ctxw
  let e := s.engEvent bid 3 ctx c.num 7
  let rd := s.engReader bid 3 ctx c.num
  let out := c.result (s.colData rd c own peers)
  let dst := (List.range out.length).map fun k => s.colPlace c ctxw true ((c.dst + k) % 2 ^ 64)
  let faults := (own ++ dst).filterMap fun p => match p with
    | .error t => some t
    | .ok _ => none
  let po := own.any fun p => match p with
    | .ok p => s.placePo p 1
    | .error _ => false
  let lost := s.colLost c || peers.any (·.lost)
  let (fault, t) := { s with free := s.free + 32 * c.bytes }.pickFault
    (faults ++ (if po then [colPoison ctx c.num] else []))
  let fault := fault.or (if lost then some (colTimeout ctx c.num) else none)
  let moves := ((dst.zip out).zipIdx.filterMap fun (x, k) => match x.1 with
    | .ok p => some (({ dst := p, src := .val x.2 false } : Move), k / colSize c.ty)
    | .error _ => none).splitBy fun a b => decide (a.2 = b.2)
  ((t.runMoves (s.b bid).grid e rd true fault.isSome c.marked (moves.map fun l => l.map (·.1))).1.note e).retireCol bid ctx c fault

/-- COLLECTIVE_COMPLETE (R400-R403). DESIGN CHOICE, log entry 65. -/
def execCollectiveComplete (bid ctx num : Nat) (peers : List PeerPart) (s : State) : Host.Outcome State Fault Refusal :=
  event (match ((s.b bid).col.get ctx).queue.find? fun c => decide (c.num = num) with
    | some c =>
      let peers := c.parts peers
      if s.colLost c then s.colRun bid ctx c peers
      else if s.colMatched c peers then
        if peers.any c.differs then s.retireCol bid ctx c (some (colPoison ctx num)) else s.colRun bid ctx c peers
      else s
    | none => s)

end Sys2Proof.Machine
end

