-- ==== Sys2Proof/Machine/Launch.lean ====
section
/-! DEFINITION. Grids (12_launch.md R329-R357): LAUNCH and its refusals, admission, binding and entry state, TRIG,
JOINW, the furrow, host messages, the release of slots and the end of blocks and grids. -/

namespace Sys2Proof.Machine

open Sys2Proof

/-! ### The launch parameter block (R329-R331) -/

/-- A parameter block as it stands in memory. -/
def parseParams (bs : List Byte) : Params :=
  let f := field32 bs 0x0C
  let dims := field32 bs 0x4C
  { code := leNat (bs.take 8), entry := field32 bs 0x08, clust := bits f 23 19 + 1, prio := bits f 18 16, swz := bits f 15 12
    order := bits f 11 8, privileged := bit f 4, persist := bit f 3, det := bit f 2, paired := bit f 1, idem := bit f 0
    gridx := field32 bs 0x10, gridy := field32 bs 0x14, gridz := field32 bs 0x18, groups := field32 bs 0x1C
    scratch := field32 bs 0x20, vregs := field32 bs 0x24, stagger := field32 bs 0x28, percore := field32 bs 0x2C
    args := leNat ((bs.drop 0x30).take 8), deps := [field32 bs 0x38, field32 bs 0x3C, field32 bs 0x40, field32 bs 0x44]
    wqCount := field32 bs 0x48, wqx := dims % 65536, wqy := dims / 65536, detanchor := field32 bs 0x50 }

/-- How many blocks a grid has. -/
def Params.blocks (p : Params) : Nat := p.gridx * p.gridy * p.gridz
/-- Blocks of a deterministic grid on each core (R354). -/
def Params.perCore (p : Params) : Nat := p.percore / max 1 p.groups
/-- The scratchpad of a core, the group slots of a core, and what the control grid takes of them (R17, R329, R414). -/
def scratchBytes : Nat := 1572864
def coreSlots : Nat := 128
def ctlGroups : Nat := 4
def ctlScratch : Nat := 262144

/-- A header that R74 refuses. -/
def headerBad (bs : List Byte) : Bool :=
  let planes := (bs.getD 7 0#8).toNat
  let textlen := field32 bs 8
  let pshift := (bs.getD 6 0#8).toNat
  let n := leNat ((bs.drop 0x1C).take 2)
  let entry (k : Nat) : Nat := leNat ((bs.drop (0x300 + 8 * k)).take 8)
  decide (field32 bs 0 ≠ 0x014F4347 ∨ leNat ((bs.drop 4).take 2) ≠ 1 ∨ pshift < 16 ∨ 20 < pshift ∨ planes = 0 ∨ 4 < planes
    ∨ textlen % 2 ≠ 0 ∨ 2 ^ pshift < textlen ∨ 32 < n)
  || ((bs.drop 0x1E).take 226).any (· ≠ 0#8)
  || (chunkMap bs).any (fun c => decide ((textlen + 255) / 256 ≤ c.1) || decide (planes = 1))
  || (List.range 32).any fun k =>
    if k < n then decide (entry k % 2 ≠ 0 ∨ textlen ≤ entry k % 2 ^ 32 ∨ entry k / 2 ^ 40 ≠ 0) else decide (entry k ≠ 0)

/-- ENTRY names no entry, or VREGS is below the largest minimum among those it names (R329, R74). -/
def entryBad (bs : List Byte) (p : Params) : Bool :=
  let n := leNat ((bs.drop 0x1C).take 2)
  let es := ((List.range n).map fun k => leNat ((bs.drop (0x300 + 8 * k)).take 8)).filter fun e => decide (e % 2 ^ 32 = p.entry)
  es.isEmpty || es.any fun e => decide (p.vregs < e / 2 ^ 32 % 256)

/-- The group slots and scratchpad that a grid may count on a logical core (R331). -/
def capSlots (c : Nat) : Nat := if c = 0 then coreSlots - ctlGroups else coreSlots
def capScratch (c : Nat) : Nat := if c = 0 then scratchBytes - ctlScratch else scratchBytes
/-- How many shares of some groups and some scratchpad fit on a core. -/
def shares (c groups scratch : Nat) : Nat :=
  let a := capSlots c / max 1 groups
  if scratch = 0 then a else min a (capScratch c / scratch)
/-- The cores in service of a logical cluster (R13). -/
def State.clusterCores (s : State) (k : Nat) : List Nat := ((List.range 16).map (16 * k + ·)).filter s.inService
/-- The greatest number up to a bound that meets a condition. -/
def greatest (ok : Nat → Bool) : Nat → Nat
  | 0 => 0
  | n + 1 => if ok (n + 1) then n + 1 else greatest ok n

/-- How many units fit in a logical cluster at once: blocks, each on ⌈GROUPS/128⌉ cores, or launches and pairs of u blocks
on u distinct cores. DEDUCED, log entry 67. -/
def State.clusterHolds (s : State) (p : Params) (k u : Nat) : Nat :=
  let cs := s.clusterCores k
  if 1 < u then
    greatest (fun n => decide (n * u ≤ cs.foldl (fun a c => a + min n (shares c p.groups p.scratch)) 0)) 2048
  else
    let whole := p.groups / coreSlots
    let rest := p.groups % coreSlots
    let full := (cs.filter fun c => decide (1 ≤ shares c coreSlots p.scratch)).length
    let room (used : Nat) : Nat :=
      (cs.filter fun c => decide (shares c coreSlots p.scratch = 0)).foldl (fun a c => a + shares c rest p.scratch) 0
        + (full - used) * shares 1 rest p.scratch
    greatest (fun n => decide (n * whole ≤ full) && (decide (rest = 0) || decide (n ≤ room (n * whole)))) 2048

/-- The partners of the B blocks of each core of a cluster fit on its other cores, beside those cores' own blocks (R354, R386).
DEDUCED, log entry 130. -/
def Params.partnersFit (p : Params) (k : Nat) : Bool :=
  let extra (c : Nat) : Nat := shares c p.groups p.scratch - p.perCore
  let sum (cs : List Nat) : Nat := cs.foldl (fun a c => a + extra c) 0
  let cs := (List.range 16).map (16 * k + ·)
  decide (16 * p.perCore ≤ sum cs) && cs.all fun c => decide (p.perCore ≤ sum (cs.filter fun d => decide (d ≠ c)))
/-- A PERSIST grid can be resident at once (R331). DEDUCED, log entry 67. DEDUCED, log entry 130. -/
def State.canReside (s : State) (p : Params) : Bool :=
  if p.det then
    s.lcores = 48 * s.part.dies && (List.range s.ncores).all (fun c =>
      decide (p.percore ≤ capSlots c ∧ p.perCore * p.scratch ≤ capScratch c))
      && (!p.paired || (List.range (3 * s.part.dies)).all p.partnersFit)
  else
    let u := if p.paired then 2 else p.clust
    let units := if p.paired then p.blocks else p.blocks / max 1 p.clust
    decide (units ≤ (List.range (3 * s.part.dies)).foldl (fun a k => a + s.clusterHolds p k u) 0)

/-- Why LAUNCH refuses a block that could be read; `hdr` is the code object's header, if it could be read (R329-R331,
R334): the lowest reason. DEDUCED, log entry 66. -/
def State.refusal (s : State) (priv : Bool) (bs : List Byte) (p : Params) (hdr : Option (List Byte)) : Option Nat :=
  let f := field32 bs 0x0C
  let r1 := decide (p.code % 65536 ≠ 0) || (match hdr with
    | some h => headerBad h || entryBad h p
    | none => false)
  let r2 := decide (bits f 31 24 ≠ 0 ∨ bits f 7 5 ≠ 0 ∨ 4 ≤ p.order ∨ (2 ≤ p.order ∧ p.swz ≠ 0)) || (bs.drop 0x54).any (· ≠ 0#8)
  let dims (x : Nat) : Bool := decide (x = 0 ∨ 65535 < x)
  let r3 := dims p.gridx || dims p.gridy || dims p.gridz || decide (2 ^ 32 ≤ p.blocks ∨ p.groups = 0 ∨ 2048 < p.groups
      ∨ scratchBytes < p.scratch ∨ p.scratch % 128 ≠ 0 ∨ p.vregs < 8 ∨ 64 < p.vregs ∨ 65535 < p.stagger
      ∨ (if p.persist then 128 else 0) < p.percore ∨ 16 < p.clust)
    || (decide (field32 bs 0x4C ≠ 0) && decide (p.wqx = 0 ∨ p.wqy = 0 ∨ p.wqx * p.wqy < p.wqCount))
  let r6 := p.det && decide (¬ p.persist ∨ 1 < p.clust ∨ p.wqCount ≠ 0 ∨ 128 < p.groups ∨ p.percore = 0 ∨ 128 < p.percore
    ∨ p.percore % max 1 p.groups ≠ 0 ∨ p.blocks ≠ s.lcores * p.perCore)
  let r7 := decide (1 < p.clust ∧ (128 < p.groups ∨ p.blocks % p.clust ≠ 0)) || (p.paired && decide (128 < p.groups ∨ 1 < p.clust))
  firstOf [(r1, 1), (r2, 2), (r3, 3), (p.privileged && !priv, 4), (p.det && decide (s.lcores < 48 * s.part.dies), 5), (r6, 6),
    (r7, 7), (p.persist && !s.canReside p, 8), (p.deps.any (fun d => decide (d ≠ 0) && !(s.gr d).live), 9),
    (decide (4096 ≤ s.grids.length), 10), (decide (255 < p.detanchor), 11), (hdr.isNone, 12)]

/-- The 128 bytes of a parameter block, read for a group; none where R331 gives reason 12. -/
def State.paramBytes (s : State) (core : Nat) (priv : Bool) (va : Nat) : Option (List Byte) :=
  if va % 8 ≠ 0 then none
  else
    (List.range 128).foldr
      (fun k r => match (s.translate core priv .load (va + k)).1, r with
        | .ok p, some l => if s.placePo p 1 then none else some (s.placeByte p 0 :: l)
        | _, _ => none) (some [])

/-! ### Taking a grid (R332, R335) -/

/-- A handle that no record has: never 0, never with bit 31 set. DESIGN CHOICE, log entry 68. -/
def State.newHandle (s : State) : Nat :=
  (((List.range 4097).map fun k => (Config.pick s.free + k) % (2 ^ 31 - 1) + 1).find? fun h => !(s.gr h).live).getD 1

/-- The events of an earlier grid of a handle are no longer known by it. -/
def State.forget (s : State) (h : Nat) : State :=
  let its (t : List Nat) : Bool := decide (t = trigTag h ∨ t = endTag h ∨ t.take 2 = [1, h] ∨ (t.take 1 = [3] ∧ t.getD 5 0 = h))
  { s with log := s.log.map fun e => if its e.tag then { e with tag := [] } else e }
/-- Take a record for a grid and put it at the end of its launch queue. -/
def State.addGrid (s : State) (p : Params) (obj : CodeObj) : Nat × State :=
  let h := s.newHandle
  let t := (s.forget h).setGr h { live := true, p := p, obj := obj, queuedAt := s.cycle }
  (h, { t with free := s.free + 1, queues := s.queues.upd p.prio fun q => q ++ [h] })

/-- What LAUNCH finds: a refusal, or the grid to take. Of a block that cannot be read, only the reasons that do not depend
on it apply. DEDUCED, log entry 66. -/
def State.examine (s : State) (g : Group) (va : Nat) : Except Nat (Params × CodeObj) :=
  match s.paramBytes g.core g.priv va with
  | none => .error (if 4096 ≤ s.grids.length then 10 else 12)
  | some bs =>
    let p := parseParams bs
    let hdr := if p.code % 65536 ≠ 0 then none else (s.headerBytes g g.priv p.code).1
    match s.refusal g.priv bs p hdr with
    | some r => .error r
    | none => .ok (p, headerObj p.code (hdr.getD []))

/-! ### Early trigger (R339) -/

/-- Every group of every block of a grid is triggered. -/
def Grid.allTriggered (g : Grid) : Bool := !g.untriggered && decide (g.p.blocks * g.p.groups ≤ g.triggers)

/-- The first TRIG of a group marks it triggered; each is a release at DEVICE scope. -/
def State.trigger (s : State) (gid : Nat) : State :=
  let s := s.release s.issuers 6 (trigTag (s.gridOf (s.g gid)))
  if (s.g gid).triggered then s
  else (s.updGr (s.gridOf (s.g gid)) fun x => { x with triggers := x.triggers + 1 }).updG gid fun g => { g with triggered := true }

/-- TRIG (R339): a release, so a pair compares first. -/
def execTrig (h : Hdr) (s : State) : Host.Outcome State Fault Refusal :=
  perform s (scalarOnly (.trig h) h fun s => (s.pairFlush s.cur.gid).trigger s.cur.gid)

/-! ### States of grids (R333, R336, R337) -/

/-- A grid is terminal. -/
def Grid.terminal (g : Grid) : Bool := decide (g.state = .completed ∨ g.state = .faulted ∨ g.state = .killed)
/-- The number of a terminal state in the status word. -/
def GridState.num : GridState → Nat
  | .completed => 1
  | .faulted => 2
  | .killed => 3
  | _ => 0
/-- The completion status (R337). -/
def Grid.status (g : Grid) : Word :=
  w32 (g.detmix.toNat * 2 ^ 31 + g.pre.toNat * 2 ^ 30 + g.trap % 4096 * 65536 + g.sub % 256 * 256 + g.state.num)

/-- A named grid meets a dependence: it is Completed, or it is Running or terminal with the trigger condition. -/
def Grid.meets (g : Grid) : Bool :=
  decide (g.state = .completed) || (decide (g.state ≠ .queued ∧ g.state ≠ .waiting) && g.allTriggered)
/-- It can never meet it any more. -/
def Grid.doomed (g : Grid) : Bool := decide (g.state = .faulted ∨ g.state = .killed) && !g.meets

/-- What the completion of a grid synchronises by: the ends of its groups and the accesses of its engine commands (R333). -/
def State.doneEvents (s : State) (h : Nat) : List Nat :=
  s.tagged (endTag h) ++ (s.log.filter fun e => decide (e.tag.take 1 = [3] ∧ e.tag.getD 5 0 = h)).map (·.num)
/-- What a grid that meets a dependence synchronises by: its completion, or its triggers (R333, R339). -/
def State.metEvents (s : State) (h : Nat) : List Nat :=
  if (s.gr h).state = .completed then s.doneEvents h else s.tagged (trigTag h)

/-- A grid leaves the queues. -/
def State.dequeue (s : State) (h : Nat) : State :=
  { s with queues := (List.range 8).foldl (fun q k => q.upd k fun l => l.filter fun x => decide (x ≠ h)) s.queues }

/-- Grids that some terminal grids release or doom: a dependence that holds is settled, and a grid that can never be
admitted is Killed with trap code 0 (R336), which may doom further ones. DEDUCED, log entry 69. -/
def State.settleDeps : Nat → State → List Nat → State
  | 0, s, _ => s
  | n + 1, s, hs =>
    let good := hs.filter fun h => (s.gr h).meets
    let bad := hs.filter fun h => (s.gr h).doomed
    let kill := (s.grids.filter fun e => !e.2.admitted && !e.2.terminal && e.2.p.deps.any (fun d => decide (d ∈ bad))).map (·.1)
    let t := { s with grids := s.grids.map fun e =>
      if !e.2.admitted ∧ !e.2.terminal then
        (e.1, { e.2 with
          p := { e.2.p with deps := e.2.p.deps.map fun d => if d ∈ good then 0 else d }
          after := e.2.after ++ (e.2.p.deps.filter fun d => decide (d ∈ good)).flatMap s.metEvents
          state := if e.1 ∈ kill then .killed else e.2.state })
      else e }
    if kill = [] then t else State.settleDeps n (kill.foldl State.dequeue t) kill

/-- LAUNCH may issue: path 5 has room, and so has the launch queue of PRIO (R332). -/
def launchReady (x : Nat) (s : State) : Bool :=
  s.cg.room 5 1 && match s.examine s.cg (s.s2 x) with
    | .ok (p, _) => decide ((s.queues.get p.prio).length < 1024)
    | .error _ => true

/-- LAUNCH (R332): a release at DEVICE scope, so a pair compares first (R386). A dependence on a grid that has ended is
settled at once (R336). -/
def launchAct (x y : Nat) (s : State) : State :=
  let va := s.s2 x
  let s := s.pairFlush s.cur.gid
  let t := match s.examine s.cg va with
    | .ok (p, obj) =>
      let (h, t) := s.addGrid p obj
      let t := (t.updGr h fun g => { g with after := [t.log.length] }).release t.issuers 6 []
      (t.settleDeps (t.grids.length + 1) p.deps).setS y (w32 h)
    | .error r => s.setS y (w32 (2 ^ 31 + r))
  t.push { path := 5, regs := [(.s, y, 1#32)] }

/-- LAUNCH (R332). -/
def execLaunch (h : Hdr) (y x : Nat) (s : State) : Host.Outcome State Fault Refusal :=
  perform s (scalarInstr (.launch h y x) h (fun _ => none) (launchReady x) (launchAct x y))

/-- The exact-reducing lines whose owners have all completed become normal (R244). -/
def State.settleLines (s : State) : State :=
  (s.red.filter fun e => e.2.owners.all fun h => (s.gr h).terminal || !(s.gr h).live).foldl
    (fun t e => t.leaveRed e.1) s

/-- The bind records of a grid go. -/
def State.dropBinds (s : State) (h : Nat) : State :=
  { s with dies := s.dies.mapv fun d => { d with binds := d.binds.filter fun r => decide (r.grid ≠ h) } }
/-- A grid reaches a terminal state. -/
def State.endGrid (s : State) (h : Nat) (st : GridState) : State :=
  let t := ((s.updGr h fun g => { g with state := st }).dequeue h).dropBinds h
  let u := { t with blocks := t.blocks.filter fun b => decide (b.2.grid ≠ h) }
  (u.settleLines).settleDeps (u.grids.length + 1) [h]

/-- Every block of a grid has ended. -/
def Grid.allEnded (g : Grid) : Bool := decide (g.p.blocks ≤ g.ended.length)

/-- The blocks of a grid have nothing left to do: their groups and commands are gone. -/
def State.gridDone (s : State) (h : Nat) : Bool :=
  let g := s.gr h
  g.live && decide (g.state = .running) && g.allEnded &&
    (s.blocks.all fun b => decide (b.2.grid ≠ h) || (decide (b.2.state = .exited) && b.2.idle))

/-- The supervisor ends a grid (R333): its groups end, and no further block of it is bound, nor bound again.
DESIGN CHOICE, log entry 109. -/
def State.killGrid (s : State) (h : Nat) : State :=
  let mine := (s.groups.filter fun e => e.2.here && decide (s.gridOf e.2 = h)).map (·.1)
  let t := (s.dropBinds h).updGr h fun g =>
    { g with killing := true, flushed := []
             ended := SMap.tab g.p.blocks fun b => !(g.bound.get b) || decide (g.flushed.get b ≠ 0) || g.ended.get b }
  let t : State := { t with blocks := t.blocks.mapv fun b => if b.grid = h ∧ b.state = .flushing then { b with state := .bound } else b }
  (mine.foldl (fun t gid => t.endGroup gid false) t).dequeue h
/-- GRID_COMPLETE (R333): the supervisor ends the grid, or every block of it has ended. A grid whose dependence was lost is
Killed in the same event as the grid it named. DESIGN CHOICE, log entry 109. -/
def execGridComplete (e : GridEnd) (s : State) : Host.Outcome State Fault Refusal :=
  event (
    match e with
    | .kill h =>
      if ¬ (s.gr h).live ∨ (s.gr h).terminal ∨ (s.gr h).killing then s
      else if (s.gr h).state = .running then s.killGrid h
      else s.endGrid h .killed
    | .done h =>
      if s.gridDone h then
        s.endGrid h (if (s.gr h).killing then .killed else if (s.gr h).anyFault then .faulted else .completed)
      else s)

/-! ### JOINW (R338) -/

/-- Word k of the list at s[x], as the group reads it. -/
def State.joinWord (s : State) (x k : Nat) : Nat :=
  let p := (s.scratchPlace s.cg ((s.s x).toNat + 4 * k) 4).getD default
  leNat (s.groupBytes s.cur.gid p 4)
/-- The handles of a list. -/
def State.joinList (s : State) (x y : Nat) : List Nat := (List.range (s.s y).toNat).map fun j => s.joinWord x (2 * j)
/-- The operand checks. -/
def joinCheck (x y : Nat) (s : State) : Option Trap :=
  let n := (s.s y).toNat
  let a := (s.s x).toNat
  if n = 0 ∨ 64 < n ∨ a % 8 ≠ 0 then some s.illegal else s.spadOut a (8 * n)
/-- The status that JOINW reports for a handle. -/
def State.joinStatus (s : State) (h : Nat) : Word := if h ≠ 0 ∧ h < 2 ^ 31 ∧ (s.gr h).live then (s.gr h).status else 5#32

/-- JOINW completes: it acquires from the completion of the Completed and Faulted grids, the status words are written, and
the records are freed. DEDUCED, log entry 74. -/
def joinAct (x y : Nat) (s : State) : State :=
  let hs := s.joinList x y
  let done := hs.filter fun h => decide ((s.gr h).state = .completed ∨ (s.gr h).state = .faulted)
  let t := hs.zipIdx.foldl
    (fun t (h, j) =>
      t.groupStore t.cur.gid ((s.scratchPlace s.cg ((s.s x).toNat + 8 * j + 4) 4).getD default)
        (leBytes 4 (s.joinStatus h).toNat) false) (s.acquire s.issuers 6 (done.flatMap s.doneEvents))
  { t with grids := t.grids.filter fun e => !(decide (e.1 ∈ hs) && e.2.terminal && decide (e.1 < 2 ^ 31)) }.advance

/-- JOINW (R338). -/
def execJoinw (h : Hdr) (y x : Nat) (s : State) : Host.Outcome State Fault Refusal :=
  perform s (scalarCore (.joinw h y x) h (joinCheck x y) fun s0 s =>
    if (s.joinList x y).all fun k => !(s.gr k).live || (s.gr k).terminal then joinAct x y s
    else if s.cs.waitOn = some .joinw then s0.wait else s.waitFor .joinw)

/-! ### The furrow (R345) -/

/-- Coord(i). -/
def Params.coord (p : Params) (i : Nat) : Nat :=
  if p.wqx = 0 ∧ p.wqy = 0 then 0 else i / max 1 p.wqx % 65536 * 65536 + i % max 1 p.wqx
/-- The operand checks of WQ.NEXT. -/
def wqCheck (x : Nat) (s : State) : Option Trap :=
  if (s.paramsOf s.cg).det ∨ (s.s x).toNat % 8 ≠ 0 then some s.illegal else s.spadOut (s.s x).toNat 8
/-- Draw one item; the answer is on its way. DEDUCED, log entry 74. -/
def wqAct (x : Nat) (s : State) : State :=
  let g := s.gr s.cgrid
  let i := g.next
  let more := decide (i < g.p.wqCount)
  let ans := if more then i + g.p.coord i * 2 ^ 32 else 0xFFFFFFFF
  let t := if more then s.updGr s.cgrid fun g => { g with next := i + 1 } else s
  t.pushAnswer ((s.scratchPlace s.cg (s.s x).toNat 8).getD default) (leBytes 8 ans)
/-- WQ.NEXT (R345). -/
def execWqNext (h : Hdr) (x : Nat) (s : State) : Host.Outcome State Fault Refusal :=
  perform s (scalarInstr (.wqNext h x) h (wqCheck x) (State.roomFor 4) (wqAct x))

/-! ### Host messages (R347, R348) -/

/-- The operand checks of RECV and SEND. -/
def msgCheck (x y : Nat) (s : State) : Option Trap :=
  if 15 < (s.s y).toNat ∨ (s.s x).toNat % 4 ≠ 0 then some s.illegal else s.spadOut (s.s x).toNat 64
/-- The message buffer. -/
def State.msgPlace (s : State) (x : Nat) : Place := (s.scratchPlace s.cg (s.s x).toNat 64).getD default

/-- What the messages that an inlet queue has accepted, and the RECVs of them, are known by. -/
def inletTag (q : Nat) : List Nat := [8, q]
def recvTag (q : Nat) : List Nat := [9, q]
/-- The adapter accepts a message: a release at DEVICE scope, on the host's behalf (R409). -/
def State.accept (s : State) (q : Nat) (m : List Byte) : State :=
  { s with inlets := s.inlets.upd q fun l => l ++ [m] }.release hostAgent 6 (inletTag q)
/-- The oldest message leaves an inlet queue, and a write that the adapter holds takes its room (R409). -/
def State.popInlet (s : State) (q : Nat) : State :=
  let t := { s with inlets := s.inlets.upd q List.tail }
  match s.inletHeld.get q with
  | m :: r => { t with inletHeld := t.inletHeld.put q r }.accept q m
  | [] => t
/-- A RECV that returns a message synchronises with its acceptance (R409): the messages of a queue leave in order. -/
def State.fetched (s : State) (q : Nat) : State :=
  let k := (s.tagged (recvTag q)).length
  s.note { by_ := s.issuers, scope := 6, acq := true, from_ := ((s.tagged (inletTag q)).reverse.drop k).take 1, tag := recvTag q }

/-- RECV (R348). -/
def recvAct (x y : Nat) (s : State) : State :=
  let q := (s.s y).toNat
  let p := s.msgPlace x
  match s.inlets.get q with
  | m :: _ => ((s.popInlet q).fetched q).pushAnswer p m
  | [] => s.pushAnswer p (leBytes 4 0)
def execRecv (h : Hdr) (y x : Nat) (s : State) : Host.Outcome State Fault Refusal :=
  perform s (scalarInstr (.recv h y x) h (msgCheck x y) (State.roomFor 4) (recvAct x y))

/-- An outlet queue is full (R410): 256 messages that the host has not consumed. -/
def State.outletFull (s : State) (q : Nat) : Bool :=
  decide (256 ≤ ((s.outprod.get q + (s.outlets.get q).length + 2 ^ 32) - s.outcons.get q) % 2 ^ 32)

/-- SEND (R348): a release at HOST scope, so a pair compares first. DEDUCED, log entry 75. -/
def sendAct (x y : Nat) (s : State) : State :=
  let q := (s.s y).toNat
  let r := s.groupRead s.cur.gid s.liveS 4 false (s.msgPlace x) 64
  let t := (r.2.pairFlush s.cur.gid).release s.issuers 8 []
  { t with outlets := t.outlets.upd q fun l => l ++ [r.1] }.push { path := 2 }
def execSend (h : Hdr) (y x : Nat) (s : State) : Host.Outcome State Fault Refusal :=
  perform s (scalarCore (.send h y x) h (msgCheck x y) fun s0 s =>
    if s.outletFull (s.s y).toNat then (if s.cs.waitOn = some .outlet then s0.wait else s.waitFor .outlet)
    else if s.roomFor 2 then sendAct x y s.advance else s0.wait)

/-! ### Admission (R336, R347, R349) -/

/-- All dependences of a grid hold. -/
def State.depsHold (s : State) (g : Grid) : Bool := g.p.deps.all fun d => decide (d = 0) || (s.gr d).meets
/-- The firmware may take a grid: it stands at the head of its queue, or it has been taken and waits.
DEDUCED, log entry 69. -/
def State.mayAdmit (s : State) (h : Nat) : Bool :=
  let g := s.gr h
  g.live && !g.admitted && !g.terminal &&
    if (s.queues.get g.p.prio).contains h then decide ((s.queues.get g.p.prio).head? = some h)
    else s.depsHold g

/-- GRID_ADMIT (R333, R336): the firmware takes a grid; it is admitted when its dependences hold. -/
def execGridAdmit (h : Nat) (s : State) : Host.Outcome State Fault Refusal :=
  event (
    if s.mayAdmit h then
      let ok := s.depsHold (s.gr h)
      (s.dequeue h).updGr h fun g => { g with
        after := if ok then g.after ++ (g.p.deps.filter (· ≠ 0)).flatMap s.metEvents else g.after
        admitted := ok, state := if ok ∧ ¬ g.p.persist then g.state else .waiting }
    else s)

/-! ### Dispatch order (R351) -/

/-- The Hilbert key. -/
def hilbert (n : Nat) : Nat → Nat → Nat → Nat
  | 0, _, _ => 0
  | k + 1, x, y =>
    let s := 2 ^ k
    let rx := x / s % 2
    let ry := y / s % 2
    let (x', y') := if ry = 0 then (if rx = 1 then (n - 1 - y, n - 1 - x) else (y, x)) else (x, y)
    s * s * ((3 * rx) ^^^ ry) + hilbert n k x' y'
/-- The Morton key. -/
def morton (x y : Nat) : Nat := (List.range 16).foldl (fun a b => a + x / 2 ^ b % 2 * 4 ^ b + y / 2 ^ b % 2 * 2 * 4 ^ b) 0
/-- The place of a block in dispatch order, z first. -/
def Params.key (p : Params) (blk : Nat) : Nat :=
  let x := p.blockX blk
  let y := p.blockY blk
  let k := match p.order with
    | 0 =>
      let w := if p.swz = 0 then p.gridx else 2 ^ p.swz
      (x / max 1 w * p.gridy + y) * w + x % max 1 w
    | 1 =>
      let w := if p.swz = 0 then p.gridy else 2 ^ p.swz
      (y / max 1 w * p.gridx + x) * w + y % max 1 w
    | 2 => morton x y
    | _ =>
      let b := (List.range 17).find? fun b => decide (max p.gridx p.gridy ≤ 2 ^ b)
      hilbert (2 ^ b.getD 16) (b.getD 16) x y
  p.blockZ blk * 2 ^ 40 + k
/-- The cluster launch of a block, itself where there is none (R352), and its place in dispatch order: that of its block 0. -/
def Params.launchOf (p : Params) (blk : Nat) : Nat := blk / max 1 p.clust
def Params.launchKey (p : Params) (blk : Nat) : Nat := p.key (p.launchOf blk * max 1 p.clust)

/-! ### Binding (R24, R25, R27, R350-R355) -/

/-- Some block of the cluster launch of a block has been flushed and waits to be bound again (R384). -/
def Grid.launchFlushed (g : Grid) (blk : Nat) : Bool :=
  g.flushed.any fun e => decide (e.2 ≠ 0 ∧ g.p.launchOf e.1 = g.p.launchOf blk)
/-- The block's allocation is held: a cluster launch's until every block of it has exited (R184). DEDUCED, log entry 131. -/
def State.holdsScratch (s : State) (b : Block) : Bool :=
  b.live && decide (b.state ≠ .saved) &&
    (decide (b.state ≠ .exited) || b.cluster.any (fun q => (s.b q).live && decide ((s.b q).state ≠ .exited))
      || (s.gr b.grid).launchFlushed b.blk)
/-- The cores on which the blocks of a block's cluster launch stand that have exited. DEDUCED, log entry 131. -/
def State.exitedCores (s : State) (h blk : Nat) : List Nat :=
  let p := (s.gr h).p
  s.blocks.filterMap fun e =>
    if 1 < p.clust ∧ e.2.live ∧ e.2.grid = h ∧ e.2.state = .exited ∧ p.launchOf e.2.blk = p.launchOf blk then some (e.2.coreOf 0)
    else none
/-- The blocks of a unit lie with those of their cluster launches that have exited: in one logical cluster, on other cores
(R25, R352). DEDUCED, log entry 131. -/
def State.besideExited (s : State) (h : Nat) (unit : List (Nat × List Nat)) : Bool :=
  unit.all fun u => (s.exitedCores h u.1).all fun c => decide (c / 16 = u.2.headD 0 / 16) && decide (c ≠ u.2.headD 0)
/-- The cores a block stands on. -/
def Block.cores (b : Block) : List Nat := b.members ++ b.partner.toList
/-- The scratchpad bytes taken on a core. -/
def State.scratchUsed (s : State) (core : Nat) : Nat :=
  s.blocks.foldl (fun a e => if s.holdsScratch e.2 ∧ core ∈ e.2.cores then a + (s.gr e.2.grid).p.scratch else a) 0
/-- The group slots taken on a core. -/
def State.slotsUsed (s : State) (core : Nat) : List Nat :=
  (s.groups.filterMap fun e =>
      if e.2.live ∧ e.2.core = core ∧ (s.b e.2.bid).state ≠ .saved then some e.2.slot else none)
    ++ s.groups.filterMap fun e =>
      if e.2.live ∧ (s.b e.2.bid).partner = some core ∧ (s.b e.2.bid).state ≠ .saved then
        some ((s.b e.2.bid).slots.get e.2.index) else none
/-- The free slots of a core. -/
def State.slotsFree (s : State) (core : Nat) : List Nat :=
  (List.range coreSlots).filter fun k => decide (k ∉ s.slotsUsed core)
/-- Work may be placed on a core (R16, R389). -/
def State.usable (s : State) (core : Nat) : Bool := s.inService core && !(s.co core).drained
/-- Some groups and an allocation fit on a core now. -/
def State.fits (s : State) (core groups scratch : Nat) : Bool :=
  s.usable core && decide (groups ≤ (s.slotsFree core).length) && decide (s.scratchUsed core + scratch ≤ scratchBytes)

/-- The blocks that are bound together with a block (R350): the whole of a PERSIST grid, or its cluster launch. -/
def Params.unit (p : Params) (blk : Nat) : List Nat :=
  if p.persist then List.range p.blocks
  else (List.range (max 1 p.clust)).map fun m => blk / max 1 p.clust * max 1 p.clust + m
/-- How many cores one block takes. -/
def Params.coresPer (p : Params) : Nat := if p.paired then 2 else (p.groups + coreSlots - 1) / coreSlots
/-- The groups that member m of a block holds (R24). -/
def Params.groupsOn (p : Params) (m : Nat) : Nat := if p.paired then p.groups else min coreSlots (p.groups - coreSlots * m)

/-- The cores of each block of a unit lie as R24, R25, R352, R354 and R386 ask: the core that R354 names is one of the two of a
deterministic pair. DEDUCED, log entry 130. -/
def Params.coresOk (p : Params) (unit : List (Nat × List Nat)) : Bool :=
  (unit.all fun u => decide u.2.Nodup && u.2.all fun c => decide (c / 16 = u.2.headD 0 / 16)) &&
  (!p.paired || unit.all fun u => decide (u.2.headD 0 ≤ u.2.getD 1 0)) &&
  (!p.det || unit.all fun u => decide (u.1 / max 1 p.perCore ∈ u.2)) &&
  (decide (p.clust ≤ 1) || unit.all fun u =>
    let mates := unit.filter fun v => decide (v.1 / p.clust = u.1 / p.clust)
    mates.all (fun v => decide (v.2.headD 0 / 16 = u.2.headD 0 / 16)) && decide (mates.map (·.2.headD 0)).Nodup)

/-- The split table at the entry (R82, R109): one split with every lane in slot 0, and the reset values in the others. -/
def entrySplits (entry : Nat) : SMap Split :=
  (0, Split.at entry allLanes) :: [1, 2, 3].map fun k => (k, { offset := entry, sig := crcInit })

/-- The entry state of a group (R109, R121, R122, R147, R367). DESIGN CHOICE, log entry 1. -/
def entryGroup (p : Params) (h blk bid index core lcore slot persist : Nat) (triggered : Bool) : Group :=
  let seed (l : Nat) : Word :=
    let x := w32 ((blk * p.groups * 32 + index * 32 + l + 1) * 0x9E3779B9)
    if x = 0#32 then 1#32 else x
  let lf := SMap.tab 32 seed
  { live := true, bid := bid, index := index, core := core, slot := slot
    vr := SMap.tab 32 fun l => w32 (index * 32 + l)
    sr := SMap.tab 9 fun r => [loW p.args, hiW p.args, w32 (p.blockX blk), w32 (p.blockY blk), w32 (p.blockZ blk), w32 index,
      w32 lcore, w32 h, w32 persist].getD r 0#32
    lfsr := lf, splits := entrySplits p.entry, mmask := allLanes, ovf := 0x5400#32
    region := { entry := p.entry, rmask := allLanes, lfsr := lf, mmask := allLanes }
    priv := p.privileged, triggered := triggered, pairCrc := crcInit }

/-- The persistent index of a group of a block (R353, R354). -/
def Params.persistOf (p : Params) (blk index : Nat) : Nat :=
  if !p.persist then 0
  else if p.det then blk / max 1 p.perCore * p.percore + blk % max 1 p.perCore * p.groups + index
  else blk * p.groups + index

/-- Bind one group in a freely chosen slot of its core; its lanes acquire from the LAUNCH of the grid and from what its
dependences held by (R332, R338, R339). DESIGN CHOICE, log entry 72. -/
def State.bindGroup (s : State) (h blk bid : Nat) (cores : List Nat) (trig : Nat) (index : Nat) : State :=
  let p := (s.gr h).p
  let core := if p.paired then cores.headD 0 else cores.getD (index / coreSlots) 0
  let slot := (pickPositions s.free 1 (s.slotsFree core)).headD 0
  let mate := (pickPositions (s.free + 1) 1 (s.slotsFree (cores.getD 1 0))).headD 0
  let gid := s.nextGid
  let t := s.setG gid (entryGroup p h blk bid index core core slot (p.persistOf blk index) (bit trig index))
  let t := t.acquire (t.lanesAt gid allLanes) 6 (s.gr h).after
  { t with nextGid := gid + 1, free := s.free + 2 }.updB bid fun b =>
    { b with groups := b.groups ++ [gid], slots := if p.paired then b.slots.put index mate else b.slots }

/-- Bind one block of a unit, whose last batch binds at a cycle (R350). -/
def State.bindBlock (s : State) (h : Nat) (u : Nat × List Nat) (at_ : Nat) : State :=
  let g := s.gr h
  let bid := s.nextBid
  let flushed := g.flushed.get u.1
  let t := { s with nextBid := bid + 1 }.setB bid
    { live := true, grid := h, blk := u.1, members := if g.p.paired then u.2.take 1 else u.2
      partner := if g.p.paired then u.2[1]? else none, startAt := at_, groupsLeft := g.p.groups }
  let t := t.updGr h fun g =>
    { g with
      state := .running, bound := g.bound.put u.1 true, flushed := g.flushed.erase u.1 }
  (List.range g.p.groups).foldl (fun t i => t.bindGroup h u.1 bid u.2 (flushed / 2) i) t

/-- A unit fits on its cores now, block after block. -/
def State.unitFits (s : State) (p : Params) (unit : List (Nat × List Nat)) : Bool :=
  let need := unit.flatMap fun u => u.2.zipIdx.map fun (c, m) => (c, p.groupsOn m)
  (distinctAsc (need.map (·.1))).all fun c =>
    let mine := need.filter fun n => decide (n.1 = c)
    s.fits c (mine.foldl (fun a n => a + n.2) 0) (mine.length * p.scratch)

/-- The blocks handed back or flushed (R350, R384) of whose units no bind record waits. DEDUCED, log entry 132. -/
def Grid.heldBack (g : Grid) (waiting : List Nat) : List Nat :=
  (g.flushed.filter fun e => decide (e.2 ≠ 0) && !(waiting.any fun w => decide (g.p.launchOf w = g.p.launchOf e.1))).map (·.1)
/-- A unit is next in dispatch order on each of its dies (R351); those handed back or flushed come first (R384), the first of
them in dispatch order before the others, unless its own core lies on another die (R354).
DEDUCED, log entry 132. -/
def Grid.inOrder (g : Grid) (waiting : List Nat) (unit : List (Nat × List Nat)) : Bool :=
  match unit with
  | [] => false
  | (b, cs) :: _ =>
    let back := g.heldBack waiting
    let die (x : Nat) : Nat := dieOf (x / max 1 g.p.perCore)
    if g.flushed.get b ≠ 0 then
      back.all fun f => decide (g.p.launchKey b ≤ g.p.launchKey f) || (g.p.det && decide (die f ≠ die b))
    else back.isEmpty && cs.all fun c => decide (g.lastKey.get (dieOf c) ≤ g.p.key b)

/-- The unit of a bind record: the blocks that are bound with block blk, each with its cores; of a unit that was handed back or
flushed, only the blocks to be bound again. -/
def Grid.unitOf (g : Grid) (blk : Nat) (cores : List Nat) : List (Nat × List Nat) :=
  let bs := if g.flushed.get blk = 0 then g.p.unit blk
    else ({ g.p with persist := false }.unit blk).filter fun b => decide (g.flushed.get b ≠ 0)
  bs.zipIdx.map fun (b, k) => (b, (cores.drop (k * g.p.coresPer)).take g.p.coresPer)
/-- The blocks of a grid that head the bind records which wait. -/
def State.recordsOf (s : State) (h : Nat) : List Nat :=
  (s.dies.flatMap fun d => d.2.binds.filter fun r => decide (r.grid = h)).map (·.blk)
/-- The firmware may write a bind record for the unit of block blk, with the cores of its blocks one after another: it is the
next of its grid, and no core is drained (R349-R355, R389). -/
def State.mayBind (s : State) (h blk : Nat) (cores : List Nat) : Option (List (Nat × List Nat)) :=
  let g := s.gr h
  let p := g.p
  let unit := g.unitOf blk cores
  if g.live ∧ g.admitted ∧ ¬ g.terminal ∧ ¬ g.killing ∧ (unit.map (·.1)).head? = some blk ∧ cores.length = unit.length * p.coresPer
      ∧ unit.all (fun u => decide (u.1 < p.blocks) && (!g.bound.get u.1 || decide (g.flushed.get u.1 ≠ 0))) ∧ p.coresOk unit
      ∧ s.besideExited h unit ∧ g.inOrder (s.recordsOf h) unit ∧ blk ∉ s.recordsOf h ∧ cores.all s.usable ∧ (s.ctlGrid ≠ some h ∨ cores = [0]) then some unit
  else none

/-- The blocks of a unit that are bound on a die. -/
def onDie (unit : List (Nat × List Nat)) (die : Nat) : List (Nat × List Nat) := unit.filter fun u => decide (dieOf (u.2.headD 0) = die)
/-- The groups of each batch of n blocks (R350): as many blocks of at most 64 groups as fit in one, or the consecutive batches
of each larger block. -/
def Params.batches (p : Params) (n : Nat) : List Nat :=
  if p.groups ≤ 64 then
    let q := 64 / max 1 p.groups
    (List.range ((n + q - 1) / q)).map fun j => min q (n - q * j) * p.groups
  else (List.range n).flatMap fun _ => (List.range ((p.groups + 63) / 64)).map fun j => min 64 (p.groups - 64 * j)
/-- The last batch of the block that comes after n others. -/
def Params.lastBatch (p : Params) (n : Nat) : Nat :=
  if p.groups ≤ 64 then n / (64 / max 1 p.groups) else (n + 1) * ((p.groups + 63) / 64) - 1
/-- Die dispatch has room for some groups in this cycle: it binds at most 64 per 16 cycles (R350). -/
def State.batchFree (s : State) (die n : Nat) : Bool :=
  let l := (s.di die).bindLog.filter fun x => decide (s.cycle < x.1 + 16)
  l.isEmpty || decide (l.foldl (fun a x => a + x.2) n ≤ 64)
/-- Some batches begin on a die, 16 cycles apart. -/
def State.logBatches (s : State) (die : Nat) (ns : List Nat) : State :=
  s.updDi die fun d =>
    { d with bindLog := (d.bindLog.filter fun x => decide (s.cycle < x.1 + 16)) ++ ns.zipIdx.map fun x => (s.cycle + 16 * x.2, x.1) }
/-- The slots and the scratchpad of a unit are free, and so are its batches (R350). -/
def State.mayCarry (s : State) (h : Nat) (unit : List (Nat × List Nat)) : Bool :=
  let p := (s.gr h).p
  s.unitFits p unit && (distinctAsc (unit.map fun u => dieOf (u.2.headD 0))).all fun d => s.batchFree d ((onDie unit d).length * p.groups)

/-- The blocks of a cluster launch, in member order: those that have exited among them. -/
def State.launchBids (s : State) (h launch : Nat) : List Nat :=
  let n := max 1 (s.gr h).p.clust
  (List.range n).filterMap fun m =>
    (s.blocks.find? fun e => e.2.live && decide (e.2.grid = h ∧ e.2.blk = launch * n + m)).map (·.1)
/-- The blocks of a cluster launch know one another (R352). -/
def State.joinCluster (s : State) (h : Nat) (blks : List Nat) : State :=
  let p := (s.gr h).p
  if p.clust ≤ 1 then s
  else blks.foldl
    (fun t b =>
      let mates := t.launchBids h (p.launchOf b)
      mates.foldl (fun t q => t.updB q fun x => { x with cluster := mates }) t) s

/-- Die dispatch carries out a bind record: the blocks of the unit are bound in one step; on each die their batches follow one
another in dispatch order (R350, R351). DEDUCED, log entry 73. -/
def State.carry (s : State) (h : Nat) (unit : List (Nat × List Nat)) : State :=
  let p := (s.gr h).p
  let rank (u : Nat × List Nat) : Nat :=
    ((onDie unit (dieOf (u.2.headD 0))).filter fun v => decide (p.key v.1 < p.key u.1)).length
  let dies := distinctAsc (unit.map fun u => dieOf (u.2.headD 0))
  let t := dies.foldl (fun t d => t.logBatches d (p.batches (onDie unit d).length)) s
  (unit.foldl (fun t u => t.bindBlock h u (s.cycle + 16 * p.lastBatch (rank u))) t).joinCluster h (unit.map (·.1))

/-- The dispatch key of a unit counts as reached on its dies: that of its first block, where it is a cluster launch (R351). -/
def Grid.reach (g : Grid) (unit : List (Nat × List Nat)) : Grid :=
  let keyed := if 1 < g.p.clust then unit.filter fun u => decide (u.1 % g.p.clust = 0) else unit
  let put (m : SMap Nat) (u : Nat × List Nat) : SMap Nat :=
    u.2.foldl (fun m c => m.put (dieOf c) (max (m.get (dieOf c)) (g.p.key u.1 + 1))) m
  { g with lastKey := keyed.foldl put g.lastKey }

/-- BLOCK_BIND (R350): the firmware writes a bind record, which waits behind those of its die; or the oldest record of a die
is carried out, its slots and its scratchpad being free. The blocks of a PERSIST grid are bound together, when all of them
can be (R353). DEDUCED, log entry 73. -/
def execBlockBind (h blk : Nat) (cores : List Nat) (s : State) : Host.Outcome State Fault Refusal :=
  event (
    let die := dieOf (cores.headD 0)
    let r : BindRec := ⟨h, blk, cores⟩
    if (s.di die).binds.head? = some r then
      let unit := (s.gr h).unitOf blk cores
      if s.mayCarry h unit then (s.updDi die fun d => { d with binds := d.binds.tail }).carry h unit else s
    else match s.mayBind h blk cores with
      | none => s
      | some unit =>
        let t := s.updGr h fun g => g.reach unit
        if (s.di die).binds = [] ∧ s.mayCarry h unit then t.carry h unit
        else if (s.gr h).p.persist ∧ 1 < unit.length then s
        else t.updDi die fun d => { d with binds := d.binds ++ [r] })

/-- The bind records for a core are withdrawn: the firmware places their blocks again, before the others (R350, R389). -/
def State.withdrawBinds (s : State) (core : Nat) : State :=
  let rs := (s.di (dieOf core)).binds.filter fun r => decide (core ∈ r.cores)
  rs.foldl (fun t r => t.updGr r.grid fun g =>
      let p : Params := { g.p with persist := false }
      { g with flushed := (p.unit r.blk).foldl (fun m b => if m.get b = 0 ∧ ¬ g.bound.get b then m.put b 1 else m) g.flushed })
    (s.updDi (dieOf core) fun d => { d with binds := d.binds.filter fun r => decide (core ∉ r.cores) })

/-! ### The end of groups and blocks (R102, R184, R203, R263, R337) -/

/-- The first recorded trap of a block that no wait has covered: by KIND, INDEX and number (R337).
DEDUCED, log entry 49. -/
def Block.uncovered (b : Block) : Option Trap :=
  let all := (List.range 4).flatMap fun k => (List.range (ctxCount k)).flatMap fun i =>
    (insertTraps (b.ctx k i).uncovered).map (·.2)
  all.head?
where
  /-- In order of number. -/
  insertTraps (l : List (Nat × Trap)) : List (Nat × Trap) :=
    l.foldl (fun acc x => acc.takeWhile (fun y => decide (y.1 < x.1)) ++ x :: acc.dropWhile fun y => decide (y.1 < x.1)) []

/-- Armed follow-ons are discarded: their numbers complete without effect (R263). -/
def State.discardArmed (s : State) (bid : Nat) : State :=
  (List.range 32).foldl
    (fun t k => match ((t.b bid).copy.get k).armed with
      | some m => (t.discardMma m).updCopy bid k fun x => { x with armed := none }
      | none => t) s

/-- The tag entries of a block on its cores become free (R203). -/
def State.freeTags (s : State) (bid : Nat) : State :=
  (s.b bid).members.foldl
    (fun t c => t.updCo c fun k => { k with tags := k.tags.filter fun e => decide (e.2.owner ≠ bid) }) s

/-- The scratchpads of a block, or of its cluster launch once all of it has exited, are released (R184). -/
def State.freeScratch (s : State) (bid : Nat) : State :=
  let b := s.b bid
  let clear (t : State) (q : Nat) : State := t.updB q fun x => { x with scratch := [], scratchPo := [] }
  if b.cluster = [] then clear s bid
  else if b.cluster.all fun q => decide ((s.b q).state = .exited) then b.cluster.foldl clear s
  else s

/-- A block exits: its last group has ended and its commands are complete. -/
def State.blockExit (s : State) (bid : Nat) : State :=
  let t := s.discardArmed bid
  let b := t.b bid
  let t := match b.uncovered with
    | some tr => t.fatalEvent b.grid (dieOf (b.members.headD 0)) tr
    | none => t
  let t := t.freeTags bid
  let t := t.updB bid fun b => { b with state := .exited, groups := [] }
  let t := t.updGr b.grid fun g =>
    { g with
      ended := g.ended.put b.blk true
      lives := g.lives + 1, lifeSum := g.lifeSum + (s.cycle - b.firstIssue.getD s.cycle) }
  t.freeScratch bid

/-- A group's slot may be released: it has ended, its accesses and its engine commands have completed, and, for the last of
its block, so have the block's commands; a follow-on that is still armed is none of them (R102, R263). -/
def State.mayRelease (s : State) (gid : Nat) : Bool :=
  let g := s.g gid
  let b := (s.discardArmed g.bid).b g.bid
  g.live && decide (g.stop = .ended) && g.drained && g.cmds.all (fun c => decide (c.2.2 ∉ (b.ctx c.1 c.2.1).open_)) &&
    (decide (1 < (s.b g.bid).groupsLeft) || b.idle)

/-- GROUP_SLOT_RELEASE (R102, R184). -/
def execGroupSlotRelease (gid : Nat) (s : State) : Host.Outcome State Fault Refusal :=
  event (
    if s.mayRelease gid then
      let g := s.g gid
      let t := { s with groups := s.groups.erase gid }.updB g.bid fun b =>
        { b with groupsLeft := b.groupsLeft - 1, groups := b.groups.filter fun x => decide (x ≠ gid) }
      if (t.b g.bid).groupsLeft = 0 then t.blockExit g.bid else t
    else s)

end Sys2Proof.Machine
end

