-- ==== Sys2Proof/Machine/System.lean ====
section
/-! DEFINITION. Traps and regions (13_traps.md R358-R380, R382, R392): TRAP, BRK, TRET, REGION, SIGCHK, TQ.POP, the
resolution of records, errors, the watchdog and the security alarm. Taking a trap itself is in `Ops`. -/

namespace Sys2Proof.Machine

open Sys2Proof

/-! ### TRAP and BRK (R365) -/

/-- TRAP. -/
def execTrap (h : Hdr) (c : Nat) (s : State) : Host.Outcome State Fault Refusal :=
  perform s (scalarCore (.trap h c) h (fun s => some (s.mkTrap 0x0F 0 (w32 c))) fun s0 _ => s0)
/-- BRK. -/
def execBrk (h : Hdr) (s : State) : Host.Outcome State Fault Refusal :=
  perform s (scalarCore (.brk h) h (fun s => some (s.mkTrap 0x0F 1 0#32)) fun s0 _ => s0)

/-! ### Handler entry and return (R363, R364, R366) -/

/-- A block holds the slots of its groups: it is not saved, nor stopped to be flushed (R384). -/
def Block.resident (b : Block) : Bool := decide (b.state ≠ .saved ∧ b.state ≠ .flushing)
/-- HANDLER_ENTRY (R363): the stopped group's accesses have completed. A saved group enters once it has been restored.
DEDUCED, log entry 76. -/
def execHandlerEntry (gid : Nat) (s : State) : Host.Outcome State Fault Refusal :=
  event (match (s.g gid).stop with
    | .enter t => if (s.g gid).drained ∧ (s.b (s.g gid).bid).resident then s.enterHandler gid t else s
    | _ => s)

/-- A frame as TRET reads it (R364). -/
structure Frame where
  bytes : List Byte := []
  /-- The sectors of the frame that carry poison. -/
  po : List Nat := []
  deriving DecidableEq, Repr, Inhabited

/-- A word of the frame. -/
def Frame.w (f : Frame) (o : Nat) : Nat := field32 f.bytes o
/-- The sector at an offset is poisoned. -/
def Frame.bad (f : Frame) (o : Nat) : Bool := decide (o / 32 ∈ f.po)
/-- TSTAT, and its ACTION. -/
def Frame.tstat (f : Frame) : Nat := f.w 0
def Frame.action (f : Frame) : Nat := bits f.tstat 5 4
/-- Reserved bits of TSTAT are set, or ACTION is 3. -/
def Frame.misuse (f : Frame) : Bool :=
  decide (bits f.tstat 31 28 ≠ 0) || bit f.tstat 6 || decide (bits f.tstat 3 0 ≠ 0) || decide (f.action = 3)
/-- A poisoned sector holds split-table or lane control state (R378). DEDUCED, log entry 78. -/
def Frame.poisoned (f : Frame) : Bool := f.po.any fun k => decide (k < 8)

/-- Split slot k of the frame, without the lanes that have exited or died. A slot whose waiting split stands where the
handler's entry left it goes on with that wait. DEDUCED, log entry 82. -/
def Frame.split (f : Frame) (g : Group) (k : Nat) : Split :=
  let o := 0x20 + 16 * k
  let x := f.w o
  if bit x 20 then
    let old := g.waits.get k
    { valid := true, offset := x % 2 ^ 20, mask := w32 (f.w (o + 4)) &&& g.alive, age := bits x 29 24, stall := bits x 23 22
      sig := crcInit, joinw := bit x 21
      waitOn := if old.valid ∧ old.offset = x % 2 ^ 20 then old.waitOn else none }
  else if (g.waits.get k).valid then {}
  else g.waits.get k

/-- The group with the frame's state restored (R366); EXITED, DEAD, REC and the overflow table are its own.
DEDUCED, log entry 46; DEDUCED, log entry 78. -/
def Frame.restore (f : Frame) (g : Group) (always : Bool) : Group :=
  let planes := leNat ((f.bytes.drop 0x60).take 8)
  let splits := (List.range 4).foldl (fun (m : SMap Split) k => m.put k (f.split g k)) []
  let g := { g with
    splits := splits, waits := [], plane := SMap.tab 32 fun l => planes / 4 ^ l % 4
    held := w32 (f.w 0x68) &&& g.alive, holdoff := SMap.tab 32 fun l => f.w (0x80 + 4 * l) % 2 ^ 20
    mmask := w32 (f.w 0x18), mmaskNext := none, xstat := w32 (f.w 0x1C) &&& 0x1F#32, clockHi := w32 (f.w 0x74)
    priv := always || bit f.tstat 7, handler := false, hobj := {} }
  let g := (List.range 16).foldl (fun g k => g.setS (48 + k) (w32 (f.w (0x100 + 4 * k))) (f.bad (0x100 + 4 * k))) g
  (List.range 32).foldl (fun g l => g.setV 63 l (w32 (f.w (0x140 + 4 * l))) (f.bad (0x140 + 4 * l))) g

/-- The restored split state is inconsistent (R366). -/
def Group.inconsistent (g : Group) : Bool :=
  let live := g.liveSlots
  let mask (k : Nat) : LaneMask := (g.splits.get k).mask
  live.any (fun k => decide (mask k = 0#32) || decide ((g.splits.get k).offset % 2 = 1) || decide (mask k &&& g.held ≠ 0#32)
    || live.any fun j => decide (j ≠ k) && decide (mask j &&& mask k ≠ 0#32))
  || decide (live.foldl (fun m k => m ||| mask k) g.held ≠ g.alive)

/-- The frame of a group: the bytes where its entry wrote them, with the handler's own stores, or the code of a translation
fault. -/
def State.readFrame (s : State) (gid : Nat) : Except (Nat × Nat) Frame × State :=
  let g := s.g gid
  match s.translate g.core g.priv .load g.frameVa with
  | (.ok p, t) =>
    (.ok { bytes := t.groupBytes gid p 512, po := (List.range 16).filter fun k => t.groupPo gid (p.plus (32 * k)) 32 }, t)
  | (.error c, t) => (.error (c, g.frameVa), t)

/-- Live(S) holds every lane that is neither exited nor dead, and nothing is in flight. -/
def State.tretReady (s : State) : Bool := decide (s.cg.alive &&& ~~~ s.liveS = 0#32) && s.cg.drained

/-- ACTION 1: the slot that TPC names goes past the faulting instruction. -/
def State.skipFaulting (s : State) (tpc : Nat) : State :=
  match s.codeLength s.cg (bits tpc 23 22) (tpc % 2 ^ 20) with
  | (.ok n, t) => t.updCG fun g => { g with splits := g.splits.upd (bits tpc 21 20) fun x =>
      if x.valid then { x with offset := (tpc + n) % 2 ^ 20, waitOn := none } else x }
  | (.error e, t) => t.trapCur { e with tpc := tpc % 2 ^ 24 }

/-- TRET's effect. DEDUCED, log entry 79. -/
def tretAct (s : State) : State :=
  match s.readFrame s.cur.gid with
  | (.error (c, va), t) => t.trapCur (t.mkTrap c 0 (w32 Acc.load.num) va)
  | (.ok f, t) =>
    if f.poisoned then t.trapCur (t.mkTrap 0x0D 2 0#32)
    else if f.misuse then t.trapCur (t.mkTrap 0x10 1 (w32 f.tstat))
    else
      let g := f.restore t.cg (t.paramsOf t.cg).privileged
      if g.inconsistent then t.trapCur (t.mkTrap 0x10 2 (w32 f.tstat))
      else
        let u := t.setG t.cur.gid g
        if f.action = 1 then u.skipFaulting (f.w 0x10)
        else if f.action = 2 then u.restart u.cur.gid else u

/-- TRET (R366). -/
def execTret (h : Hdr) (s : State) : Host.Outcome State Fault Refusal :=
  perform s (scalarCore (.tret h) h (fun s => if s.cg.handler then none else some (s.mkTrap 0x10 0 0#32)) fun s0 s =>
    if s.tretReady then tretAct s else s0.wait)

/-! ### Regions and signatures (R367-R372) -/

/-- REGION may issue. -/
def State.regionReady (s : State) : Bool := s.tretReady && decide (s.cg.held = 0#32)

/-- A new region record (R367). -/
def State.openRegion (s : State) : State :=
  s.updCG fun g =>
    { g with
      region := { entry := s.cur.here + 4, rmask := s.liveS, plane := g.plane, lfsr := g.lfsr, mmask := g.mmask }
      recno := g.recno + 1, pairTry := 0 }

/-- REGION (R367). A pair compares first (R386), and a poison pass ends (R372). -/
def execRegion (h : Hdr) (s : State) : Host.Outcome State Fault Refusal :=
  perform s fun s =>
    let t := scalarCore (.region h) h (fun _ => none)
      (fun s0 s =>
        if s.cg.poisonPass.isSome then s.endPoisonPass s.cur.gid
        else if s.regionReady then (s.pairFlush s.cur.gid).openRegion.advance else s0.wait) s
    if t.cur.issued && t.goesOn then t.resetSig else t

/-- REGION_RESTART (R368): the accesses have completed. A saved group restarts when its block is restored (R376). -/
def execRegionRestart (gid : Nat) (s : State) : Host.Outcome State Fault Refusal :=
  event (
    if (s.g gid).stop = .restart ∧ (s.g gid).drained ∧ (s.b (s.g gid).bid).state ≠ .saved then s.updG gid Group.restartRegion
    else s)

/-- A signature mismatch (R372): a report and a restart, and the second time in a region the poison pass. -/
def State.sigMismatch (s : State) (lit : Nat) : State :=
  let g := s.cg
  let t : Trap := { s.mkTrap 0x0C 0 (crcFinish s.cs.sig) lit with }
  let die := dieOf g.core
  if g.region.sigtry = 0 then
    let u := if g.handler then s else s.updDi die fun d => { d with corr := min (d.corr + 1) 65535 }
    (u.updCG fun g => { g with region := { g.region with sigtry := 1 } }).trapCur t
  else if g.handler then (s.updDi die fun d => { d with uncorr := min (d.uncorr + 1) 65535 }).trapCur { t with sub := 1 }
  else
    let u := { s with cur := { s.cur with trapped := true } }
    (u.updCG fun g => { g with poisonPass := some (0, { t with sub := 1 }) }).restart s.cur.gid

/-- SIGCHK (R371): SIG as it stands before SIGCHK's own term. In a pair, the comparison of the members takes its place
(R372, R386). -/
def execSigchk (h : Hdr) (lit : Nat) (s : State) : Host.Outcome State Fault Refusal :=
  perform s (scalarCore (.sigchk h lit) h (fun _ => none) fun _ s =>
    if s.cg.poisonPass.isSome then s.endPoisonPass s.cur.gid
    else if s.paired s.cur.gid then (s.pairFlush s.cur.gid).advance
    else if crcFinish s.cs.sig = w32 lit then s.advance
    else s.sigMismatch lit)

/-! ### The trap queue (R373-R376) -/

/-- A record as TQ.POP copies it (R373). -/
def QRec.bytes (r : QRec) : List Byte :=
  leBytes 4 (2 ^ 31 + r.fatal.toNat * 2 ^ 30 + r.replay.toNat * 2 ^ 29 + r.report.toNat * 2 ^ 28 + r.t.code % 4096 * 65536
      + r.t.sub % 256 * 256 + r.nest.toNat * 128)
    ++ leBytes 4 r.token ++ leBytes 4 r.grid ++ leBytes 4 r.blk ++ leBytes 4 (r.core % 256 * 65536 + r.index % 65536)
    ++ leBytes 4 (r.partner % 256 * 256 + r.phys % 256) ++ leBytes 4 r.t.tpc ++ leBytes 4 r.t.tval.toNat ++ leBytes 8 r.t.taddr
    ++ leBytes 4 r.recno.toNat ++ leBytes 4 r.dead.toNat ++ leBytes 8 r.cycle ++ List.replicate 8 0#8

/-- The operand checks of TQ.POP (R375). -/
def tqPopCheck (x y : Nat) (s : State) : Option Trap :=
  if (s.s x).toNat % 4 ≠ 0 then some s.illegal
  else if s.part.dies ≤ (s.s y).toNat then some s.unitAbsent
  else s.spadOut (s.s x).toNat 64
/-- The oldest record goes to the scratchpad, and its slot is free. It lands with the answer on path 4. -/
def tqPopAct (x y : Nat) (s : State) : State :=
  let die := (s.s y).toNat
  let p := s.msgPlace x
  match (s.di die).queue with
  | r :: rest => (s.updDi die fun d => { d with queue := rest }).pushAnswer p r.bytes
  | [] => s.pushAnswer p (leBytes 4 0)
/-- TQ.POP (R375). -/
def execTqPop (h : Hdr) (y x : Nat) (s : State) : Host.Outcome State Fault Refusal :=
  perform s (scalarInstr (.tqPop h y x) h (tqPopCheck x y) (State.roomFor 4) (tqPopAct x y))

/-- DEFERRED_RECORD_ENQUEUE (R374). -/
def execDeferredRecordEnqueue (die : Nat) (s : State) : Host.Outcome State Fault Refusal := event (s.enqueueWaiting die)

/-- The group that a token names. -/
def State.tokenGroup (s : State) (token : Nat) : Option (Nat × Trap) :=
  s.groups.findSome? fun e => match e.2.stop with
    | .replay t k _ => if e.2.live ∧ k = token ∧ token ≠ 0 then some (e.1, t) else none
    | _ => none

/-- A write of 1 (resume) or 2 (kill) to TQRACT (R376); another token sets BADTOK on the writer's die.
DEDUCED, log entry 81. -/
def State.tqract (s : State) (kill : Bool) : State :=
  match s.tokenGroup s.tqrtok.toNat with
  | none => s.updDi (dieOf s.cg.core) fun d => { d with badtok := true }
  | some (gid, t) =>
    let g := s.g gid
    let s := s.updDi (dieOf g.core) fun d => { d with deferred := d.deferred.filter fun x => decide (x ≠ gid) }
    if kill then
      ((s.fatalEvent (s.gridOf g) (dieOf g.core) t).updB g.bid fun b => { b with faulted := true }).endGroup gid false
    else s.updG gid fun g => { g with stop := .restart }

/-- TQRACT_RESUME (R376). -/
def execTqractResume (s : State) : Host.Outcome State Fault Refusal := event (s.tqract false)
/-- TQRACT_KILL (R376). -/
def execTqractKill (s : State) : Host.Outcome State Fault Refusal := event (s.tqract true)

/-! ### Errors (R380) -/

/-- One more uncorrectable error of a die. -/
def State.countUncorr (s : State) (die : Nat) : State := s.updDi die fun d => { d with uncorr := min (d.uncorr + 1) 65535 }

/-- CORRECTABLE_ERROR (R380). -/
def execCorrectableError (die : Nat) (s : State) : Host.Outcome State Fault Refusal :=
  event (if die < s.part.dies then s.updDi die fun d => { d with corr := min (d.corr + 1) 65535 } else s)

/-- A group that an error can strike. DEDUCED, log entry 80. -/
def State.strikes (s : State) (gid : Nat) (f : State → State) : State := if (s.g gid).here then f s else s

/-- What an uncorrectable error does where it strikes (R325, R377, R378, R380). -/
def State.strike (s : State) : ErrUnit → State
  | .vreg gid r lane => s.strikes gid fun s => s.updG gid fun g => { g with vpo := g.vpo.upd r fun m => m ||| laneBit lane }
  | .laneControl gid lane => s.strikes gid fun s => s.killLane gid lane
  | .scalar gid r => s.strikes gid fun s => s.updG gid fun g => { g with spo := g.spo.put r true }
  | .splitTable gid | .regionRecord gid => s.strikes gid fun s => s.trap gid { code := 0x0D, sub := 2 }
  | .scratchWord bid key => s.updB bid fun b => if b.live then { b with scratchPo := b.scratchPo.put (key / 4) true } else b
  | .sector pa => s.markPo pa 1
  | .tileElem core t e => s.updTile core t fun x => { x with pois := x.pois.put e true }
  | .residue core part es =>
    match s.running core part with
    | some m => s.updTile core m.tile fun x => { x with pois := es.foldl (fun p e => p.put e true) x.pois }
    | none => s
  | .sluiceBuffer bid ctx num =>
    match ((s.b bid).copy.get ctx).queue.find? fun c => decide (c.num = num) with
    | some c => s.stopCopy bid ctx c (some { code := 0x0D, sub := 4, tval := w32 (ctxWord 0 ctx), taddr := num })
    | none => s
  | .collectiveBuffer bid ctx num =>
    match ((s.b bid).col.get ctx).queue.find? fun c => decide (c.num = num) with
    | some c => s.retireCol bid ctx c (some (colPoison ctx num))
    | none => s
  | .node bid ctx n => s.updSm bid ctx fun x =>
      if n < x.n then { x with nodePo := x.nodePo.put n true, poison := true } else x

/-- UNCORRECTABLE_ERROR (R380). -/
def execUncorrectableError (die : Nat) (u : ErrUnit) (s : State) : Host.Outcome State Fault Refusal :=
  event (if die < s.part.dies then (s.countUncorr die).strike u else s)

/-! ### The watchdog (R382) -/

/-- A port of the route to a rank is in RECOVER. -/
def State.recovering (s : State) (r : Nat) : Bool := (s.routes.get r).any fun p => decide (s.ports.get p = 3)
/-- A TLWAIT waits for a collective whose link is in RECOVER. -/
def State.remoteWait (s : State) (g : Group) (x : Split) : Option (Nat × Nat) :=
  match x.waitOn with
  | some (.timeline c n since) =>
    if bits c 31 28 = 3 ∧ (((s.b g.bid).col.get (c % 32)).queue.any fun k =>
        decide (k.num ≤ n) && (s.colOthers k).any s.recovering) then some (c, since) else none
  | _ => none
/-- RGRACE, in ns, has run out since a time. -/
def State.graceOver (s : State) (since : Nat) : Bool := decide (s.rgrace.toNat * 1000 ≤ s.ns - since)
/-- A split is in an exempt wait. -/
def State.exempt (s : State) (g : Group) (x : Split) : Bool :=
  match x.waitOn with
  | some .joinw | some .outlet => true
  | _ => match s.remoteWait g x with
    | some (_, since) => !s.graceOver since
    | none => false

/-- Whether the no-issue count of a group advances in a cycle without an issue. -/
def State.counts (s : State) (g : Group) : Bool :=
  g.live && decide ((s.b g.bid).state ≠ .saved) &&
    match g.stop with
    | .faulted _ | .replay _ _ _ | .reserve _ _ | .ended => false
    | _ => g.liveSlots.isEmpty || g.liveSlots.any fun k => !s.exempt g (g.splits.get k)

/-- The count of a group has reached WDLIMIT. -/
def State.watchdogDue (s : State) (gid : Nat) : Bool :=
  let g := s.g gid
  let limit := (s.co g.core).wdlimit
  s.counts g && decide (limit ≠ 0#32 ∧ limit.toNat ≤ g.noIssue)

/-- WATCHDOG (R382). -/
def execWatchdog (gid : Nat) (s : State) : Host.Outcome State Fault Refusal :=
  event (if s.watchdogDue gid then s.trap gid { code := 0x14, tval := (s.co (s.g gid).core).wdlimit } else s)

/-- The remote wait of a slot of a group that has outlasted RGRACE. -/
def State.remoteDue (s : State) (gid slot : Nat) : Option Nat :=
  let g := s.g gid
  let x := g.splits.get slot
  let stuck : Bool := match g.stop with
    | .reserve _ _ => true
    | _ => false
  if g.here ∧ ¬ stuck ∧ x.valid ∧ (s.b g.bid).state ≠ .saved then
    match s.remoteWait g x with
    | some (c, since) => if s.graceOver since then some c else none
    | none => none
  else none

/-- REMOTE_TIMEOUT (R382, R403). -/
def execRemoteTimeout (gid slot : Nat) (s : State) : Host.Outcome State Fault Refusal :=
  event (match s.remoteDue gid slot with
    | some c =>
      let x := (s.g gid).splits.get slot
      s.trap gid { code := 0x13, tval := w32 c
                   tpc := (s.g gid).plane.get (lowLane x.mask) * 2 ^ 22 + slot * 2 ^ 20 + x.offset }
    | none => s)

/-! ### The security alarm (R392) -/

/-- The alarm latches with a source bit: the keys go, and the host is told. -/
def State.alarm (s : State) (source : Nat) : State :=
  { s with
    alarmed := true, alarmSrc := if bit s.alarmSrc source then s.alarmSrc else s.alarmSrc + 2 ^ source
    keys := false, provisioned := false, hostOut := s.hostOut ++ [.alarm source] }
/-- SECURITY_ALARM (R392): voltage, clock, temperature, mesh or firmware image. -/
def execSecurityAlarm (source : Nat) (s : State) : Host.Outcome State Fault Refusal :=
  event (if s.powered ∧ source < 5 then s.alarm source else s)
/-- A write of KEYERASE (R361, R392). -/
def State.keyerase (s : State) (cmd : Nat) : State := if cmd = 0xE5A5 then s.alarm 7 else s
/-- KEYERASE (R392). -/
def execKeyerase (cmd : Nat) (s : State) : Host.Outcome State Fault Refusal := event (s.keyerase cmd)

end Sys2Proof.Machine
end

