-- ==== Sys2Proof/Machine/Fabric.lean ====
section
/-! DEFINITION. The fabric (14_fabric.md R393-R397, R404-R407; 07_memory.md R209, R211): the ports, the exchange tick,
accesses of other modules, the mirror, and the invalidation of translations. -/

namespace Sys2Proof.Machine

open Sys2Proof

/-! ### FABID (R393) -/

/-- Some collective command of the module is incomplete. -/
def State.colBusy (s : State) : Bool := s.blocks.any fun b => b.2.col.any fun x => !x.2.queue.isEmpty
/-- FABID as a write of it leaves the register. -/
def fabidOf (value : Nat) : Word := w32 value &&& 0x00011F1F#32
/-- A write of FABID may complete: it leaves RANK and SIZE, or no collective command is incomplete. -/
def State.fabidReady (s : State) (value : Nat) : Bool :=
  decide (fabidOf value &&& 0x1F1F#32 = s.fabid &&& 0x1F1F#32) || !s.colBusy
/-- A write of FABID that completes. -/
def State.fabidWrite (s : State) (value : Nat) : State :=
  if s.fabidReady value then { s with fabid := fabidOf value } else s
/-- FABID_WRITE (R393). -/
def execFabidWrite (value : Nat) (s : State) : Host.Outcome State Fault Refusal := event (s.fabidWrite value)

/-! ### Ports (R396, R397) -/

/-- The route to a rank is lost for something that waits on some ranks. -/
def State.loses (s : State) (l : List (Nat × Trap)) : Option Trap := (l.find? fun x => s.unreachable x.1).map (·.2)

/-- Accesses and copies in progress to ranks that have become unreachable fault PAGE_PROT, and a mirror without a way to
its peer is degraded (R397, R407). DEDUCED, log entry 96. -/
def State.dropLost (s : State) : State :=
  let lost (a : Access) : Access := if a.fault.isSome then a else { a with fault := s.loses a.peers }
  let cmd (c : CopyCmd) : CopyCmd := if c.fault.isSome then c else { c with fault := s.loses c.peers }
  let t : State := { s with
    groups := s.groups.mapv fun g => { g with inflight := g.inflight.map lost }
    blocks := s.blocks.mapv fun b => { b with copy := b.copy.mapv fun x => { x with queue := x.queue.map cmd } } }
  if t.mirctl.getLsbD 31 ∧ t.unreachable (bits t.mirctl.toNat 20 16) then { t with mirstat := 2, mirror := [] } else t

/-- A port changes its state. -/
def State.setPort (s : State) (port st : Nat) : State := { s with ports := s.ports.put port st }
/-- A port goes DOWN. -/
def State.portDown (s : State) (port : Nat) : State := (s.setPort port 0).dropLost
/-- The part has this port, and it is in a state. -/
def State.portIs (s : State) (port st : Nat) : Bool := decide (port < s.part.ports) && decide (s.ports.get port = st)

/-- PORT_PARTNER_DETECT (R397). -/
def execPortPartnerDetect (port : Nat) (s : State) : Host.Outcome State Fault Refusal :=
  event (if s.portIs port 0 then s.setPort port 1 else s)
/-- PORT_TRAIN_PASS (R397). -/
def execPortTrainPass (port : Nat) (s : State) : Host.Outcome State Fault Refusal :=
  event (if s.portIs port 1 then s.setPort port 2 else s)
/-- PORT_TRAIN_TIMEOUT (R397). -/
def execPortTrainTimeout (port : Nat) (s : State) : Host.Outcome State Fault Refusal :=
  event (if s.portIs port 1 then s.portDown port else s)
/-- PORT_RECOVER_ENTER (R397). -/
def execPortRecoverEnter (port : Nat) (s : State) : Host.Outcome State Fault Refusal :=
  event (if s.portIs port 2 then s.setPort port 3 else s)
/-- PORT_RECOVER_DONE (R397). -/
def execPortRecoverDone (port : Nat) (s : State) : Host.Outcome State Fault Refusal :=
  event (if s.portIs port 3 then s.setPort port 2 else s)
/-- PORT_RECOVER_FAIL (R397). -/
def execPortRecoverFail (port : Nat) (s : State) : Host.Outcome State Fault Refusal :=
  event (if s.portIs port 3 then s.portDown port else s)
/-- FLIT_REPLAY (R396): a flit is sent again, and nothing but time changes. DEDUCED, log entry 98. -/
def execFlitReplay (_port : Nat) (s : State) : Host.Outcome State Fault Refusal := event s
/-- DIE_LINK_RETRY (R21, R380): traffic is delayed, never reordered. DEDUCED, log entry 98. -/
def execDieLinkRetry (_die _other : Nat) (s : State) : Host.Outcome State Fault Refusal := event s

/-- PORTST (R397). -/
def State.portst (s : State) : Word := w32 ((List.range 16).foldl (fun a k => a + s.ports.get k % 4 * 4 ^ k) 0)

/-! ### The exchange tick (R404) -/

/-- A write of TICKPER: on rank 0 it takes effect at a boundary at least 1 ms later. DEDUCED, log entry 94. -/
def State.tickperWrite (s : State) (value : Nat) : State :=
  let p := max 2000 (value % 2 ^ 32)
  { s with tickper := w32 p, tickNext := if s.rank = 0 then s.tickNext ++ [(p, s.ns + 1000000)] else s.tickNext }
/-- TICKPER_WRITE (R404). -/
def execTickperWrite (value : Nat) (s : State) : Host.Outcome State Fault Refusal := event (s.tickperWrite value)

/-- TICKLO: the low word of the tick number; the read latches TICKHI. -/
def State.tickRead (s : State) : Word × State := (loW s.tick, { s with tickHi := hiW s.tick })
/-- TICKLO_READ (R404), into s[d] of a group. -/
def execTickloRead (gid d : Nat) (s : State) : Host.Outcome State Fault Refusal :=
  event (if (s.g gid).live then s.tickRead.2.updG gid fun g => g.setS d s.tickRead.1 else s)

/-- The next boundary is due: the time base of rank 0 is its own. -/
def State.tickDue (s : State) : Bool := s.locked && (decide (s.rank ≠ 0) || decide (s.tickAt ≤ s.ns))
/-- At a boundary the flits generated in the tick are sent, and then its end marker (R405). -/
def State.sendFlits (s : State) : State :=
  let t := s.outgoing.foldl State.performOut { s with outgoing := [] }
  if s.detx then { t with sentMark := s.tick } else t
/-- EXCHANGE_TICK (R404, R405): a boundary; traffic that waited for it travels. On another rank than 0 the boundary
is that of the grandmaster. DEDUCED, log entry 94. -/
def execExchangeTick (s : State) : Host.Outcome State Fault Refusal :=
  event (
    if s.tickDue then
      let due := s.tickNext.filter fun w => decide (w.2 ≤ s.tickAt)
      let period := (due.getLast?.map (·.1)).getD s.tickInUse
      { s with
        tick := s.tick + 1, bounds := s.bounds + 1, tickInUse := period, tickAt := s.tickAt + period
        tickNext := s.tickNext.filter fun w => decide (s.tickAt < w.2) }.sendFlits
    else s)

/-- Lock to the grandmaster in a tick, a free part of which has passed. DESIGN CHOICE, log entry 92. -/
def State.ptpLock (s : State) (tick : Nat) : State :=
  { s with
    locked := true, tick := tick, tickAt := s.ns + 1 + Config.pick s.free % max 1 s.tickInUse, free := s.free + 1 }
/-- PTP_LOCK (R404). -/
def execPtpLock (tick : Nat) (s : State) : Host.Outcome State Fault Refusal :=
  event (if s.locked then s else s.ptpLock tick)

/-! ### Accesses of other modules (R394, R395, R405) -/

/-- Some bytes at an address in units that are naturally aligned and at most 8 bytes long (R411). -/
def pieces (pa : Nat) (bytes : List Byte) : List (Nat × List Byte) :=
  (unitsOf 8 pa bytes.length).map fun k => (max pa (8 * k), (bytes.drop (8 * k - pa)).take (8 * k + 8 - max pa (8 * k)))
/-- A write that comes by physical address, at a scope; a clean one makes whole sectors lose their marks (R199).
DEDUCED, log entry 45. -/
def State.outsideWrite (s : State) (q : Origin) (scope pa : Nat) (bytes : List Byte) (poison : Bool) : State :=
  let t := (pieces pa bytes).foldl (fun (t : State) x => t.topWrite none { by_ := q, scope := scope } (.dev x.1 false) x.2 poison) s
  if poison then t else t.clearCovered ((List.range bytes.length).map fun k => (pa + k, 1))

/-- Perform an access of another module at the home L2. A read changes nothing here. -/
def State.peerPerform (s : State) (rank : Nat) (acc : PeerAcc) : State :=
  match acc with
  | .load _ _ | .marker | .own _ _ => s
  | .store pa bytes poison => s.outsideWrite (peerAgent rank) 9 (pa % 2 ^ 41) bytes poison
  | .atomic op pa operand =>
    (s.rmw none 0 { by_ := peerAgent rank, scope := 9 } (AtomOp.ofNum op) (.dev (pa % 2 ^ 41) false)
      ((List.range 4).map fun k => w32 (leNat ((operand.drop (4 * k)).take 4))) false).2.2

/-- PEER_ACCESS (R394, R405): with DETX it waits to be applied with the other flits of its tick. -/
def State.peerAccess (s : State) (rank tick : Nat) (acc : PeerAcc) : State :=
  match acc with
  | .own pa bytes => s.agentWrite none (peerAgent (rank % 32)) (.peer (rank % 32) (pa % 2 ^ 41)) bytes false
  | .marker => { s with markers := s.markers.put rank (max (s.markers.get rank) (tick + 1)) }
  | a => if s.detx then { s with received := s.received ++ [(rank, tick, a)] } else s.peerPerform (rank % 32) a
def execPeerAccess (rank tick : Nat) (acc : PeerAcc) (s : State) : Host.Outcome State Fault Refusal :=
  event (match acc with
    | .own _ _ => s.peerAccess rank tick acc
    | a => if s.powered then s.peerAccess rank tick a else s)

/-- The oldest tick of which flits have been received and not applied. -/
def State.applyTick (s : State) : Option Nat :=
  match s.received with
  | [] => none
  | f :: r => some (r.foldl (fun a x => min a x.2.1) f.2.1)
/-- The flits of the oldest tick may be applied. -/
def State.mayApply (s : State) : Option Nat :=
  match s.applyTick with
  | some t => if s.markersIn t then some t else none
  | none => none
/-- TICK_FLITS_APPLY (R405): in ascending source rank, and in send order within a rank. -/
def execTickFlitsApply (s : State) : Host.Outcome State Fault Refusal :=
  event (match s.mayApply with
    | some t =>
      let now := s.received.filter fun f => decide (f.2.1 = t)
      let ordered := (List.range 32).flatMap fun r => now.filter fun f => decide (f.1 % 32 = r)
      ordered.foldl (fun (u : State) f => u.peerPerform (f.1 % 32) f.2.2) { s with received := s.received.filter fun f => decide (f.2.1 ≠ t) }
    | none => s)

/-! ### The mirror (R406, R407) -/

/-- PEER, and the PA at which the peer mirrors an address. -/
def State.mirPeer (s : State) : Nat := bits s.mirctl.toNat 20 16
def State.mirPa (s : State) (pa : Nat) : Nat := (pa + bits s.mirctl.toNat 15 0 * 2 ^ 30) % 2 ^ 46
/-- Bytes arrive in the peer's memory. -/
def State.mirPut (s : State) (pa : Nat) (bytes : List Byte) : State :=
  s.agentWrite none { kind := 7 } (.peer s.mirPeer (s.mirPa pa)) bytes false

/-- Mirroring is switched on: the mirror resynchronises, or is degraded where no port leads to its peer. -/
def State.mirrorOn (s : State) : State :=
  { s with mirctl := s.mirctl ||| 0x80000000#32, mirstat := if s.unreachable s.mirPeer then 2 else 3, mirror := [] }
/-- MIRROR_ENABLE (R406): EN goes from 0 to 1. -/
def execMirrorEnable (s : State) : Host.Outcome State Fault Refusal :=
  event (if s.mirctl.getLsbD 31 then s else s.mirrorOn)
/-- A write of MIRCTL; a new PEER that no port leads to is a lost one (R407). DEDUCED, log entry 96. -/
def State.mirctlWrite (s : State) (value : Nat) : State :=
  let v := w32 value &&& 0x801FFFFF#32
  let t := { s with mirctl := v }
  if ¬ v.getLsbD 31 then { t with mirstat := 0, mirror := [] }
  else if ¬ s.mirctl.getLsbD 31 then t.mirrorOn
  else if t.unreachable t.mirPeer then { t with mirstat := 2, mirror := [] }
  else t

/-- The pages with MIR = 1 that the table at t maps, as physical address and size in bits. DEDUCED, log entry 95. -/
def State.mirPages (s : State) : Nat → List (Nat × Nat × Nat) → List (Nat × Nat)
  | _, [] => []
  | t, (hi, lo, _) :: rest =>
    (List.range (2 ^ (hi - lo + 1))).flatMap fun k =>
      let e := leNat (s.devBytes ((t + 8 * k) % 2 ^ 46) 8)
      if !bit e 0 then []
      else if bit e 1 then (if bit e 5 ∧ bits e 7 6 = 0 then [(bits e 45 8 * 256, lo)] else [])
      else s.mirPages (bits e 45 8 * 256) rest
/-- MIRROR_RESYNC_DONE (R406): every MIR page has been copied in full. -/
def execMirrorResyncDone (s : State) : Host.Outcome State Fault Refusal :=
  event (
    if s.mirstat = 3 ∧ ¬ s.routeWaits s.mirPeer then
      let pages := if s.ttblo.getLsbD 0 then s.mirPages s.ttb levels else []
      pages.foldl (fun (u : State) p => u.mirPut p.1 (s.devBytes p.1 (2 ^ p.2))) { s with mirstat := 1 }
    else s)

/-- The oldest mirror write may be acknowledged: its tick is over and its route open. -/
def State.mayAck (s : State) : Bool :=
  match s.mirror with
  | w :: _ => decide (w.notBefore ≤ s.bounds) && !s.routeWaits s.mirPeer
  | [] => false
/-- MIRROR_ACK (R406): the peer's memory controller has written it. -/
def execMirrorAck (s : State) : Host.Outcome State Fault Refusal :=
  event (match s.mirror with
    | w :: rest => if s.mayAck then { s with mirror := rest }.mirPut w.pa w.bytes else s
    | [] => s)

/-! ### Invalidation of translations (R209, R211) -/

/-- The VA of TLBINVHI and TLBINVLO. -/
def Core.invVa (c : Core) : Nat := bits c.tlbinvhi.toNat 19 0 * 2 ^ 32 + bits c.tlbinvlo.toNat 31 16 * 65536
/-- A write of TLBINVLO with GO starts an invalidation; it waits while one of the core is in progress. -/
def State.tlbInvalidate (s : State) (core : Nat) : State :=
  s.updCo core fun c =>
    if c.inv.isSome then c else { c with inv := some (if c.tlbinvlo.getLsbD 1 then none else some c.invVa) }
/-- TLB_INVALIDATE (R211). -/
def execTlbInvalidate (core : Nat) (s : State) : Host.Outcome State Fault Refusal := event (s.tlbInvalidate core)

/-- An entry maps an address, or every entry is meant. -/
def TlbEntry.named (e : TlbEntry) (va : Option Nat) : Bool :=
  match va with
  | some a => decide (a / 2 ^ e.bits * 2 ^ e.bits = e.va)
  | none => true
/-- The VAs that an invalidation covers, as pages (a VA and a size in bits): those of the entries that map the address, in a
TLB or in memory; the largest page there is, where nothing maps it. DEDUCED, log entry 35. -/
def State.invPages (s : State) (a : Nat) : List (Nat × Nat) :=
  let cached := ((s.cores.flatMap fun c => c.2.tlb) ++ s.dies.flatMap fun d => d.2.tlb).filter fun e => e.named (some a)
  let here := cached ++ match s.walk a s.ttb levels with
    | .ok e => [e]
    | .error _ => []
  if here = [] then [(a / 2 ^ 29 * 2 ^ 29, 29)] else here.map fun e => (e.va, e.bits)
/-- An invalidation covers a VA. -/
def State.invHits (s : State) (va : Option Nat) (x : Nat) : Bool :=
  match va with
  | none => true
  | some a => (s.invPages a).any fun p => decide (p.1 ≤ x ∧ x < p.1 + 2 ^ p.2)
/-- The entries go from every TLB, and the parcels of their pages from every instruction cache.
DEDUCED, log entry 35. -/
def State.dropTranslations (s : State) (va : Option Nat) : State :=
  { s with
    cores := s.cores.mapv fun c =>
      { c with tlb := c.tlb.filter fun e => !e.named va, icache := c.icache.filter fun e => !s.invHits va e.1 }
    dies := s.dies.mapv fun d => { d with tlb := d.tlb.filter fun e => !e.named va } }
/-- An access of a group that has translated an address of the range is still to be performed: a store in the compare buffer of
a pair, a FADD that waits at its home, or an access to a peer that waits for the boundary (R211). -/
def State.invWaits (s : State) (va : Option Nat) : Bool :=
  s.groups.any (fun e =>
    e.2.pairBuf.any (fun x => decide (x.kind ≠ 0) && s.invHits va x.va) ||
      e.2.inflight.any (fun a => a.adds.any (fun x => s.invHits va x.va) || a.binds.any fun b => b.away && s.invHits va b.va)) ||
    s.outgoing.any fun o => o.store.any fun x => s.invHits va x.1.va
/-- TLB_INVALIDATE_DONE (R211): BUSY clears. -/
def execTlbInvalidateDone (core : Nat) (s : State) : Host.Outcome State Fault Refusal :=
  event (match (s.co core).inv with
    | some va => if s.invWaits va then s else (s.dropTranslations va).updCo core fun c => { c with inv := none }
    | none => s)

/-- TLB_ENTRY_DROP (R209): a die's TLB or a core's loses the entry that maps an address. DEDUCED, log entry 34. -/
def execTlbEntryDrop (shared : Bool) (unit va : Nat) (s : State) : Host.Outcome State Fault Refusal :=
  event (
    if shared then s.updDi unit fun d => { d with tlb := d.tlb.filter fun e => !e.named (some va) }
    else s.updCo unit fun c => { c with tlb := c.tlb.filter fun e => !e.named (some va) })

end Sys2Proof.Machine
end

