-- ==== Sys2Proof/Machine/Preempt.lean ====
section
/-! DEFINITION. Pre-emption (13_traps.md R383-R387; 07_memory.md R203, 09_sluices.md R267, 10_matrix.md R296,
11_sampling.md R326): the choice of the mode, save and restore, and flush-and-restart. -/

namespace Sys2Proof.Machine

open Sys2Proof

/-- The blocks of a unit: a block with its cluster launch (R383). A pair is one block. -/
def State.unitOf (s : State) (bid : Nat) : List Nat := if (s.b bid).cluster = [] then [bid] else (s.b bid).cluster
/-- The groups of a unit. -/
def State.unitGroups (s : State) (bid : Nat) : List Nat := (s.unitOf bid).flatMap fun q => (s.b q).groups

/-! ### The choice (R383) -/

/-- How a unit is pre-empted. -/
inductive PreMode where
  | save | drain | flush
  deriving DecidableEq, Repr, Inhabited

/-- DRAINMAX and FLUSHMAX in cycles. -/
def State.drainMax (s : State) : Nat := bits s.prectl.toNat 15 0 * 1024
def State.flushMax (s : State) : Nat := bits s.prectl.toNat 31 16 * 1024
/-- Age of a unit. -/
def State.unitAge (s : State) (bid : Nat) : Nat :=
  (s.unitOf bid).foldl (fun a q => max a (match (s.b q).firstIssue with
    | some c => s.cycle - c
    | none => 0)) 0
/-- A group that is in its handler or waits for TQRACT. -/
def Group.handled (g : Group) : Bool :=
  g.handler || match g.stop with
    | .replay _ _ _ => true
    | _ => false
/-- The mode that the hardware chooses; a grid that the supervisor has ended is not begun again.
DESIGN CHOICE, log entry 109. -/
def State.preMode (s : State) (bid : Nat) : PreMode :=
  let g := s.gr (s.b bid).grid
  let age := s.unitAge bid
  if (s.unitGroups bid).any (fun x => (s.g x).handled) || (s.b bid).partner.isSome
      || (s.unitOf bid).any fun q => (s.b q).col.any fun x => !x.2.queue.isEmpty then .save
  else if 0 < g.lives ∧ g.lifeSum ≤ (age + s.drainMax) * g.lives then .drain
  else if g.p.idem ∧ g.p.wqCount = 0 ∧ age ≤ s.flushMax ∧ ¬ g.killing then .flush
  else .save

/-- Change every block of a unit. -/
def State.updUnit (s : State) (bid : Nat) (f : Block → Block) : State := (s.unitOf bid).foldl (fun t q => t.updB q f) s

/-- Request pre-emption of a unit. The control grid is never pre-empted (R414). -/
def State.preempt (s : State) (bid : Nat) : State :=
  let b := s.b bid
  if b.live ∧ b.state = .bound ∧ s.ctlGrid ≠ some b.grid then
    let st : BlockState := match s.preMode bid with
      | .save => .saving
      | .drain => .draining s.cycle
      | .flush => .flushing
    (s.updUnit bid fun b => if b.state = .bound then { b with state := st } else b).updGr b.grid fun g => { g with pre := true }
  else s
/-- PREEMPT_REQUEST (R383). -/
def execPreemptRequest (bid : Nat) (s : State) : Host.Outcome State Fault Refusal := event (s.preempt bid)

/-- A drain that has not ended in time. -/
def State.drainLate (s : State) (bid : Nat) : Bool :=
  match (s.b bid).state with
  | .draining since => decide (4 * s.drainMax ≤ s.cycle - since)
  | _ => false
/-- DRAIN_TO_SAVE (R383). -/
def execDrainToSave (bid : Nat) (s : State) : Host.Outcome State Fault Refusal :=
  event (
    if s.drainLate bid then
      s.updUnit bid fun b => match b.state with
        | .draining _ => { b with state := .saving }
        | _ => b
    else s)

/-! ### Save and restore (R384, R385) -/

/-- No split of a group is between plane issues, or has an OVF to raise (R108, R149). -/
def Group.whole (g : Group) : Bool :=
  (List.range 4).all fun k => decide ((g.splits.get k).more = []) && (g.splits.get k).ovf.isNone
/-- What a save waits for: the instructions that have begun, accesses, copies with the follow-ons they issue, collectives, and a sampling command other than
a sweep between two of its steps. -/
def State.saveReady (s : State) (bid : Nat) : Bool :=
  let b := s.b bid
  b.groups.all (fun x => (s.g x).drained && (s.g x).whole) && b.copy.all (fun x => x.2.queue.isEmpty && x.2.landed.isEmpty)
    && b.col.all (fun x => x.2.queue.isEmpty) && b.sm.all fun x => x.2.bx.isNone

/-- The part of a core's sparse contents that belongs to a block, and the rest. -/
def splitMap {α : Type} (f : α → Bool) (m : SMap α) : SMap α × SMap α := (m.filter fun e => f e.2, m.filter fun e => !f e.2)

/-- Save what one member core holds of a block. -/
def State.saveMember (s : State) (bid : Nat) (m : Nat) : State :=
  let core := (s.b bid).coreOf m
  let c := s.co core
  let tags := splitMap (fun (e : TagEntry) => decide (e.owner = bid)) c.tags
  let tiles := splitMap (fun (t : Tile) => decide (t.blk = some bid)) c.tiles
  let array := decide (m = 0 ∧ c.array.bound = some bid)
  (s.setCo core { c with
    tags := tags.2, tiles := tiles.2, mmas := c.mmas.filter fun x => decide (x.bid ≠ bid)
    array := if array then {} else c.array }).updB bid fun b =>
      { b with
        savedTags := b.savedTags.put m tags.1, savedTiles := b.savedTiles.put m tiles.1
        savedMmas := b.savedMmas.put m (c.mmas.filter fun x => decide (x.bid = bid))
        savedArray := if array then some c.array else b.savedArray }

/-- Save a block. -/
def State.saveBlock (s : State) (bid : Nat) : State :=
  ((List.range (s.b bid).members.length).foldl (fun t m => t.saveMember bid m) s).updB bid fun b => { b with state := .saved }

/-- The unit may be saved now. -/
def State.maySave (s : State) (bid : Nat) : Bool :=
  (s.unitOf bid).any (fun q => decide ((s.b q).state = .saving))
    && (s.unitOf bid).all fun q => decide ((s.b q).state = .exited) || (decide ((s.b q).state = .saving) && s.saveReady q)
/-- PREEMPTION_SAVE (R384). -/
def execPreemptionSave (bid : Nat) (s : State) : Host.Outcome State Fault Refusal :=
  event (
    if s.maySave bid then
      ((s.unitOf bid).filter fun q => decide ((s.b q).state = .saving)).foldl State.saveBlock s
    else s)

/-- Tag entries go back into free ways of their sets; none where a set is full. -/
def putTags (c : Core) (saved : SMap TagEntry) : Option Core :=
  saved.foldl
    (fun c e => match c with
      | some c => (c.tagFree e.2.key).map fun w => { c with tags := c.tags.put w e.2 }
      | none => none) (some c)
/-- The commands of a member fit beside those that the arrays of a core have accepted: 4 in each (R280). -/
def State.commandsFit (s : State) (b : Block) (m core : Nat) : Bool :=
  (List.range 4).all fun a => decide ((((s.co core).mmas ++ b.savedMmas.get m).filter fun x => decide (x.part = a)).length ≤ 4)
/-- The tiles, tags and commands of a member fit on a core. -/
def State.memberFits (s : State) (b : Block) (m core : Nat) : Bool :=
  let c := s.co core
  (putTags c (b.savedTags.get m)).isSome && (b.savedTiles.get m).all (fun e => decide ((c.tiles.get e.1).blk = none))
    && s.commandsFit b m core && (decide (m ≠ 0) || b.savedArray.isNone || decide (c.array.bound = none))

/-- A unit is restored on its own cores (R385): it is deterministic or paired, or a block of it holds a bound array. -/
def State.keepsCores (s : State) (bid : Nat) : Bool :=
  (s.gr (s.b bid).grid).p.det || (s.unitOf bid).any fun q => (s.b q).savedArray.isSome || (s.b q).partner.isSome
/-- Cores on which a saved block may be restored (R385). -/
def State.restoreOk (s : State) (bid : Nat) (cores : List Nat) : Bool :=
  let b := s.b bid
  (if s.keepsCores bid then decide (cores = b.cores)
   else decide (cores.length = b.cores.length) && decide cores.Nodup
      && cores.all fun c => decide (dieOf c = dieOf (b.coreOf 0)) && decide (c / 16 = cores.headD 0 / 16))
    && cores.zipIdx.all fun (c, m) => (b.partner.isSome && decide (m ≠ 0)) || s.memberFits b m c

/-- Put back what a member core held. -/
def State.restoreMember (s : State) (bid m core : Nat) : State :=
  let b := s.b bid
  s.updCo core fun c =>
    let c := (putTags c (b.savedTags.get m)).getD c
    { c with
      tiles := (b.savedTiles.get m).foldl (fun t e => t.put e.1 e.2) c.tiles, mmas := c.mmas ++ b.savedMmas.get m
      array := if m = 0 then b.savedArray.getD c.array else c.array }

/-- Restore a block on its cores: its groups take slots there, and its parties stand there from now on. -/
def State.restoreBlock (s : State) (bid : Nat) (cores : List Nat) : State :=
  let b := s.b bid
  let members := if b.partner.isSome then cores.take 1 else cores
  let t := members.zipIdx.foldl (fun t (c, m) => t.restoreMember bid m c) s
  let t0 : State := { t with groups := t.groups.map fun e => if e.1 ∈ b.groups then (e.1, { e.2 with live := false }) else e }
  let t := b.groups.foldl
    (fun (t : State) gid =>
      let core := if b.partner.isSome then cores.headD 0 else members.getD ((t.g gid).index / coreSlots) 0
      -- slots of this block count as free until they are taken anew
      let slot := (pickPositions t.free 1 (t.slotsFree core)).headD 0
      let mate := (pickPositions (t.free + 1) 1 (t.slotsFree (cores.getD 1 0))).headD 0
      let t1 : State := { t with free := t.free + 2 }
      (t1.updG gid fun g => { g with core := core, slot := slot, live := true }).updB bid fun x =>
        { x with slots := if b.partner.isSome then x.slots.put (t.g gid).index mate else x.slots }) t0
  let t := t.updB bid fun b =>
    { b with state := .bound, members := members, savedTags := [], savedTiles := [], savedMmas := [], savedArray := none }
  t.moveParties fun q =>
    if q.kind = 0 ∧ q.who ∈ b.groups then { q with core := (t.g q.who).core, part := partOf (t.g q.who).slot }
    else if 1 ≤ q.kind ∧ q.kind ≤ 4 ∧ q.who = bid then { q with core := members.headD 0 } else q

/-- The saved blocks of a unit with the cores that each would take. -/
def State.restorePlan (s : State) (bid : Nat) (cores : List Nat) : List (Nat × List Nat) :=
  (((s.unitOf bid).filter fun q => decide ((s.b q).state = .saved)).foldl
    (fun (acc : List (Nat × List Nat) × List Nat) q =>
      let n := (s.b q).cores.length
      (acc.1 ++ [(q, acc.2.take n)], acc.2.drop n)) ([], cores)).1

/-- The unit may be restored on these cores now. -/
def State.mayRestore (s : State) (bid : Nat) (cores : List Nat) : Bool :=
  let plan := s.restorePlan bid cores
  let p := (s.gr (s.b bid).grid).p
  let need := plan.flatMap fun u => u.2.zipIdx.map fun (c, m) => (c, ((s.b u.1).groups.filter fun x =>
    (s.b u.1).partner.isSome || decide ((s.g x).index / coreSlots = m)).length)
  !plan.isEmpty && plan.all (fun u => s.restoreOk u.1 u.2)
    && s.besideExited (s.b bid).grid (plan.map fun u => ((s.b u.1).blk, u.2))
    && (decide (p.clust ≤ 1) || (decide (plan.map (·.2.headD 0)).Nodup &&
      plan.all fun u => decide (u.2.headD 0 / 16 = (plan.headD (0, [])).2.headD 0 / 16)))
    && (distinctAsc (need.map (·.1))).all fun c =>
      let mine := need.filter fun n => decide (n.1 = c)
      s.fits c (mine.foldl (fun a n => a + n.2) 0) (mine.length * p.scratch)
/-- UNIT_RESTORE (R385). -/
def execUnitRestore (bid : Nat) (cores : List Nat) (s : State) : Host.Outcome State Fault Refusal :=
  event (
    if s.mayRestore bid cores then (s.restorePlan bid cores).foldl (fun t u => t.restoreBlock u.1 u.2) s else s)

/-! ### Flush-and-restart (R384) -/

/-- The triggered groups of a block, as a set; a group that has gone counts. -/
def State.triggerSet (s : State) (bid : Nat) : Nat :=
  let b := s.b bid
  (List.range (s.gr b.grid).p.groups).foldl
    (fun a i =>
      let here := b.groups.find? fun x => decide ((s.g x).index = i)
      let t := match here with
        | some x => (s.g x).triggered
        | none => true
      a + t.toNat * 2 ^ i) 0

/-- The replayable records of a block's groups are withdrawn with their tokens (R376). -/
def State.withdraw (s : State) (bid : Nat) : State :=
  (s.b bid).groups.foldl
    (fun t gid => match (t.g gid).stop with
      | .replay _ token _ => t.updDi (dieOf (t.g gid).core) fun d =>
          { d with queue := d.queue.filter fun r => !(r.replay && decide (r.token = token))
                   deferred := d.deferred.filter fun x => decide (x ≠ gid) }
      | _ => t) s

/-- Flush one block: its copies are cancelled, its other commands discarded, and what it held is freed; the grid will
bind it again. -/
def State.flushBlock (s : State) (bid : Nat) : State :=
  let b := s.b bid
  let trig := s.triggerSet bid
  let t := (List.range 32).foldl (fun t k => t.cancelCopies bid k) s
  let t := (t.withdraw bid).freeTags bid
  let t := b.members.foldl
    (fun t c => t.updCo c fun k =>
      { k with
        mmas := k.mmas.filter fun m => decide (m.bid ≠ bid), tiles := k.tiles.filter fun x => decide (x.2.blk ≠ some bid)
        array := if k.array.bound = some bid then {} else k.array }) t
  { t with groups := t.groups.filter (fun e => decide (e.1 ∉ b.groups)), blocks := t.blocks.erase bid }.updGr b.grid fun g =>
    { g with flushed := g.flushed.put b.blk (1 + 2 * trig), cbar := g.cbar.erase (b.blk / max 1 g.p.clust) }

/-- FLUSH_AND_RESTART (R384). -/
def execFlushAndRestart (bid : Nat) (s : State) : Host.Outcome State Fault Refusal :=
  event (
    if (s.b bid).live ∧ (s.b bid).state = .flushing then
      ((s.unitOf bid).filter fun q => decide ((s.b q).state = .flushing)).foldl State.flushBlock s
    else s)

end Sys2Proof.Machine
end

