-- ==== Sys2Proof/Machine/Maintain.lean ====
section
/-! DEFINITION. Maintenance (13_traps.md R381, R388-R391; 17_program_scan.md R428-R430, R434): containment resets, drain,
in-field scan and the logical core map. -/

namespace Sys2Proof.Machine

open Sys2Proof

/-! ### Containment resets (R381) -/

/-- A command ends with POISON, sub-code 3. DEDUCED, log entry 80. -/
def containTrap : Trap := { code := 0x0D, sub := 3 }

/-- The unit that a request names exists. DEDUCED, log entry 85. -/
def State.unitExists (s : State) (kind target index : Nat) : Bool :=
  match kind with
  | 1 | 3 => s.inService target && decide (index < 4)
  | 2 => decide (target < s.part.dies) && decide (index < 32)
  | 4 => s.inService target && decide (index = 0) && s.hasSampling
  | 5 => decide (target < s.part.dies) && decide (index = 0)
  | 6 => decide (target < s.part.dies) && decide (index < s.part.dies) && decide (target ≠ index)
  | 7 => decide (target = 0) && decide (index < s.part.ports)
  | _ => false

/-- A group of a block lies on a partition of a core. -/
def State.onPartition (s : State) (core part gid : Nat) : Bool :=
  let g := s.g gid
  let b := s.b g.bid
  g.live && decide (b.state ≠ .saved) &&
    (decide (g.core = core ∧ partOf g.slot = part) || decide (b.partner = some core ∧ partOf (b.slots.get g.index) = part))
/-- The groups of a block take a fatal trap. -/
def State.endBlock (s : State) (bid : Nat) (t : Trap) : State :=
  (s.b bid).groups.foldl
    (fun (u : State) gid =>
      let g := u.g gid
      match g.stop with
      | .ended | .reserve _ _ => u
      | _ =>
        let u := u.updDi (dieOf g.core) fun d => { d with deferred := d.deferred.filter fun x => decide (x ≠ gid) }
        u.trap gid t) s
/-- Every block with a group on a partition ends. -/
def State.containBlocks (s : State) (core part : Nat) : State :=
  (s.blocks.filter fun b => b.2.live && b.2.groups.any (s.onPartition core part)).foldl
    (fun (u : State) b => u.endBlock b.1 containTrap) s

/-- The accepted commands of a matrix array fault, and every element of their tiles takes POIS. -/
def State.containMatrix (s : State) (core part : Nat) : State :=
  ((s.co core).mmas.filter fun m => decide (m.part = part)).foldl
    (fun (u : State) m =>
      (u.updTile core m.tile fun x => { x with pois := SMap.tab 4096 fun _ => true }).retireMma core { m with trap := m.trap.or (some containTrap) })
    s
/-- The accepted commands of a sluice fault. -/
def State.containSluice (s : State) (die sluice : Nat) : State :=
  s.blocks.foldl
    (fun (u : State) b => (List.range 32).foldl
      (fun (u : State) k =>
        if b.2.live ∧ (u.b b.1).sluice k = (die, sluice) then
          ((u.b b.1).copy.get k).queue.foldl (fun (u : State) c => u.stopCopy b.1 k c (some containTrap)) u
        else u) u) s
/-- The commands of a sampling array fault, and it has failed. -/
def State.containSampling (s : State) (core : Nat) : State :=
  let t := match (s.array core).bound with
    | some bid => (List.range 4).foldl
        (fun (u : State) k => ((u.b bid).sm.get k).queue.foldl (fun (u : State) c => u.retireSm bid k c (some containTrap)) u) s
    | none => s
  t.updArray core fun a => { a with failed := true }
/-- The accepted commands of a die's collective engine fault: those of the blocks that lie on the die.
DEDUCED, log entry 86. -/
def State.containCollective (s : State) (die : Nat) : State :=
  s.blocks.foldl
    (fun (u : State) b =>
      if b.2.live ∧ dieOf (b.2.coreOf 0) = die then
        (List.range 8).foldl
          (fun (u : State) k => ((u.b b.1).col.get k).queue.foldl (fun (u : State) c => u.retireCol b.1 k c (some containTrap)) u) u
      else u) s
/-- A port goes DOWN and then to TRAIN (R397). -/
def State.containPort (s : State) (port : Nat) : State := (s.portDown port).setPort port 1

/-- What a containment reset does to its unit. A die link retrains: nothing but time changes.
DEDUCED, log entry 85. -/
def State.containUnit (s : State) (kind target index : Nat) : State :=
  match kind with
  | 1 => (s.containBlocks target index).containMatrix target index
  | 2 => s.containSluice target index
  | 3 => s.containMatrix target index
  | 4 => s.containSampling target
  | 5 => s.containCollective target
  | 7 => s.containPort index
  | _ => s

/-- A write of CONTAIN with GO: one reset at a time, and none for a unit that does not exist. -/
def State.containGo (s : State) (kind target index : Nat) : State :=
  if s.containBusy.isSome then s
  else if s.unitExists kind target index then
    { s with containErr := false, containBusy := some ⟨kind, target, index⟩ }.containUnit kind target index
  else { s with containErr := true }

/-- CONTAIN_PARTITION (R381). -/
def execContainPartition (core part : Nat) (s : State) : Host.Outcome State Fault Refusal := event (s.containGo 1 core part)
/-- CONTAIN_SLUICE (R381). -/
def execContainSluice (die sluice : Nat) (s : State) : Host.Outcome State Fault Refusal := event (s.containGo 2 die sluice)
/-- CONTAIN_MATRIX_ARRAY (R381). -/
def execContainMatrixArray (core part : Nat) (s : State) : Host.Outcome State Fault Refusal := event (s.containGo 3 core part)
/-- CONTAIN_SAMPLING_ARRAY (R381). -/
def execContainSamplingArray (core : Nat) (s : State) : Host.Outcome State Fault Refusal := event (s.containGo 4 core 0)
/-- CONTAIN_COLLECTIVE_ENGINE (R381). -/
def execContainCollectiveEngine (die : Nat) (s : State) : Host.Outcome State Fault Refusal := event (s.containGo 5 die 0)
/-- CONTAIN_DIE_LINK (R381). -/
def execContainDieLink (die other : Nat) (s : State) : Host.Outcome State Fault Refusal := event (s.containGo 6 die other)
/-- CONTAIN_SHAGAL_PORT (R381, R397). -/
def execContainShagalPort (port : Nat) (s : State) : Host.Outcome State Fault Refusal := event (s.containGo 7 0 port)
/-- CONTAIN_RESET_END (R381): BUSY clears. DEDUCED, log entry 86. -/
def execContainResetEnd (s : State) : Host.Outcome State Fault Refusal := event { s with containBusy := none }

/-! ### Scans (R390, R428-R430) -/

/-- Whole µs since a time in ns. -/
def State.usSince (s : State) (t : Nat) : Nat := (s.ns - t) / 1000
/-- A scan runs on a core. -/
def Core.scanning (c : Core) : Bool := decide (c.scan.state = 1)

/-- A scan run leaves nothing of a core's state: scratchpads zero, tiles free, tags, instruction cache and translations
empty. DEDUCED, log entry 87. -/
def State.wipeCore (s : State) (core : Nat) : State :=
  let t := s.updCo core fun c => { c with tiles := [], tags := [], icache := [], tlb := [], array := {} }
  { t with blocks := t.blocks.mapv fun b =>
      if core ∈ b.cores ∧ b.state ≠ .saved then { b with scratch := [], scratchPo := [] } else b }

/-- A running scan is aborted. -/
def State.abortScan (s : State) (core : Nat) : State :=
  if (s.co core).scanning then
    (s.wipeCore core).updCo core fun c =>
      { c with scan := { c.scan with state := 4, elapsed := s.usSince c.scan.since, observed := 0 } }
  else s

/-- The signature that a sound physical core gives for a pattern: for core 23 and pattern 2 the spec states it (R431).
DESIGN CHOICE, log entry 88. -/
def scanExpected (phys pattern : Nat) : Word :=
  if phys = 23 ∧ pattern = 2 then 0x3D710C4B#32 else Config.scanSignature phys pattern
/-- SCAN.RUN's effect. DESIGN CHOICE, log entry 88. -/
def State.scanRun (s : State) (core pattern : Nat) : State :=
  let c := s.co core
  if pattern = 0 then s.abortScan core
  else if c.scanning then s
  else if c.drained then
    s.updCo core fun c => { c with scan :=
      { pattern := pattern, state := 1, expected := (scanExpected (s.physOf core) pattern).toNat, since := s.ns } }
  else s.updCo core fun c => { c with scan := { pattern := pattern, state := 5 } }

/-- The core number in bits [7:0] of s[x]. -/
def State.coreArg (s : State) (x : Nat) : Nat := (s.s x).toNat % 256
/-- The checks of a logical core operand: the bits above it, then the core. -/
def coreCheck (bad : State → Bool) (absent : State → Nat → Bool) (x : Nat) (s : State) : Option Trap :=
  if bad s then some s.illegal
  else if s.ncores ≤ s.coreArg x ∨ absent s (s.coreArg x) then some s.unitAbsent else none

/-- SCAN.RUN: issues at once and writes nothing. -/
def scanRunInstr (h : Hdr) (y x : Nat) : State → State :=
  scalarInstr (.scanRun h y x) h
    (coreCheck (fun s => decide ((s.s x).toNat / 256 ≠ 0 ∨ 15 < (s.s y).toNat)) (fun s c => !s.inService c) x)
    (fun _ => true) fun s => s.scanRun (s.coreArg x) (s.s y).toNat
/-- SCAN.RUN (R390). -/
def execScanRun (h : Hdr) (y x : Nat) (s : State) : Host.Outcome State Fault Refusal := perform s (scanRunInstr h y x)
/-- SCAN.RUN with pattern 0 (R390): the same word. -/
def execScanRunAbort (h : Hdr) (y x : Nat) (s : State) : Host.Outcome State Fault Refusal := perform s (scanRunInstr h y x)

/-- The record of a core as SCAN.SIG returns it (R429). -/
def State.scanWords (s : State) (core : Nat) : List Word :=
  let r := (s.co core).scan
  [w32 (r.pattern * 65536 + r.state), w32 (if r.state = 1 then s.usSince r.since else r.elapsed), w32 r.observed, w32 r.expected]
/-- SCAN.SIG (R390, R429): the result lands on path 5. -/
def execScanSig (h : Hdr) (y x : Nat) (s : State) : Host.Outcome State Fault Refusal :=
  perform s (scalarInstr (.scanSig h y x) h
    (coreCheck (fun s => decide ((s.s x).toNat / 256 ≠ 0)) (fun _ _ => false) x) (State.roomFor 5) fun s =>
      let ws := s.scanWords (s.coreArg x)
      (ws.zipIdx.foldl (fun (t : State) w => t.setS (y + w.2) w.1) s).push
        { path := 5, regs := (regs y 4).map fun r => (.s, r, 1#32) })

/-- The run of a core is over. -/
def State.scanDue (s : State) (core : Nat) : Bool :=
  (s.co core).scanning && decide (100 * (s.co core).scan.pattern ≤ s.usSince (s.co core).scan.since)
/-- SCAN_END (R390, R429), with the signature that was observed. DESIGN CHOICE, log entry 88. -/
def execScanEnd (core observed : Nat) (s : State) : Host.Outcome State Fault Refusal :=
  event (
    if s.scanDue core then
      (s.wipeCore core).updCo core fun c =>
        { c with scan := { c.scan with
            state := if observed % 2 ^ 32 = c.scan.expected then 2 else 3, elapsed := 100 * c.scan.pattern
            observed := observed % 2 ^ 32 } }
    else s)

/-! ### Drain (R389) -/

/-- No block is bound on a core and its engines are idle. -/
def State.quiescent (s : State) (core : Nat) : Bool :=
  (s.blocks.all fun b => !b.2.live || decide (b.2.state = .saved ∨ b.2.state = .exited) || decide (core ∉ b.2.cores))
    && (s.co core).mmas.isEmpty && (s.co core).array.busy.isNone

/-- A DRAIN that waited gets its status, and its access may complete. -/
def State.endDrain (s : State) (w : DrainWait) (status : Nat) : State :=
  s.updG w.gid fun g =>
    let release (l : List Access) : List Access :=
      l.map fun a => if a.hold ∧ a.regs = [(.s, w.reg, 1#32)] then { a with hold := false } else a
    if g.live then { (g.setS w.reg (w32 status)) with inflight := release g.inflight } else g
/-- Every DRAIN waiting on a core gets a status. -/
def State.endDrains (s : State) (core status : Nat) : State :=
  ((s.co core).drains.foldl (fun (t : State) w => t.endDrain w status) s).updCo core fun c => { c with drains := [] }

/-- The drain mark is cleared: DRAINs that wait return 5, or 0 where the core has come to be quiescent, and a running scan is
aborted. -/
def State.undrain (s : State) (core : Nat) : State :=
  if (s.co core).drained then ((s.endDrains core (if s.quiescent core then 0 else 5)).abortScan core).updCo core fun c => { c with drained := false } else s

/-- DRAIN returns a status now. -/
def State.drainResult (s : State) (reg status : Nat) : State :=
  (s.setS reg (w32 status)).push { path := 5, regs := [(.s, reg, 1#32)] }

/-- DRAIN in mode 0 or 1. DEDUCED, log entry 89. -/
def State.drain (s : State) (core mode reg : Nat) : State :=
  let own := decide (core = s.cg.core) || decide (s.cb.partner = some core)
  if own then s.drainResult reg 3
  else if core = 0 then s.drainResult reg 4
  else if (s.co core).drained then s.drainResult reg 2
  else
    let t := (s.updCo core fun c => { c with drained := true }).withdrawBinds core
    if ¬ s.inService core then t.drainResult reg 0
    else
      let t := if mode = 1 then
          (t.blocks.filter fun b => decide (core ∈ b.2.cores)).foldl (fun (u : State) b => u.preempt b.1) t
        else t
      (t.push { path := 5, regs := [(.s, reg, 1#32)], hold := true }).updCo core fun c =>
        { c with drains := c.drains ++ [⟨s.cur.gid, reg⟩] }

/-- The mode of DRAIN. -/
def State.drainMode (s : State) (x : Nat) : Nat := bits (s.s x).toNat 9 8
/-- DRAIN by its mode. -/
def drainInstr (h : Hdr) (y x : Nat) : State → State :=
  scalarInstr (.drain h y x) h
    (coreCheck (fun s => decide ((s.s x).toNat / 1024 ≠ 0 ∨ s.drainMode x = 3)) (fun _ _ => false) x) (State.roomFor 5) fun s =>
      let c := s.coreArg x
      if s.drainMode x = 2 then (s.undrain c).drainResult y (if (s.co c).drained then 0 else 2)
      else s.drain c (s.drainMode x) y
/-- DRAIN (R389). -/
def execDrain (h : Hdr) (y x : Nat) (s : State) : Host.Outcome State Fault Refusal := perform s (drainInstr h y x)
/-- DRAIN in mode 1 (R389): the same word. -/
def execDrainPreempt (h : Hdr) (y x : Nat) (s : State) : Host.Outcome State Fault Refusal := perform s (drainInstr h y x)
/-- DRAIN in mode 2 (R389): the same word. -/
def execDrainClear (h : Hdr) (y x : Nat) (s : State) : Host.Outcome State Fault Refusal := perform s (drainInstr h y x)

/-- DRAIN_QUIESCENT (R389): the DRAINs that wait on a core return 0. -/
def execDrainQuiescent (core : Nat) (s : State) : Host.Outcome State Fault Refusal :=
  event (if (s.co core).drains ≠ [] ∧ s.quiescent core then s.endDrains core 0 else s)

/-- FIRMWARE_SCAN_ABORT (R428): the effect of DRAIN mode 2, where a scan runs. -/
def execFirmwareScanAbort (core : Nat) (s : State) : Host.Outcome State Fault Refusal :=
  event (if (s.co core).scanning then s.undrain core else s)

/-! ### The core map (R391) -/

/-- A physical core serves a logical core. -/
def State.serves (s : State) (p : Nat) : Bool := (List.range s.ncores).any fun c => s.inService c && decide (s.physOf c = p)
/-- Logical core c goes to physical core p, or out of service: its old physical core has failed. -/
def State.remap (s : State) (c : Nat) (p : Option Nat) : State :=
  let t : State := { s with
    map := s.map.put c (match p with
      | some p => if p = 51 * (c / 48) + c % 48 then .home else .phys p
      | none => .removed)
    failedCores := if s.inService c then s.failedCores ++ [s.physOf c] else s.failedCores }
  match p with
  | some p => if 48 ≤ p % 51 then t.updDi (c / 48) fun d => { d with sparesUsed := if p ∈ d.sparesUsed then d.sparesUsed else d.sparesUsed ++ [p] }
    else t
  | none => t
/-- Deterministic grids that are not bound when a core leaves service are Killed (R355, R434). -/
def State.killUnbound (s : State) : State :=
  (s.grids.filter fun g => g.2.live && g.2.p.det && !g.2.terminal && decide (g.2.state ≠ .running)).foldl
    (fun (t : State) g => t.endGrid g.1 .killed) s

/-- The status of CMAP.SET, and whether it changes the map. DEDUCED, log entry 90. -/
def State.cmapStatus (s : State) (c : Nat) (p : Nat) : Nat × Bool :=
  if s.inService c ∧ p = s.physOf c then (0, false)
  else if ¬ (s.co c).drained then (1, false)
  else if (s.co c).scanning then (4, false)
  else if p = 0xFFFFFFFF then (0, true)
  else if p / 51 ≠ c / 48 then (2, false)
  else if s.serves p ∨ p ∈ s.failedCores then (3, false)
  else (0, true)
/-- CMAP.SET's effect on the map. DEDUCED, log entry 90. -/
def State.cmapSet (s : State) (c p : Nat) : State :=
  if ¬ (s.cmapStatus c p).2 then s
  else if p = 0xFFFFFFFF then (s.remap c none).killUnbound
  else s.remap c (some p)
/-- CMAP.SET by its operands; the status goes to s[x + 1] on path 5. -/
def cmapInstr (h : Hdr) (y x : Nat) : State → State :=
  scalarInstr (.cmapSet h y x) h
    (coreCheck (fun s => decide ((s.s x).toNat / 256 ≠ 0)) (fun _ _ => false) x) (State.roomFor 5) fun s =>
      let c := s.coreArg x
      let p := (s.s y).toNat
      ((s.cmapSet c p).setS (x + 1) (w32 (s.cmapStatus c p).1)).push { path := 5, regs := [(.s, x + 1, 1#32)] }
/-- CMAP.SET (R391). -/
def execCmapSet (h : Hdr) (y x : Nat) (s : State) : Host.Outcome State Fault Refusal := perform s (cmapInstr h y x)
/-- CMAP.SET with 0xFFFF_FFFF (R391, R434): the same word. -/
def execCmapSetRemove (h : Hdr) (y x : Nat) (s : State) : Host.Outcome State Fault Refusal := perform s (cmapInstr h y x)

end Sys2Proof.Machine
end

