-- ==== Sys2Proof/Machine/HostLink.lean ====
section
/-! DEFINITION. The host link, bring-up and power (01_machine.md R22, R28, R37; 12_launch.md R347; 13_traps.md R380, R392;
14_fabric.md R408-R415). -/

namespace Sys2Proof.Machine

open Sys2Proof

/-! ### Host messages (R409, R410) -/

/-- A write to an inlet is a message: 64 bytes with VALID = 1 and LEN from 1 to 60 (R347). -/
def wellFormedMsg (bytes : List Byte) : Bool :=
  let hdr := field32 bytes 0
  decide (bytes.length = 64) && bit hdr 31 && decide (1 ≤ hdr % 65536 ∧ hdr % 65536 ≤ 60)
/-- A host write to INLET q: another write than a message is dropped, and one to a full queue is held.
DEDUCED, log entry 100. -/
def State.inletWrite (s : State) (q : Nat) (bytes : List Byte) : State :=
  if 16 ≤ q then s
  else if ¬ wellFormedMsg bytes then { s with drops := s.drops + 1 }
  else if 256 ≤ (s.inlets.get q).length then { s with inletHeld := s.inletHeld.upd q fun l => l ++ [bytes] }
  else s.accept q bytes
/-- INLET_WRITE (R409). -/
def execInletWrite (q : Nat) (bytes : List Byte) (s : State) : Host.Outcome State Fault Refusal := event (if s.powered then s.inletWrite q bytes else s)

/-- The oldest message of an outlet is written to the host, and MSI-X vector q is raised. -/
def State.outletWrite (s : State) (q : Nat) : State :=
  match s.outlets.get q with
  | m :: rest =>
    let n := s.outprod.get q
    let t := s.agentWrite none { kind := 7 } (.host (s.outbase + 16384 * q + 64 * (n % 256))) m false
    { t with
      outlets := t.outlets.put q rest, outprod := t.outprod.put q ((n + 1) % 2 ^ 32), hostOut := t.hostOut ++ [.msix q] }
  | [] => s
/-- OUTLET_WRITE (R410). -/
def execOutletWrite (q : Nat) (s : State) : Host.Outcome State Fault Refusal := event (s.outletWrite q)
/-- OUTCONS_WRITE (R408, R410). -/
def execOutconsWrite (q value : Nat) (s : State) : Host.Outcome State Fault Refusal :=
  event (if q < 16 then { s with outcons := s.outcons.put q (value % 2 ^ 32) } else s)

/-! ### BAR0 and the memory aperture (R408, R411) -/

/-- LINKST (R408), and INCRED of a queue. -/
def State.linkst (s : State) : Nat := s.linkUp.toNat + 2 * s.linkUp.toNat
def State.incred (s : State) (q : Nat) : Nat := 256 - (s.inlets.get q).length
/-- The register of BAR0 at an offset, as the host reads it; none where R408 names none that can be read. -/
def State.bar0 (s : State) (off : Nat) : Option Nat :=
  let q := off % 0x100 / 8
  if off % 8 ≠ 0 then none
  else match off / 0x100 with
    | 0 => [0x4C4D0001, s.linkst, s.winbase, s.drops % 2 ^ 64][q]?
    | 1 => if q < 16 then some (s.incred q) else none
    | 2 => if q < 16 then some (s.outprod.get q) else none
    | 3 => if q < 16 then some (s.outcons.get q) else none
    | 4 => if q = 0 then some s.outbase else none
    | _ => none
/-- A read of BAR0: 8 bytes, free where there is no register. DESIGN CHOICE, log entry 124. DEDUCED, log entry 100. -/
def State.bar0Read (s : State) (off : Nat) : State :=
  let (a, t) := s.drawWord
  let (b, t) := t.drawWord
  match s.bar0 off with
  | some v => { s with hostOut := s.hostOut ++ [.readData (leBytes 8 v)] }
  | none => { t with hostOut := t.hostOut ++ [.readData (leBytes 8 (pair a b))] }

/-- Device PA of an offset in the aperture. -/
def State.windowPa (s : State) (off : Nat) : Nat := s.winbase * 2 ^ 36 + off
/-- A host access: the registers of BAR0 belong to the adapter, which answers without the link too; the aperture needs it.
DEDUCED, log entry 100. -/
def State.hostAccess (s : State) (acc : HostAcc) : State :=
  match acc with
  | .load off n =>
    if s.linkUp ∧ off + n ≤ 2 ^ 36 then
      { s with hostOut := s.hostOut ++ [.readData (s.devBytes (s.windowPa off) n)] }
    else s
  | .store off bytes =>
    if s.linkUp ∧ off + bytes.length ≤ 2 ^ 36 then s.outsideWrite hostAgent 6 (s.windowPa off) bytes false else s
  | .winbase value => { s with winbase := value % 1024 }
  | .outbase value => { s with outbase := value % 2 ^ 64 / 65536 * 65536 }
  | .reg off => s.bar0Read off
  | .own addr bytes => s.agentWrite none hostAgent (.host addr) bytes false
/-- HOST_APERTURE_ACCESS (R408, R411). -/
def execHostApertureAccess (acc : HostAcc) (s : State) : Host.Outcome State Fault Refusal := event (s.hostAccess acc)

/-! ### Attestation and firmware (R392, R413) -/

/-- The logical core map as a report gives it: the physical core plus 1 of each core in service. -/
def State.mapReport (s : State) : SMap Nat := SMap.tab s.ncores fun c => if s.inService c then s.physOf c + 1 else 0
/-- A signed report on a nonce (R413): the digest of each image, the core map and DEVCAP. The digest and the signature are
functions that nothing looks into. DESIGN CHOICE, log entry 117. -/
def State.attestation (s : State) (nonce : List Byte) : HostMsg :=
  let nonce := (nonce ++ List.replicate 64 0#8).take 64
  let digests := s.images.map Config.sha512
  let map := (List.range s.ncores).map fun c => BitVec.ofNat 8 (s.mapReport.get c)
  .report nonce digests s.mapReport s.devcap (Config.attest (nonce ++ digests.flatten ++ map ++ wordBytes s.devcap))
/-- ATTESTATION_REQUEST (R413): a report, or a refusal once the keys are gone. DESIGN CHOICE, log entry 117. -/
def execAttestationRequest (nonce : List Byte) (s : State) : Host.Outcome State Fault Refusal :=
  event (
    if s.powered then
      { s with hostOut := s.hostOut ++ [if s.keys ∧ s.provisioned then s.attestation nonce else .refusedReport] }
    else s)
/-- PROVISIONING_COMMAND (R413): one that is signed under the fused key provisions the module again. -/
def execProvisioningCommand (signed : Bool) (s : State) : Host.Outcome State Fault Refusal :=
  event (if s.powered ∧ signed then { s with keys := true, provisioned := true } else s)
/-- FIRMWARE_UPDATE_REQUEST (R392, R413): refused without the keys; an image whose signature fails raises the alarm. -/
def execFirmwareUpdateRequest (signed : Bool) (s : State) : Host.Outcome State Fault Refusal :=
  event (
    if ¬ s.powered then s
    else if ¬ s.keys then { s with hostOut := s.hostOut ++ [.refusedUpdate] }
    else if signed then s
    else { s.alarm 4 with hostOut := (s.alarm 4).hostOut ++ [.refusedUpdate] })

/-! ### Power (R22, R28, R37, R380, R415) -/

/-- What outlasts the loss of power: the controller's non-volatile storage, and what lies outside the module.
DEDUCED, log entry 97. -/
def State.afterPowerLoss (s : State) : State :=
  let dies : SMap Die := s.dies.mapv fun d => { sparesUsed := d.sparesUsed }
  { State.resetPart s.part with
    map := s.map, failedCores := s.failedCores, dies := dies, keys := s.keys, provisioned := s.provisioned
    hostMem := s.hostMem, peerMem := s.peerMem, hostOut := s.hostOut, free := s.free, inputs := s.inputs }
/-- POWER_LOSS (R28). -/
def execPowerLoss (s : State) : Host.Outcome State Fault Refusal := event { s.afterPowerLoss with powered := false }
/-- MODULE_RESET (R380): as a loss of power, but for the alarm, which only power-up clears (R392).
DEDUCED, log entry 97. -/
def execModuleReset (s : State) : Host.Outcome State Fault Refusal :=
  event (if s.powered then { s.afterPowerLoss with alarmed := s.alarmed, alarmSrc := s.alarmSrc } else s)
/-- HEADGATE_FAULT (R380): the firmware is restarted; resident work runs on and queued grids are kept. -/
def execHeadgateFault (_die : Nat) (s : State) : Host.Outcome State Fault Refusal := event s

/-- The core clock at its full rate, in kHz (R22). -/
def fullClock : Nat := 3300000
/-- The clock falls: to a given rate, where that is a lower one, or to a free one (R415). DESIGN CHOICE, log entry 118. -/
def State.lowerClock (s : State) (khz : Nat) : State :=
  if 0 < khz ∧ khz < s.khz then { s with khz := khz }
  else { s with khz := max 1 (Config.pick s.free % max 1 s.khz), free := s.free + 1 }
/-- THERMAL_THROTTLE (R415): from 95 °C the clock falls; at 125 °C it is at its lowest and the alarm fires.
DESIGN CHOICE, log entry 118. -/
def execThermalThrottle (celsius khz : Nat) (s : State) : Host.Outcome State Fault Refusal :=
  event (
    if ¬ s.powered then s
    else if 125 ≤ celsius then State.alarm { s with khz := min s.khz (max 1 Config.lowClock) } 2
    else if 95 ≤ celsius then s.lowerClock khz else s)
/-- POWER_LIMIT_CLOCK (R22, R37). DEDUCED, log entry 99. -/
def execPowerLimitClock (khz : Nat) (s : State) : Host.Outcome State Fault Refusal :=
  event (if s.powered ∧ 0 < khz ∧ khz ≤ fullClock then { s with khz := khz } else s)

/-! ### Bring-up and the control grid (R412, R414) -/

/-- The control grid's parameters: those of the image, as R414 fixes them. -/
def controlParams (bytes : List Byte) : Params :=
  { parseParams bytes with
    privileged := true, persist := true, prio := 7, det := false, paired := false, idem := false, clust := 1, gridx := 1, gridy := 1
    gridz := 1, groups := ctlGroups, scratch := ctlScratch, deps := [], wqCount := 0 }
/-- The firmware starts the control grid on logical core 0, where it waits for its slots like any other grid (R350); it does
not start where its code cannot be read.
DESIGN CHOICE, log entry 8. -/
def State.startControl (s : State) : State :=
  let p := controlParams s.ctlParams
  match (s.headerBytes {} true p.code).1 with
  | some hdr =>
    let (h, t) := s.addGrid p (headerObj p.code hdr)
    let t := (t.dequeue h).updGr h fun g => { g with admitted := true }
    outState (execBlockBind h 0 [0] { t with ctlGrid := some h }) t
  | none => s

/-- The controller scans the core that serves logical core 0; on a mismatch a spare of die 0 takes its place. -/
def State.bootScan (s : State) (pass : Bool) : State :=
  if pass then s
  else match [48, 49, 50].find? fun p => !s.serves p && decide (p ∉ s.failedCores) with
    | some p => s.remap 0 (some p)
    | none => s

/-- The module comes up (R412): firmware places what the image brings, the link and the tick start, and the control grid
runs. DESIGN CHOICE, log entry 8; DESIGN CHOICE, log entry 9; DEDUCED, log entry 93; DEDUCED, log entry 101. -/
def State.bringUp (s : State) (img : BootImage) : State :=
  let mem : Memory := img.cells.foldl (fun (m : Memory) (c : Nat × Byte) => m.put (c.1 % 2 ^ 46) c.2) s.mem
  let routes : SMap (List Nat) := img.routes.foldl (fun (m : SMap (List Nat)) (r : Nat × List Nat) => m.put r.1 r.2) []
  let t : State := { s with
    broughtUp := true, linkUp := true, mem := mem
    ttblo := w32 img.ttblo &&& 0xFFFFFF01#32, ttbhi := w32 img.ttbhi &&& 0x3FFF#32, fabid := fabidOf img.fabid
    routes := routes, ctlParams := img.params, images := img.images }
  let t := if t.fabSize = 1 then { t with locked := true, tickAt := t.ns + t.tickInUse } else t
  (t.bootScan img.scanPass).startControl

/-- POWER_UP (R392, R412-R414): an image that does not verify does not run, and raises the alarm. -/
def execPowerUp (img : BootImage) (s : State) : Host.Outcome State Fault Refusal :=
  event (
    if s.powered ∧ s.broughtUp then s
    else
      let t := { s with powered := true, cycle := if s.powered then s.cycle else 0 }
      if img.verified then t.bringUp img else t.alarm 4)

/-- CONTROL_GRID_RESTART (R414): the control grid faulted, and the controller starts it again. -/
def execControlGridRestart (s : State) : Host.Outcome State Fault Refusal :=
  event (match s.ctlGrid with
    | some h => if (s.gr h).state = .faulted then (s.countUncorr 0).startControl else s
    | none => s)

end Sys2Proof.Machine
end

