-- ==== Sys2Proof/Machine/Pair.lean ====
section
/-! DEFINITION. Redundant pairs (13_traps.md R386, R387). The two members run in step, so the model holds one copy of what
both have; that their CRCs differ at a comparison is an event. -/

namespace Sys2Proof.Machine

open Sys2Proof

/-- Whether an instruction stores, is an atomic or is an engine command: what of its registers the pair CRC covers. -/
def pairHashes : Instr → Bool
  | .st _ _ _ _ _ _ | .sts _ _ _ _ _ | .sStW _ _ _ _ | .sStD _ _ _ _ | .sStQ _ _ _ _ | .sStRelW _ _ _ _ => true
  | .sAtomAdd _ _ _ _ | .sAtomCas _ _ _ _ | .mxStraw _ _ _ => true
  | .cpTensor _ _ _ | .cpLin _ _ | .cpGather _ _ _ | .cpScatter _ _ _ | .cpFollow _ _ _ | .cpCancel _ _ | .mxMma _ _ _ => true
  | .smCfg _ _ | .smLdc _ _ | .smLdb _ _ | .smClamp _ _ | .smInit _ _ | .smKey _ _ _ | .smSweep _ _ | .smRead _ _
  | .smHlth _ _ | .smBx _ _ | .colRed _ _ | .colBcast _ _ | .colGath _ _ => true
  | .atomAdd _ _ _ _ _ | .atomAnd _ _ _ _ _ | .atomOr _ _ _ _ _ | .atomXor _ _ _ _ _ | .atomSmin _ _ _ _ _
  | .atomSmax _ _ _ _ _ | .atomUmin _ _ _ _ _ | .atomUmax _ _ _ _ _ | .atomExch _ _ _ _ _ | .atomCas _ _ _ _ _
  | .atomFadd _ _ _ _ _ | .atomFmin _ _ _ _ _ | .atomFmax _ _ _ _ _ | .atomAdd64 _ _ _ _ _ | .atomExch64 _ _ _ _ _
  | .atomCas64 _ _ _ _ _ => true
  | _ => false

/-- The words that the pair CRC takes in for a plane issue: the offset and the word; the registers of a store, an atomic
or an engine command, in the lanes of the plane; and the image of a tile that is stored. DEDUCED, log entry 84. -/
def State.pairWords (s : State) (i : Instr) (off word : Nat) : List Nat :=
  let u := uses i
  [off, word] ++
    (if pairHashes i then
      (lanesOf (s.laneActive (hdrOfCode (.word word [])))).flatMap (fun l => u.rv.map fun r => (s.v r l).toNat)
        ++ u.rs.map fun r => (s.s r).toNat
    else []) ++
    match i with
    | .mxStraw _ _ t => (List.range (imageBytes / 4)).map (field32 (s.seenTile t).image <| 4 * ·)
    | _ => []
/-- The pair CRC of the issuing group after a plane issue (R386, R75). DEDUCED, log entry 84. -/
def State.pairFold (s : State) (i : Instr) (off word : Nat) : Word :=
  (s.pairWords i off word).foldl crcWord s.cg.pairCrc

/-- The members differ at a comparison: the buffer is discarded, and the region restarts; the second time in a region the
group ends on both cores. DEDUCED, log entry 83. -/
def State.pairDiffer (s : State) (gid : Nat) : State :=
  let g := s.g gid
  let t := s.updG gid fun g => { g with pairBuf := [], pairBad := false }
  if g.pairTry = 0 then (t.updG gid fun g => { g with pairTry := 1, pairCrc := crcInit }).restart gid
  else
    let partner := match (s.b g.bid).partner with
      | some c => s.physOf c
      | none => 0xFF
    t.trap gid { code := 0x18, tval := w32 partner }

/-- An instruction has compared, if it got as far as its comparison: members that differ undo it, and the group restarts its
region or ends; s is the state before the issue, t the one after it. -/
def State.compare (s t : State) : State :=
  if ¬ t.cg.compared then t
  else if s.cg.pairBad then
    let u := s.pairDiffer s.cur.gid
    { u with cur := { u.cur with issued := true, trapped := true } }
  else t.updCG fun g => { g with compared := false }

/-- PAIR_COMPARE (R386): the members of a group that runs have come to differ, as their next comparison finds; or they
compare, their buffer being full, and match. -/
def execPairCompare (gid : Nat) (differ : Bool) (s : State) : Host.Outcome State Fault Refusal :=
  event (
    if s.paired gid ∧ (s.g gid).live ∧ (s.g gid).stop = .running then
      if differ then s.updG gid fun g => { g with pairBad := true }
      else if 64 ≤ (s.g gid).pairBuf.length ∧ ¬ (s.g gid).pairBad then
        (s.pairFlush gid).updG gid fun g => { g with compared := false }
      else s
    else s)

end Sys2Proof.Machine
end

