-- ==== Sys2Proof/Machine/SysReg.lean ====
section
/-! DEFINITION. S.RDSYS and S.WRSYS (02_encoding.md R65, R71; 04_scalar.md R118) with every system register: R16, R32-R34,
R187, R208, R211, R287, R321, R361, R393, R397, R404, R406. -/

namespace Sys2Proof.Machine

open Sys2Proof

/-- TQSTAT and ERRCNT of a die (R361). -/
def Die.tqstat (d : Die) : Word :=
  w32 (d.mchk.toNat * 2 ^ 31 + d.badtok.toNat * 2 ^ 30 + d.drop * 2 ^ 16 + d.reservedUsed * 2 ^ 12 + d.queue.length)
def Die.errcnt (d : Die) : Word := w32 (d.uncorr * 2 ^ 16 + d.corr)

/-- A system register as a group on a core reads it; a reserved number reads 0. TICKLO is read by `sysReg`'s caller,
since the read latches TICKHI. -/
def State.sysReg (s : State) (core n : Nat) : Word :=
  let c := s.co core
  let d := s.di (dieOf core)
  match n with
  | 0 => s.devcap
  | 1 => s.sparecnt
  | 2 | 3 | 4 | 5 | 6 | 7 => s.insvc (n - 2)
  | 8 => c.execctl
  | 9 => c.tveclo
  | 10 => c.tvechi
  | 11 => c.tfblo
  | 12 => c.tfbhi
  | 13 => c.tdeleg
  | 14 => c.tctl
  | 15 => c.wdlimit
  | 16 => s.rgrace
  | 17 => s.prectl
  | 18 => s.tqrtok
  | 20 => d.tqstat
  | 21 => s.contain
  | 22 => w32 (2 * s.containErr.toNat + s.containBusy.isSome.toNat)
  | 23 => w32 (s.alarmed.toNat * 2 ^ 31 + s.alarmSrc)
  | 25 => d.errcnt
  | 32 => s.ttblo
  | 33 => s.ttbhi
  | 34 => c.scrblo
  | 35 => c.scrbhi
  | 36 => c.tlbinvlo
  | 37 => c.tlbinvhi
  | 38 => ofBool c.inv.isSome
  | 48 => s.fabid
  | 49 => s.tickper
  | 50 => loW s.tick
  | 51 => s.tickHi
  | 52 => s.mirctl
  | 53 => w32 s.mirstat
  | 54 => s.portst
  | 64 => s.adirlo
  | 65 => s.adirhi
  | 66 => c.mxctl
  | 67 => c.smctl
  | _ => 0#32

/-- S.RDSYS's effect. -/
def State.rdsys (s : State) (d n : Nat) : State :=
  let w := s.sysReg s.cg.core n
  let t := if n = 50 then s.tickRead.2 else s
  t.setS d w
/-- S.RDSYS (R118): the numbers 0 to 7 at every level (R34). -/
def execSRdsys (h : Hdr) (d a : Nat) (s : State) : Host.Outcome State Fault Refusal :=
  perform s (scalarOnly (.sRdsys h d a) h fun s => s.rdsys d a)

/-- A write may complete now: one that starts something waits for what the register's entry names.
DEDUCED, log entry 38. -/
def State.wrsysReady (s : State) (core n : Nat) (v : Word) : Bool :=
  match n with
  | 21 => s.containBusy.isNone
  | 36 => !v.getLsbD 0 || (s.co core).inv.isNone
  | 48 => s.fabidReady v.toNat
  | 64 | 65 => s.adaptersEmpty
  | _ => true

/-- A write of CONTAIN (R381). -/
def State.containWrite (s : State) (v : Word) : State :=
  let t := { s with contain := v &&& 0x0FFFFF00#32 }
  if v.getLsbD 31 then t.containGo (bits v.toNat 27 24) (bits v.toNat 23 16) (bits v.toNat 15 8) else t
/-- A write of TLBINVLO (R211). -/
def State.tlbinvWrite (s : State) (core : Nat) (v : Word) : State :=
  let t := s.updCo core fun c => { c with tlbinvlo := v &&& 0xFFFF0002#32 }
  if v.getLsbD 0 then t.tlbInvalidate core else t

/-- A write of a system register for a group on a core: RO and reserved fields keep their values. -/
def State.sysWrite (s : State) (core n : Nat) (v : Word) : State :=
  let upd (f : Core → Core) : State := s.updCo core f
  match n with
  | 8 => upd fun c => { c with execctl := v &&& 1#32 }
  | 9 => upd fun c => { c with tveclo := v &&& 0xFFFF0000#32 }
  | 10 => upd fun c => { c with tvechi := v &&& 0x000FFFFF#32 }
  | 11 => upd fun c => { c with tfblo := v &&& 0xFFFF0000#32 }
  | 12 => upd fun c => { c with tfbhi := v &&& 0x000FFFFF#32 }
  | 13 => upd fun c => { c with tdeleg := v &&& 0x0067CCFE#32 }
  | 14 => upd fun c => { c with tctl := v &&& 3#32 }
  | 15 => upd fun c => { c with wdlimit := v }
  | 16 => { s with rgrace := v }
  | 17 => { s with prectl := v }
  | 18 => { s with tqrtok := v }
  | 19 =>
    match v.toNat % 4 with
    | 1 => s.tqract false
    | 2 => s.tqract true
    | _ => s
  | 20 => if v.getLsbD 30 then s else s.updDi (dieOf core) fun d => { d with badtok := false }
  | 21 => s.containWrite v
  | 24 => s.keyerase v.toNat
  | 32 => { s with ttblo := v &&& 0xFFFFFF01#32 }
  | 33 => { s with ttbhi := v &&& 0x3FFF#32 }
  | 34 => upd fun c => { c with scrblo := v &&& 0xFFE00001#32 }
  | 35 => upd fun c => { c with scrbhi := v &&& 0x000FFFFF#32 }
  | 36 => s.tlbinvWrite core v
  | 37 => upd fun c => { c with tlbinvhi := v &&& 0x000FFFFF#32 }
  | 48 => s.fabidWrite v.toNat
  | 49 => s.tickperWrite v.toNat
  | 52 => s.mirctlWrite v.toNat
  | 64 | 65 => s.adirWrite n v.toNat
  | 66 => upd fun c => { c with mxctl := v &&& 1#32 }
  | 67 => s.smctlWrite core v.toNat
  | _ => s

/-- S.WRSYS (R118): a reserved number is ILLEGAL for a privileged group. DEDUCED, log entry 38. -/
def execSWrsys (h : Hdr) (d a : Nat) (s : State) : Host.Outcome State Fault Refusal :=
  perform s (scalarInstr (.sWrsys h d a) h (fun _ => none)
    (fun s => s.wrsysReady s.cg.core a (s.s d)) fun s => s.sysWrite s.cg.core a (s.s d))

end Sys2Proof.Machine
end

