-- ==== Sys2Proof/Machine/XLane.lean ====
section
/-! DEFINITION. The cross-lane instructions (06_lane.md R172-R182). -/

namespace Sys2Proof.Machine

open Sys2Proof

/-- Absent lanes of the issuing split (R173). -/
def State.absent (s : State) : LaneMask := s.cg.mmask &&& ~~~ s.liveS
/-- The lanes that a selection may read (R175, R179). -/
def State.present (s : State) : LaneMask := s.cg.mmask &&& s.liveS

/-- No named lane is held, or stands in another split at a lower offset (R174). -/
def State.xReady (s : State) : Bool :=
  let named := s.cg.mmask &&& s.cg.alive
  decide (named &&& s.cg.held = 0#32) &&
    s.cg.liveSlots.all fun k =>
      decide (k = s.cur.slot) || decide (s.cs.offset ≤ (s.cg.splits.get k).offset)
        || decide ((s.cg.splits.get k).mask &&& named = 0#32)

/-- Forming the sets sets XABSENT where lanes are absent (R175). -/
def State.formSets (s : State) : State := if s.absent = 0#32 then s else s.stick [xAbsent]

/-- An XLANE that forms the three sets (R173-R175): while it is not ready it does not issue, whatever its guard and its
operands (R174). -/
def xlane (i : Instr) (h : Hdr) (act : State → State) (s : State) : State :=
  if s.wordTrap i = none ∧ ¬ s.xReady then s.wait
  else scalarOnly i h (fun s => act s.formSets) s

/-- Some contributor's operand is poisoned (R181). -/
def State.anyV (s : State) (h : Hdr) (a : Nat) : Bool := (lanesOf (s.active h)).any fun l => s.vp a l
def State.anyP (s : State) (h : Hdr) (q : Nat) : Bool := (lanesOf (s.active h)).any fun l => s.pp q l

/-- The contributions of a lane: its operand, 0 if it is absent, none otherwise (R173). -/
def State.contrib (s : State) (h : Hdr) (a l : Nat) : Option Word :=
  if inMask (s.active h) l then some (s.v a l) else if inMask s.absent l then some 0#32 else none
/-- All contributions in lane order. -/
def State.contribs (s : State) (h : Hdr) (a : Nat) : List Word := (List.range 32).filterMap (s.contrib h a)

/-- sd := a value computed from the votes of the contributors (R176). -/
def xvote (i : Instr) (h : Hdr) (d q : Nat) (f : State → Word) : State → State :=
  xlane i h fun s => s.setS d (f s) (s.anyP h q)
/-- sd := a reduction of the contributions (R176). -/
def xred (i : Instr) (h : Hdr) (d a : Nat) (f : State → Word) : State → State :=
  xlane i h fun s => s.setS d (f s) (s.anyV h a)

/-- The pairwise combination of one level of the tree (R177). A contribution that meets no other passes on as it is, a NaN
with its payload. DESIGN CHOICE, log entry 107. -/
def treeLevel : List (Option Word) → List (Option Word)
  | x :: y :: r =>
    (match x, y with
      | none, y => y
      | x, none => x
      | some a, some b => some (faddw a b)) :: treeLevel r
  | l => l
/-- REDFADD's tree over 32 leaves (R177). -/
def treeSum (leaves : List (Option Word)) : Word :=
  match treeLevel (treeLevel (treeLevel (treeLevel (treeLevel leaves)))) with
  | some x :: _ => x
  | _ => 0#32

/-- AMAX (R176): the largest magnitude, NaN if any contribution is NaN. -/
def amaxw (xs : List Word) : Word :=
  if xs.any fun x => decide (fv x = .nan) then nan32
  else xs.foldl (fun m x => maxu m (x &&& 0x7FFFFFFF#32)) 0#32

/-- The inclusive scan (R178), whose first contribution is passed on as it is, a NaN with its payload (DESIGN CHOICE, log
entry 107): vd of each contributor, poisoned from the first poisoned contribution on. DESIGN CHOICE, log entry 107. -/
def xscan (h : Hdr) (d a : Nat) (op : Word → Word → Word) (s : State) : State :=
  ((List.range 32).foldl
    (fun (acc : Option Word × Bool × State) l =>
      match s.contrib h a l with
      | none => acc
      | some x =>
        let v := match acc.1 with
          | none => x
          | some y => op y x
        let act := inMask (s.active h) l
        let po := acc.2.1 || (act && s.vp a l)
        (some v, po, if act then acc.2.2.setV d l v po else acc.2.2))
    (none, false, s)).2.2

/-- MATCH (R179). -/
def xmatch (h : Hdr) (d a : Nat) (s : State) : State :=
  let c := s.active h
  forLanes c s fun t l =>
    t.setV d l (maskOf fun k => inMask c k && decide (s.v a k = s.v a l)) (s.anyV h a)

/-- SHFL (R179): every source is read before any destination is written. -/
def xshfl (h : Hdr) (d a : Nat) (s : State) : State :=
  let src (l : Nat) : Nat := (s.v d l).toNat % 32
  let t := forLanes (s.active h) s fun t l =>
    if inMask s.present (src l) then t.setV d l (s.v a (src l)) (s.vp d l || s.vp a (src l))
    else t.setV d l 0#32 (s.vp d l)
  if (lanesOf (s.active h)).any fun l => !inMask s.present (src l) then t.stick [xAbsent] else t

/-- RDLANE (R179, R181). -/
def xrdlane (d a : Nat) (s : State) : State :=
  let src := (s.s d).toNat % 32
  if inMask s.present src then s.setS d (s.v a src) (s.vp a src) else (s.setS d 0#32).stick [xAbsent]

/-! ### The meanings -/

/-- VOTEANY (R176). -/
def execVoteany (h : Hdr) (d q : Nat) (s : State) : Host.Outcome State Fault Refusal :=
  perform s (xvote (.voteany h d q) h d q (fun s => ofBool ((lanesOf (s.active h)).any fun l => s.p q l)))

/-- VOTEALL (R176). -/
def execVoteall (h : Hdr) (d q : Nat) (s : State) : Host.Outcome State Fault Refusal :=
  perform s (xvote (.voteall h d q) h d q (fun s => ofBool (decide (s.absent = 0#32) && (lanesOf (s.active h)).all fun l => s.p q l)))

/-- BALLOT (R176). -/
def execBallot (h : Hdr) (d q : Nat) (s : State) : Host.Outcome State Fault Refusal :=
  perform s (xvote (.ballot h d q) h d q (fun s => maskOf fun l => inMask (s.active h) l && s.p q l))

/-- REDADD (R176). -/
def execRedadd (h : Hdr) (d a : Nat) (s : State) : Host.Outcome State Fault Refusal :=
  perform s (xred (.redadd h d a) h d a (fun s => (s.contribs h a).foldl (fun x y => x + y) 0#32))

/-- REDFADD (R177). -/
def execRedfadd (h : Hdr) (d a : Nat) (s : State) : Host.Outcome State Fault Refusal :=
  perform s (xred (.redfadd h d a) h d a (fun s => treeSum ((List.range 32).map (s.contrib h a))))

/-- REDFMAX (R176). DESIGN CHOICE, log entry 107. -/
def execRedfmax (h : Hdr) (d a : Nat) (s : State) : Host.Outcome State Fault Refusal :=
  perform s (xred (.redfmax h d a) h d a (fun s => match s.contribs h a with
      | [] => inf32 true
      | x :: r => r.foldl fmaxw x))

/-- REDMAXS (R176). -/
def execRedmaxs (h : Hdr) (d a : Nat) (s : State) : Host.Outcome State Fault Refusal :=
  perform s (xred (.redmaxs h d a) h d a (fun s => (s.contribs h a).foldl maxs 0x80000000#32))

/-- AMAX (R176). -/
def execAmax (h : Hdr) (d a : Nat) (s : State) : Host.Outcome State Fault Refusal :=
  perform s (xred (.amax h d a) h d a (fun s => amaxw (s.contribs h a)))

/-- SCANADD (R178). -/
def execScanadd (h : Hdr) (d a : Nat) (s : State) : Host.Outcome State Fault Refusal :=
  perform s (xlane (.scanadd h d a) h (xscan h d a fun x y => x + y))

/-- SCANFADD (R178). -/
def execScanfadd (h : Hdr) (d a : Nat) (s : State) : Host.Outcome State Fault Refusal :=
  perform s (xlane (.scanfadd h d a) h (xscan h d a faddw))

/-- MATCH (R179). -/
def execMatchEq (h : Hdr) (d a : Nat) (s : State) : Host.Outcome State Fault Refusal :=
  perform s (xlane (.matchEq h d a) h (xmatch h d a))

/-- ELECT (R179). -/
def execElect (h : Hdr) (d : Nat) (s : State) : Host.Outcome State Fault Refusal :=
  perform s (xlane (.elect h d) h fun s =>
    s.setS d (if s.active h = 0#32 then 0xFFFFFFFF#32 else w32 (lowLane (s.active h))))

/-- RDLANE (R179). -/
def execRdlane (h : Hdr) (d a : Nat) (s : State) : Host.Outcome State Fault Refusal :=
  perform s (xlane (.rdlane h d a) h (xrdlane d a))

/-- SHFL (R179). -/
def execShfl (h : Hdr) (d a : Nat) (s : State) : Host.Outcome State Fault Refusal :=
  perform s (xlane (.shfl h d a) h (xshfl h d a))

/-- SETMM (R180): it neither waits nor forms the sets; the mask takes effect in the next cycle. -/
def execSetmm (h : Hdr) (r : Nat) (s : State) : Host.Outcome State Fault Refusal :=
  perform s (scalarOnly (.setmm h r) h fun t => t.updCG fun g => { g with mmaskNext := some (t.s r) })

/-- GETMM (R180). -/
def execGetmm (h : Hdr) (d : Nat) (s : State) : Host.Outcome State Fault Refusal :=
  perform s (scalarOnly (.getmm h d) h fun s => s.setS d s.cg.mmask)

end Sys2Proof.Machine
end

