-- ==== Sys2Proof/Machine/Dispatch.lean ====
section
/-! DEFINITION. The one match from an instruction to its meaning. -/

namespace Sys2Proof.Machine

open Sys2Proof

/-- What an instruction does, and what an event does. -/
def exec (i : Instr) (s : State) : Host.Outcome State Fault Refusal :=
  match i with
  | .ffma h d a b => Sys2Proof.Machine.execFfma h d a b s
  | .fadd h d a b => Sys2Proof.Machine.execFadd h d a b s
  | .fmul h d a b => Sys2Proof.Machine.execFmul h d a b s
  | .iadd h d a b => Sys2Proof.Machine.execIadd h d a b s
  | .isub h d a b => Sys2Proof.Machine.execIsub h d a b s
  | .imad h d a b => Sys2Proof.Machine.execImad h d a b s
  | .and h d a b => Sys2Proof.Machine.execAnd h d a b s
  | .or h d a b => Sys2Proof.Machine.execOr h d a b s
  | .xor h d a => Sys2Proof.Machine.execXor h d a s
  | .shl h d a => Sys2Proof.Machine.execShl h d a s
  | .shr h d a => Sys2Proof.Machine.execShr h d a s
  | .sra h d a => Sys2Proof.Machine.execSra h d a s
  | .mul h d a => Sys2Proof.Machine.execMul h d a s
  | .mulhs h d a => Sys2Proof.Machine.execMulhs h d a s
  | .mulhu h d a => Sys2Proof.Machine.execMulhu h d a s
  | .mins h d a => Sys2Proof.Machine.execMins h d a s
  | .maxs h d a => Sys2Proof.Machine.execMaxs h d a s
  | .minu h d a => Sys2Proof.Machine.execMinu h d a s
  | .maxu h d a => Sys2Proof.Machine.execMaxu h d a s
  | .andn h d a => Sys2Proof.Machine.execAndn h d a s
  | .not h d a => Sys2Proof.Machine.execNot h d a s
  | .neg h d a => Sys2Proof.Machine.execNeg h d a s
  | .abs h d a => Sys2Proof.Machine.execAbs h d a s
  | .clz h d a => Sys2Proof.Machine.execClz h d a s
  | .popc h d a => Sys2Proof.Machine.execPopc h d a s
  | .brev h d a => Sys2Proof.Machine.execBrev h d a s
  | .mov h d a => Sys2Proof.Machine.execMov h d a s
  | .bcast h d sr => Sys2Proof.Machine.execBcast h d sr s
  | .lane h d => Sys2Proof.Machine.execLane h d s
  | .psetv h q a => Sys2Proof.Machine.execPsetv h q a s
  | .pgetv h d b => Sys2Proof.Machine.execPgetv h d b s
  | .pand h q b => Sys2Proof.Machine.execPand h q b s
  | .por h q b => Sys2Proof.Machine.execPor h q b s
  | .pxor h q b => Sys2Proof.Machine.execPxor h q b s
  | .pnot h q b => Sys2Proof.Machine.execPnot h q b s
  | .pmov h q b => Sys2Proof.Machine.execPmov h q b s
  | .fsub h d a => Sys2Proof.Machine.execFsub h d a s
  | .fmin h d a => Sys2Proof.Machine.execFmin h d a s
  | .fmax h d a => Sys2Proof.Machine.execFmax h d a s
  | .fabs h d a => Sys2Proof.Machine.execFabs h d a s
  | .fneg h d a => Sys2Proof.Machine.execFneg h d a s
  | .rndn h d a => Sys2Proof.Machine.execRndn h d a s
  | .rndz h d a => Sys2Proof.Machine.execRndz h d a s
  | .rndd h d a => Sys2Proof.Machine.execRndd h d a s
  | .rndu h d a => Sys2Proof.Machine.execRndu h d a s
  | .rcp h d a => Sys2Proof.Machine.execRcp h d a s
  | .rsq h d a => Sys2Proof.Machine.execRsq h d a s
  | .sqrt h d a => Sys2Proof.Machine.execSqrt h d a s
  | .exp2 h d a => Sys2Proof.Machine.execExp2 h d a s
  | .log2 h d a => Sys2Proof.Machine.execLog2 h d a s
  | .sinpi h d a => Sys2Proof.Machine.execSinpi h d a s
  | .cospi h d a => Sys2Proof.Machine.execCospi h d a s
  | .tanh h d a => Sys2Proof.Machine.execTanh h d a s
  | .sigm h d a => Sys2Proof.Machine.execSigm h d a s
  | .fclass h d a => Sys2Proof.Machine.execFclass h d a s
  | .hadd2 h d a => Sys2Proof.Machine.execHadd2 h d a s
  | .hmul2 h d a => Sys2Proof.Machine.execHmul2 h d a s
  | .hmax2 h d a => Sys2Proof.Machine.execHmax2 h d a s
  | .cvtF32I32 h d a r => Sys2Proof.Machine.execCvtF32I32 h d a r s
  | .cvtF32Ui32 h d a r => Sys2Proof.Machine.execCvtF32Ui32 h d a r s
  | .cvtI32F32 h d a r => Sys2Proof.Machine.execCvtI32F32 h d a r s
  | .cvtUi32F32 h d a r => Sys2Proof.Machine.execCvtUi32F32 h d a r s
  | .cvtBf16F32 h d a r => Sys2Proof.Machine.execCvtBf16F32 h d a r s
  | .cvtFp16F32 h d a r => Sys2Proof.Machine.execCvtFp16F32 h d a r s
  | .cvtF32Bf16 h d a => Sys2Proof.Machine.execCvtF32Bf16 h d a s
  | .cvtF32Fp16 h d a => Sys2Proof.Machine.execCvtF32Fp16 h d a s
  | .cvtE4m3F32 h d a r => Sys2Proof.Machine.execCvtE4m3F32 h d a r s
  | .cvtE5m2F32 h d a r => Sys2Proof.Machine.execCvtE5m2F32 h d a r s
  | .cvtE2m1F32 h d a r => Sys2Proof.Machine.execCvtE2m1F32 h d a r s
  | .cvtF32E4m3 h d a => Sys2Proof.Machine.execCvtF32E4m3 h d a s
  | .cvtF32E5m2 h d a => Sys2Proof.Machine.execCvtF32E5m2 h d a s
  | .cvtF32E2m1 h d a => Sys2Proof.Machine.execCvtF32E2m1 h d a s
  | .cvtInt8I32 h d a r => Sys2Proof.Machine.execCvtInt8I32 h d a r s
  | .cvtF32Int8 h d a => Sys2Proof.Machine.execCvtF32Int8 h d a s
  | .voteany h sr q => Sys2Proof.Machine.execVoteany h sr q s
  | .voteall h sr q => Sys2Proof.Machine.execVoteall h sr q s
  | .ballot h sr q => Sys2Proof.Machine.execBallot h sr q s
  | .redadd h sr a => Sys2Proof.Machine.execRedadd h sr a s
  | .redfadd h sr a => Sys2Proof.Machine.execRedfadd h sr a s
  | .redfmax h sr a => Sys2Proof.Machine.execRedfmax h sr a s
  | .redmaxs h sr a => Sys2Proof.Machine.execRedmaxs h sr a s
  | .scanadd h d a => Sys2Proof.Machine.execScanadd h d a s
  | .scanfadd h d a => Sys2Proof.Machine.execScanfadd h d a s
  | .amax h sr a => Sys2Proof.Machine.execAmax h sr a s
  | .matchEq h d a => Sys2Proof.Machine.execMatchEq h d a s
  | .elect h sr => Sys2Proof.Machine.execElect h sr s
  | .rdlane h sr a => Sys2Proof.Machine.execRdlane h sr a s
  | .shfl h d a => Sys2Proof.Machine.execShfl h d a s
  | .setmm h sr => Sys2Proof.Machine.execSetmm h sr s
  | .getmm h sr => Sys2Proof.Machine.execGetmm h sr s
  | .cmpI32 h q r a b => Sys2Proof.Machine.execCmpI32 h q r a b s
  | .cmpUi32 h q r a b => Sys2Proof.Machine.execCmpUi32 h q r a b s
  | .cmpF32 h q r a b => Sys2Proof.Machine.execCmpF32 h q r a b s
  | .mxRd h m sr t ix v => Sys2Proof.Machine.execMxRd h m sr t ix v s
  | .mxWr h m sr t ix v => Sys2Proof.Machine.execMxWr h m sr t ix v s
  | .movi h d m => Sys2Proof.Machine.execMovi h d m s
  | .addi h d m => Sys2Proof.Machine.execAddi h d m s
  | .andi h d m => Sys2Proof.Machine.execAndi h d m s
  | .ori h d m => Sys2Proof.Machine.execOri h d m s
  | .xori h d m => Sys2Proof.Machine.execXori h d m s
  | .shli h d m => Sys2Proof.Machine.execShli h d m s
  | .shri h d m => Sys2Proof.Machine.execShri h d m s
  | .srai h d m => Sys2Proof.Machine.execSrai h d m s
  | .muli h d m => Sys2Proof.Machine.execMuli h d m s
  | .inshi h d m => Sys2Proof.Machine.execInshi h d m s
  | .sMov h d a => Sys2Proof.Machine.execSMov h d a s
  | .sAdd h d a => Sys2Proof.Machine.execSAdd h d a s
  | .sSub h d a => Sys2Proof.Machine.execSSub h d a s
  | .sMul h d a => Sys2Proof.Machine.execSMul h d a s
  | .sMulhu h d a => Sys2Proof.Machine.execSMulhu h d a s
  | .sAnd h d a => Sys2Proof.Machine.execSAnd h d a s
  | .sOr h d a => Sys2Proof.Machine.execSOr h d a s
  | .sXor h d a => Sys2Proof.Machine.execSXor h d a s
  | .sShl h d a => Sys2Proof.Machine.execSShl h d a s
  | .sShr h d a => Sys2Proof.Machine.execSShr h d a s
  | .sSra h d a => Sys2Proof.Machine.execSSra h d a s
  | .sMin h d a => Sys2Proof.Machine.execSMin h d a s
  | .sMax h d a => Sys2Proof.Machine.execSMax h d a s
  | .sMinu h d a => Sys2Proof.Machine.execSMinu h d a s
  | .sMaxu h d a => Sys2Proof.Machine.execSMaxu h d a s
  | .sSlt h d a => Sys2Proof.Machine.execSSlt h d a s
  | .sAdd64 h d a => Sys2Proof.Machine.execSAdd64 h d a s
  | .sSub64 h d a => Sys2Proof.Machine.execSSub64 h d a s
  | .sLea h d a => Sys2Proof.Machine.execSLea h d a s
  | .sLeas h d a => Sys2Proof.Machine.execSLeas h d a s
  | .sSltu h d a => Sys2Proof.Machine.execSSltu h d a s
  | .sSeq h d a => Sys2Proof.Machine.execSSeq h d a s
  | .sNot h d a => Sys2Proof.Machine.execSNot h d a s
  | .sNeg h d a => Sys2Proof.Machine.execSNeg h d a s
  | .sClz h d a => Sys2Proof.Machine.execSClz h d a s
  | .sPopc h d a => Sys2Proof.Machine.execSPopc h d a s
  | .sGetsr h d a => Sys2Proof.Machine.execSGetsr h d a s
  | .sSetsr h d a => Sys2Proof.Machine.execSSetsr h d a s
  | .sPset h d q => Sys2Proof.Machine.execSPset h d q s
  | .sRdsys h d a => Sys2Proof.Machine.execSRdsys h d a s
  | .sWrsys h d a => Sys2Proof.Machine.execSWrsys h d a s
  | .sMovi h d m => Sys2Proof.Machine.execSMovi h d m s
  | .sAddi h d m => Sys2Proof.Machine.execSAddi h d m s
  | .sAndi h d m => Sys2Proof.Machine.execSAndi h d m s
  | .sOri h d m => Sys2Proof.Machine.execSOri h d m s
  | .sXori h d m => Sys2Proof.Machine.execSXori h d m s
  | .sShli h d m => Sys2Proof.Machine.execSShli h d m s
  | .sShri h d m => Sys2Proof.Machine.execSShri h d m s
  | .sSrai h d m => Sys2Proof.Machine.execSSrai h d m s
  | .sLit h d lit => Sys2Proof.Machine.execSLit h d lit s
  | .sLit64 h d lo hi => Sys2Proof.Machine.execSLit64 h d lo hi s
  | .sMuli h d m => Sys2Proof.Machine.execSMuli h d m s
  | .sSlti h d m => Sys2Proof.Machine.execSSlti h d m s
  | .sAddi64 h d m => Sys2Proof.Machine.execSAddi64 h d m s
  | .ld h o c z a v => Sys2Proof.Machine.execLd h o c z a v s
  | .st h o c z a v => Sys2Proof.Machine.execSt h o c z a v s
  | .lds h o z a v => Sys2Proof.Machine.execLds h o z a v s
  | .ldsBcast h o z a v => Sys2Proof.Machine.execLdsBcast h o z a v s
  | .sts h o z a v => Sys2Proof.Machine.execSts h o z a v s
  | .atomAdd h o c a d => Sys2Proof.Machine.execAtomAdd h o c a d s
  | .atomUmax h o c a d => Sys2Proof.Machine.execAtomUmax h o c a d s
  | .atomExch h o c a d => Sys2Proof.Machine.execAtomExch h o c a d s
  | .atomCas h o c a d => Sys2Proof.Machine.execAtomCas h o c a d s
  | .atomFadd h o c a d => Sys2Proof.Machine.execAtomFadd h o c a d s
  | .atomFmin h o c a d => Sys2Proof.Machine.execAtomFmin h o c a d s
  | .atomFmax h o c a d => Sys2Proof.Machine.execAtomFmax h o c a d s
  | .atomAdd64 h o c a d => Sys2Proof.Machine.execAtomAdd64 h o c a d s
  | .atomExch64 h o c a d => Sys2Proof.Machine.execAtomExch64 h o c a d s
  | .atomCas64 h o c a d => Sys2Proof.Machine.execAtomCas64 h o c a d s
  | .sLdW h c d a => Sys2Proof.Machine.execSLdW h c d a s
  | .sLdD h c d a => Sys2Proof.Machine.execSLdD h c d a s
  | .sLdQ h c d a => Sys2Proof.Machine.execSLdQ h c d a s
  | .sLdO h c d a => Sys2Proof.Machine.execSLdO h c d a s
  | .sStW h c d a => Sys2Proof.Machine.execSStW h c d a s
  | .sStD h c d a => Sys2Proof.Machine.execSStD h c d a s
  | .sStQ h c d a => Sys2Proof.Machine.execSStQ h c d a s
  | .sAtomAdd h c d a => Sys2Proof.Machine.execSAtomAdd h c d a s
  | .sAtomCas h c d a => Sys2Proof.Machine.execSAtomCas h c d a s
  | .sLdAcqW h c d a => Sys2Proof.Machine.execSLdAcqW h c d a s
  | .sStRelW h c d a => Sys2Proof.Machine.execSStRelW h c d a s
  | .bra h o => Sys2Proof.Machine.execBra h o s
  | .call h o => Sys2Proof.Machine.execCall h o s
  | .nop h => Sys2Proof.Machine.execNop h s
  | .exit h => Sys2Proof.Machine.execExit h s
  | .brx h a => Sys2Proof.Machine.execBrx h a s
  | .mbr h arms => Sys2Proof.Machine.execMbr h arms s
  | .join h => Sys2Proof.Machine.execJoin h s
  | .yield h => Sys2Proof.Machine.execYield h s
  | .trig h => Sys2Proof.Machine.execTrig h s
  | .pset h a => Sys2Proof.Machine.execPset h a s
  | .pseti h x => Sys2Proof.Machine.execPseti h x s
  | .pget h d => Sys2Proof.Machine.execPget h d s
  | .pmask h y x => Sys2Proof.Machine.execPmask h y x s
  | .bar h y x => Sys2Proof.Machine.execBar h y x s
  | .barArv h y x => Sys2Proof.Machine.execBarArv h y x s
  | .cbar h => Sys2Proof.Machine.execCbar h s
  | .sbInit h y x => Sys2Proof.Machine.execSbInit h y x s
  | .sbArv h x => Sys2Proof.Machine.execSbArv h x s
  | .sbWait h y x => Sys2Proof.Machine.execSbWait h y x s
  | .sbTest h y x => Sys2Proof.Machine.execSbTest h y x s
  | .waitc h y x => Sys2Proof.Machine.execWaitc h y x s
  | .tlwait h y x => Sys2Proof.Machine.execTlwait h y x s
  | .tlread h y x => Sys2Proof.Machine.execTlread h y x s
  | .fence h y x => Sys2Proof.Machine.execFence h y x s
  | .fenceMir h x => Sys2Proof.Machine.execFenceMir h x s
  | .trap h c => Sys2Proof.Machine.execTrap h c s
  | .tret h => Sys2Proof.Machine.execTret h s
  | .region h => Sys2Proof.Machine.execRegion h s
  | .sigchk h lit => Sys2Proof.Machine.execSigchk h lit s
  | .brk h => Sys2Proof.Machine.execBrk h s
  | .wqNext h x => Sys2Proof.Machine.execWqNext h x s
  | .recv h y x => Sys2Proof.Machine.execRecv h y x s
  | .send h y x => Sys2Proof.Machine.execSend h y x s
  | .launch h y x => Sys2Proof.Machine.execLaunch h y x s
  | .joinw h y x => Sys2Proof.Machine.execJoinw h y x s
  | .tagL h d a => Sys2Proof.Machine.execTagL h d a s
  | .tagI h d a => Sys2Proof.Machine.execTagI h d a s
  | .tagE h d a => Sys2Proof.Machine.execTagE h d a s
  | .pref h x => Sys2Proof.Machine.execPref h x s
  | .ovtld h x => Sys2Proof.Machine.execOvtld h x s
  | .srseed h a => Sys2Proof.Machine.execSrseed h a s
  | .srget h d => Sys2Proof.Machine.execSrget h d s
  | .pchk h y a => Sys2Proof.Machine.execPchk h y a s
  | .drain h y x => Sys2Proof.Machine.execDrain h y x s
  | .scanRun h y x => Sys2Proof.Machine.execScanRun h y x s
  | .scanSig h y x => Sys2Proof.Machine.execScanSig h y x s
  | .cmapSet h y x => Sys2Proof.Machine.execCmapSet h y x s
  | .tqPop h y x => Sys2Proof.Machine.execTqPop h y x s
  | .callx h a => Sys2Proof.Machine.execCallx h a s
  | .ret h => Sys2Proof.Machine.execRet h s
  | .cpTensor h y x => Sys2Proof.Machine.execCpTensor h y x s
  | .cpLin h x => Sys2Proof.Machine.execCpLin h x s
  | .cpGather h y x => Sys2Proof.Machine.execCpGather h y x s
  | .cpScatter h y x => Sys2Proof.Machine.execCpScatter h y x s
  | .cpFollow h a x => Sys2Proof.Machine.execCpFollow h a x s
  | .cpCancel h x => Sys2Proof.Machine.execCpCancel h x s
  | .mxMma h y a => Sys2Proof.Machine.execMxMma h y a s
  | .mxAcq h t => Sys2Proof.Machine.execMxAcq h t s
  | .mxRel h t => Sys2Proof.Machine.execMxRel h t s
  | .mxZero h y t => Sys2Proof.Machine.execMxZero h y t s
  | .mxStraw h y t => Sys2Proof.Machine.execMxStraw h y t s
  | .mxAddraw h y t => Sys2Proof.Machine.execMxAddraw h y t s
  | .mxStat h y t => Sys2Proof.Machine.execMxStat h y t s
  | .mxApf h x => Sys2Proof.Machine.execMxApf h x s
  | .mxAinv h x => Sys2Proof.Machine.execMxAinv h x s
  | .mxAqry h y x => Sys2Proof.Machine.execMxAqry h y x s
  | .smCfg h x => Sys2Proof.Machine.execSmCfg h x s
  | .smKey h y m => Sys2Proof.Machine.execSmKey h y m s
  | .colRed h x => Sys2Proof.Machine.execColRed h x s
  | .cNop => Sys2Proof.Machine.execCNop s
  | .atomAnd h o c a d => Sys2Proof.Machine.execAtomAnd h o c a d s
  | .atomOr h o c a d => Sys2Proof.Machine.execAtomOr h o c a d s
  | .atomXor h o c a d => Sys2Proof.Machine.execAtomXor h o c a d s
  | .atomSmin h o c a d => Sys2Proof.Machine.execAtomSmin h o c a d s
  | .atomSmax h o c a d => Sys2Proof.Machine.execAtomSmax h o c a d s
  | .atomUmin h o c a d => Sys2Proof.Machine.execAtomUmin h o c a d s
  | .drainPreempt h y x => Sys2Proof.Machine.execDrainPreempt h y x s
  | .drainClear h y x => Sys2Proof.Machine.execDrainClear h y x s
  | .scanRunAbort h y x => Sys2Proof.Machine.execScanRunAbort h y x s
  | .cmapSetRemove h y x => Sys2Proof.Machine.execCmapSetRemove h y x s
  | .smLdc h x => Sys2Proof.Machine.execSmLdc h x s
  | .smLdb h x => Sys2Proof.Machine.execSmLdb h x s
  | .smClamp h x => Sys2Proof.Machine.execSmClamp h x s
  | .smInit h x => Sys2Proof.Machine.execSmInit h x s
  | .smSweep h x => Sys2Proof.Machine.execSmSweep h x s
  | .smRead h x => Sys2Proof.Machine.execSmRead h x s
  | .smHlth h x => Sys2Proof.Machine.execSmHlth h x s
  | .smBx h x => Sys2Proof.Machine.execSmBx h x s
  | .colBcast h x => Sys2Proof.Machine.execColBcast h x s
  | .colGath h x => Sys2Proof.Machine.execColGath h x s
  | .cMov d a => Sys2Proof.Machine.execCMov d a s
  | .cIadd d a => Sys2Proof.Machine.execCIadd d a s
  | .cIsub d a => Sys2Proof.Machine.execCIsub d a s
  | .cAnd d a => Sys2Proof.Machine.execCAnd d a s
  | .cOr d a => Sys2Proof.Machine.execCOr d a s
  | .cXor d a => Sys2Proof.Machine.execCXor d a s
  | .cShl d a => Sys2Proof.Machine.execCShl d a s
  | .cShr d a => Sys2Proof.Machine.execCShr d a s
  | .cFadd d a => Sys2Proof.Machine.execCFadd d a s
  | .cFmul d a => Sys2Proof.Machine.execCFmul d a s
  | .cFsub d a => Sys2Proof.Machine.execCFsub d a s
  | .cFmax d a => Sys2Proof.Machine.execCFmax d a s
  | .cFmin d a => Sys2Proof.Machine.execCFmin d a s
  | .cImul d a => Sys2Proof.Machine.execCImul d a s
  | .cSra d a => Sys2Proof.Machine.execCSra d a s
  | .ovf gid => Sys2Proof.Machine.execOvf gid s
  | .accessComplete gid path => Sys2Proof.Machine.execAccessComplete gid path s
  | .splitMerge gid => Sys2Proof.Machine.execSplitMerge gid s
  | .heldLaneReturn gid => Sys2Proof.Machine.execHeldLaneReturn gid s
  | .pairCompare gid differ => Sys2Proof.Machine.execPairCompare gid differ s
  | .drainQuiescent core => Sys2Proof.Machine.execDrainQuiescent core s
  | .scanEnd core observed => Sys2Proof.Machine.execScanEnd core observed s
  | .firmwareScanAbort core => Sys2Proof.Machine.execFirmwareScanAbort core s
  | .sluiceCommandRun bid ctx => Sys2Proof.Machine.execSluiceCommandRun bid ctx s
  | .copyCommandComplete bid ctx num => Sys2Proof.Machine.execCopyCommandComplete bid ctx num s
  | .followOnIssue bid ctx => Sys2Proof.Machine.execFollowOnIssue bid ctx s
  | .mmaCommandStart core part => Sys2Proof.Machine.execMmaCommandStart core part s
  | .kStep core part => Sys2Proof.Machine.execKStep core part s
  | .adapterStage core part => Sys2Proof.Machine.execAdapterStage core part s
  | .adapterFillLand die key => Sys2Proof.Machine.execAdapterFillLand die key s
  | .adapterFillFail die key => Sys2Proof.Machine.execAdapterFillFail die key s
  | .mmaCommandComplete core part => Sys2Proof.Machine.execMmaCommandComplete core part s
  | .samplingCommandRun bid ctx => Sys2Proof.Machine.execSamplingCommandRun bid ctx s
  | .colourStep core => Sys2Proof.Machine.execColourStep core s
  | .bxLanding bid ctx => Sys2Proof.Machine.execBxLanding bid ctx s
  | .arrayUnbind core => Sys2Proof.Machine.execArrayUnbind core s
  | .collectiveComplete bid ctx num peers => Sys2Proof.Machine.execCollectiveComplete bid ctx num peers s
  | .handlerEntry gid => Sys2Proof.Machine.execHandlerEntry gid s
  | .regionRestart gid => Sys2Proof.Machine.execRegionRestart gid s
  | .deferredRecordEnqueue die => Sys2Proof.Machine.execDeferredRecordEnqueue die s
  | .tqractResume => Sys2Proof.Machine.execTqractResume s
  | .tqractKill => Sys2Proof.Machine.execTqractKill s
  | .containPartition core part => Sys2Proof.Machine.execContainPartition core part s
  | .containSluice die sluice => Sys2Proof.Machine.execContainSluice die sluice s
  | .containMatrixArray core part => Sys2Proof.Machine.execContainMatrixArray core part s
  | .containSamplingArray core => Sys2Proof.Machine.execContainSamplingArray core s
  | .containCollectiveEngine die => Sys2Proof.Machine.execContainCollectiveEngine die s
  | .containDieLink die other => Sys2Proof.Machine.execContainDieLink die other s
  | .containShagalPort port => Sys2Proof.Machine.execContainShagalPort port s
  | .containResetEnd => Sys2Proof.Machine.execContainResetEnd s
  | .keyerase cmd => Sys2Proof.Machine.execKeyerase cmd s
  | .securityAlarm source => Sys2Proof.Machine.execSecurityAlarm source s
  | .tlbInvalidate core => Sys2Proof.Machine.execTlbInvalidate core s
  | .tlbInvalidateDone core => Sys2Proof.Machine.execTlbInvalidateDone core s
  | .adirWrite reg value => Sys2Proof.Machine.execAdirWrite reg value s
  | .smctlWrite core value => Sys2Proof.Machine.execSmctlWrite core value s
  | .fabidWrite value => Sys2Proof.Machine.execFabidWrite value s
  | .tickperWrite value => Sys2Proof.Machine.execTickperWrite value s
  | .tickloRead gid d => Sys2Proof.Machine.execTickloRead gid d s
  | .exchangeTick => Sys2Proof.Machine.execExchangeTick s
  | .tickFlitsApply => Sys2Proof.Machine.execTickFlitsApply s
  | .ptpLock tick => Sys2Proof.Machine.execPtpLock tick s
  | .mirrorEnable => Sys2Proof.Machine.execMirrorEnable s
  | .mirrorResyncDone => Sys2Proof.Machine.execMirrorResyncDone s
  | .mirrorAck => Sys2Proof.Machine.execMirrorAck s
  | .peerAccess rank tick acc => Sys2Proof.Machine.execPeerAccess rank tick acc s
  | .portPartnerDetect port => Sys2Proof.Machine.execPortPartnerDetect port s
  | .portTrainPass port => Sys2Proof.Machine.execPortTrainPass port s
  | .portTrainTimeout port => Sys2Proof.Machine.execPortTrainTimeout port s
  | .portRecoverEnter port => Sys2Proof.Machine.execPortRecoverEnter port s
  | .portRecoverDone port => Sys2Proof.Machine.execPortRecoverDone port s
  | .portRecoverFail port => Sys2Proof.Machine.execPortRecoverFail port s
  | .flitReplay port => Sys2Proof.Machine.execFlitReplay port s
  | .dieLinkRetry die other => Sys2Proof.Machine.execDieLinkRetry die other s
  | .inletWrite q bytes => Sys2Proof.Machine.execInletWrite q bytes s
  | .outletWrite q => Sys2Proof.Machine.execOutletWrite q s
  | .outconsWrite q value => Sys2Proof.Machine.execOutconsWrite q value s
  | .hostApertureAccess acc => Sys2Proof.Machine.execHostApertureAccess acc s
  | .attestationRequest nonce => Sys2Proof.Machine.execAttestationRequest nonce s
  | .provisioningCommand signed => Sys2Proof.Machine.execProvisioningCommand signed s
  | .powerUp img => Sys2Proof.Machine.execPowerUp img s
  | .moduleReset => Sys2Proof.Machine.execModuleReset s
  | .headgateFault die => Sys2Proof.Machine.execHeadgateFault die s
  | .controlGridRestart => Sys2Proof.Machine.execControlGridRestart s
  | .thermalThrottle celsius khz => Sys2Proof.Machine.execThermalThrottle celsius khz s
  | .correctableError die => Sys2Proof.Machine.execCorrectableError die s
  | .uncorrectableError die u => Sys2Proof.Machine.execUncorrectableError die u s
  | .gridAdmit grid => Sys2Proof.Machine.execGridAdmit grid s
  | .blockBind grid blk cores => Sys2Proof.Machine.execBlockBind grid blk cores s
  | .groupSlotRelease gid => Sys2Proof.Machine.execGroupSlotRelease gid s
  | .tileUnbind core tile => Sys2Proof.Machine.execTileUnbind core tile s
  | .gridComplete grid => Sys2Proof.Machine.execGridComplete grid s
  | .preemptRequest bid => Sys2Proof.Machine.execPreemptRequest bid s
  | .drainToSave bid => Sys2Proof.Machine.execDrainToSave bid s
  | .preemptionSave bid => Sys2Proof.Machine.execPreemptionSave bid s
  | .flushAndRestart bid => Sys2Proof.Machine.execFlushAndRestart bid s
  | .unitRestore bid cores => Sys2Proof.Machine.execUnitRestore bid cores s
  | .watchdog gid => Sys2Proof.Machine.execWatchdog gid s
  | .remoteTimeout gid slot => Sys2Proof.Machine.execRemoteTimeout gid slot s
  | .powerLoss => Sys2Proof.Machine.execPowerLoss s
  | .powerLimitClock khz => Sys2Proof.Machine.execPowerLimitClock khz s
  | .adapterKeyEvict die key => Sys2Proof.Machine.execAdapterKeyEvict die key s
  | .tlbEntryDrop shared unit va => Sys2Proof.Machine.execTlbEntryDrop shared unit va s
  | .firmwareUpdateRequest signed => Sys2Proof.Machine.execFirmwareUpdateRequest signed s

end Sys2Proof.Machine
end

