-- ==== Sys2Proof/Machine/Issue.lean ====
section
/-! DEFINITION. How a split issues its next instruction (02_encoding.md R38, R39, R44, R62-R66, R75; 03_control.md R82-R94;
13_traps.md R370): fetch and decode on every occupied plane, the checks of R66 in their order, the scoreboard, the plane
issues, and what every issue leaves behind. -/

namespace Sys2Proof.Machine

open Sys2Proof

/-! ### Fetch and decode -/

/-- The issuing split is this one. -/
def State.point (s : State) (gid slot : Nat) : State :=
  let here := ((s.g gid).splits.get slot).offset
  { s with cur := { valid := true, gid := gid, slot := slot, here := here, next := here } }

/-- The chunk of an offset is specialised (R91). -/
def State.specialised (s : State) (off : Nat) : Bool := (s.codeOf s.cg).chunks.get (off / 256)
/-- The occupied planes of the issuing split (R91). -/
def State.planesHere (s : State) : List Nat :=
  if s.specialised s.cur.here then (List.range 4).filter fun k => s.cg.onPlane s.liveS k ≠ 0#32 else [0]

/-- What one plane brings to an issue. -/
structure PlaneIssue where
  plane : Nat
  code : Code
  instr : Instr
  /-- Its reads that are settled, as `Cur.stale` holds them. -/
  stale : List Stale := []

/-- Fetch an instruction on each of some planes. -/
def State.fetchAll (s : State) : List Nat → List (Nat × Fetched) × State
  | [] => ([], s)
  | k :: r =>
    let (f, t) := s.fetchCode s.cg k s.cur.here
    let (l, u) := t.fetchAll r
    ((k, f) :: l, u)

/-- The first fetch fault in plane order, with its plane. -/
def firstFault : List (Nat × Fetched) → Option (Nat × Trap)
  | [] => none
  | (k, .fault t) :: _ => some (k, t)
  | _ :: r => firstFault r

/-- A trap of a plane of the issuing split: its word and its plane are those of the trap.
DEDUCED, log entry 22; DESIGN CHOICE, log entry 28. -/
def State.planeTrap (s : State) (plane word : Nat) (t : State → Trap) : State :=
  let u := { s with cur := { s.cur with plane := plane, word := word } }
  u.trapCur (t u)
/-- A fetch fault (R39). -/
def State.fetchTrap (s : State) (plane : Nat) (t : Trap) : State :=
  s.planeTrap plane 0 fun u => { t with tpc := u.cur.tpc }

/-- The instructions of the planes, or the plane and word of the lowest that is ILLEGAL by its words (R66 step 2). -/
noncomputable def State.decodeAll (s : State) : List (Nat × Fetched) → Except (Nat × Nat) (List PlaneIssue)
  | [] => .ok []
  | (k, .code c) :: r =>
    match decodeCode c with
    | .ok i =>
      if s.wordIllegal i then .error (k, codeHead c)
      else match s.decodeAll r with
        | .ok l => .ok ({ plane := k, code := c, instr := i } :: l)
        | .error e => .error e
    | .error _ => .error (k, codeHead c)
  | (k, .beyond w) :: _ => .error (k, w)
  | (k, .fault _) :: _ => .error (k, 0)

/-- The literal and arm words of some code. -/
def codeLits : Code → List Nat
  | .parcel _ => []
  | .word _ l => l

/-- Whether the code of a plane may not issue with that of the lowest (R93). -/
def codeDiffers (a b : Code) : Bool :=
  decide (a.length ≠ b.length) || decide ((codeCls a = .lane) ≠ (codeCls b = .lane)) || decide (codeLits a ≠ codeLits b)
    || (decide (codeCls a ≠ .lane) && decide (codeHead a ≠ codeHead b))
/-- The parcels of an instruction, those of its literal or arm words among them, lie in chunks whose CHUNKMAP bits differ
(R93). DESIGN CHOICE, log entry 105. -/
def State.crossesChunk (s : State) (c : Code) : Bool :=
  (List.range (c.length / 2)).any fun k => s.specialised (s.cur.here + 2 * k) != s.specialised s.cur.here

/-! ### The scoreboard (R62-R65) -/

/-- The lanes in which an instruction acts, by its class (R42, R86, R156). -/
def State.actLanes (s : State) (c : Code) : LaneMask :=
  let h := hdrOfCode c
  match codeCls c with
  | .lane => s.laneActive h
  | .scalar => if s.scalarGuard h then s.active h else 0#32
  | .control => s.ctlLanes h
/-- The scalar registers of an instruction are written. -/
def State.actScalar (s : State) (c : Code) : Bool :=
  match codeCls c with
  | .lane => decide (s.laneActive (hdrOfCode c) ≠ 0#32)
  | _ => s.scalarGuard (hdrOfCode c)
/-- The lanes in which the scoreboard watches the reads of an instruction: every live lane, of its plane in a specialised
chunk, whatever its guard (R62, R66). DEDUCED, log entry 24. -/
def State.readLanes (s : State) (c : Code) : LaneMask :=
  match codeCls c with
  | .lane => s.liveS &&& s.cur.lanes
  | _ => s.liveS

/-- The elements of the tile slice that MX.RD or MX.WR names, in some lanes; none where the index is no slice. -/
def State.sliceElems (s : State) (m sl i : Nat) (lanes : LaneMask) : List Nat :=
  if 63 < s.sliceIdx m i then []
  else (lanesOf lanes).flatMap fun l => [sliceElem sl (s.sliceIdx m i) l, sliceElem sl (s.sliceIdx m i) (l + 32)]
/-- The adapter ids that MX.MMA or CP.FOLLOW takes from the vector register its block names (R282).
DEDUCED, log entry 31. -/
def State.idReads (s : State) (h : Hdr) (r a : Nat) : List (RegFile × Nat × Nat) :=
  if bit (s.v a (lowLane (s.active h))).toNat 16 ∧ (s.s (r + 4)).toNat < 64 then
    (lanesOf s.liveS).map fun l => (.v, (s.s (r + 4)).toNat, l)
  else []
/-- The arm predicates that a lane of MBR reads: those up to the first that holds (R100). -/
def State.armReads (s : State) (l : Nat) : List Arm → List (RegFile × Nat × Nat)
  | [] => []
  | a :: r => (.p, a.p, l) :: if s.p a.p l == !a.sense then [] else s.armReads l r

/-- What an instruction reads whatever the reads return: a file, a number, and a lane, or for a tile an element; the arm
predicates of MBR apart. DEDUCED, log entry 24. -/
def State.directReads (s : State) (c : Code) (i : Instr) : List (RegFile × Nat × Nat) :=
  let u := uses i
  let h := hdrOfCode c
  let lanes := lanesOf (s.readLanes c)
  (if h.ge then lanes.map fun l => (.p, h.gp, l) else [])
    ++ u.rv.flatMap (fun r => lanes.map fun l => (.v, r, l))
    ++ u.rs.map (fun r => (.s, r, 0))
    ++ u.rp.flatMap (fun r => lanes.map fun l => (.p, r, l))
    ++ (if u.lfsr ∧ u.lat ≠ 0 then lanes.map fun l => (.lfsr, 0, l) else [])
    ++ match i with
      | .mxStraw _ _ t | .mxAddraw _ _ t => (List.range 4096).map fun e => (.tile, t, e)
      | _ => []
/-- What it reads because of what those reads return: the elements of a slice, adapter ids, and the arm predicates. -/
def State.furtherReads (s : State) (c : Code) (i : Instr) : List (RegFile × Nat × Nat) :=
  match i with
  | .mxRd _ m sl t k _ => (s.sliceElems m sl k (s.readLanes c)).map fun e => (.tile, t, e)
  | .mxMma h y a => s.idReads h (2 * y) a
  | .cpFollow h a x => s.idReads h (2 * x) a
  | .mbr h arms => (lanesOf (s.passGuard h s.liveS)).flatMap fun l => s.armReads l arms
  | _ => []
/-- What an instruction reads. DEDUCED, log entry 24. -/
def State.readsOf (s : State) (c : Code) (i : Instr) : List (RegFile × Nat × Nat) := s.directReads c i ++ s.furtherReads c i
/-- The arm predicates that an instruction may read. -/
def State.armsOf (s : State) : Instr → List (RegFile × Nat × Nat)
  | .mbr _ arms => (lanesOf s.liveS).flatMap fun l => arms.map fun a => (.p, a.p, l)
  | _ => []

/-- A pending result keeps a read of its register too close at a cycle. -/
def Pend.short (p : Pend) (at_ : Nat) (r : RegFile × Nat × Nat) : Bool :=
  decide (p.file = r.1 ∧ p.reg = r.2.1) && (p.onPath || decide (at_ < p.ready)) &&
    match r.1 with
    | .tile => decide (p.old.get r.2.2 ≠ 0)
    | _ => inMask p.lanes r.2.2
/-- The youngest pending result that a read comes too close to. -/
def Group.tooClose (g : Group) (at_ : Nat) (r : RegFile × Nat × Nat) : Option Pend :=
  g.pend.reverse.find? fun p => p.short at_ r
/-- A register read with its old value. -/
def Pend.staleEntry (p : Pend) (r : RegFile × Nat × Nat) : Stale :=
  match r.1 with
  | .tile => (.tile, r.2.1, r.2.2, p.old.get r.2.2 - 1, false)
  | f => (f, r.2.1, r.2.2, p.old.get r.2.2, inMask p.oldPo r.2.2)

/-- Point the issue at a plane: its lanes, its word, and where the split stands after it: the next instruction after the
last plane issue. -/
def State.onPlane (s : State) (e : PlaneIssue) (last : Bool := true) : State :=
  let lanes := if s.specialised s.cur.here ∧ codeCls e.code = .lane then s.cg.onPlane s.liveS e.plane else allLanes
  { s with cur := { s.cur with plane := e.plane, lanes := lanes, word := codeHead e.code, stale := e.stale
                               next := if last then s.cur.here + e.code.length else s.cur.here } }

/-- The pipe of some code, as `Group.usedPipes` numbers it. -/
def codePipeNum (c : Code) : Nat :=
  match codePipe c with
  | .p01 => 0
  | .p2 => 1
  | .p3 => 2
/-- The cycles of some plane issues, were nothing to delay them, the first at the earliest at `at_`: one a cycle, and P2 takes one in 4 cycles from
the cycle `free` on (R17, R92). DEDUCED, log entry 26. -/
def issueTimes : Nat → Nat → List PlaneIssue → List Nat
  | _, _, [] => []
  | at_, free, e :: r =>
    if codePipeNum e.code = 1 then max at_ free :: issueTimes (max at_ free + 1) (max at_ free + 4) r
    else at_ :: issueTimes (at_ + 1) free r
/-- The cycle from which P2 of the issuing group's partition is free. -/
def State.pipe2Free (s : State) : Nat := s.cc.pipe2.get (partOf s.cg.slot)
/-- The plane issues of an instruction with their cycles. DEDUCED, log entry 26. -/
def State.timed (s : State) (es : List PlaneIssue) : List (PlaneIssue × Nat) := es.zip (issueTimes s.cycle s.pipe2Free es)

/-- A split that has begun a TLWAIT has read its operands already (R235). -/
def State.begun (s : State) : Bool :=
  match s.cs.waitOn with
  | some (.timeline _ _ _) => true
  | _ => false
/-- Those of some reads that come too close at a cycle, each with what it would find (R62). The scalar registers of an
instruction are read with its first plane issue. DEDUCED, log entry 125. -/
def State.close (s : State) (at_ : Nat) (rs : List (RegFile × Nat × Nat)) : List ((RegFile × Nat × Nat) × Pend) :=
  rs.filterMap fun y => (s.cg.tooClose (if y.1 = .s then s.cycle else at_) y).map fun p => (y, p)
/-- The reads of some plane issues that come too close (R62). -/
def State.closeReads (s : State) (es : List PlaneIssue) : List ((RegFile × Nat × Nat) × Pend) :=
  if s.begun then [] else (s.timed es).flatMap fun x => s.close x.2 ((s.onPlane x.1).readsOf x.1.code x.1.instr)

/-- The number of a register file in STALL_CHECK's TVAL (R359). DEDUCED, log entry 27. -/
def RegFile.num : RegFile → Nat
  | .v => 0
  | .s => 1
  | .p => 2
  | .tile => 3
  | .lfsr => 4
/-- Each of some reads that comes too close finds the old value or the new one (R9, R65). -/
def State.drawStale (s : State) (rs : List ((RegFile × Nat × Nat) × Pend)) : List Stale × State :=
  (rs.zipIdx.filterMap fun x => if Config.freeBit (s.free + x.2) then some (x.1.2.staleEntry x.1.1) else none,
    { s with free := s.free + rs.length })
/-- A plane issue, whose settled reads include the scalar ones, with the others settled: first those that it makes in any
case, then those that they lead to. -/
def State.settleReads (s : State) (x : PlaneIssue × Nat) : PlaneIssue × State :=
  let notScalar (rs : List (RegFile × Nat × Nat)) : List (RegFile × Nat × Nat) := rs.filter fun y => decide (y.1 ≠ .s)
  let t := s.onPlane x.1
  let a := s.drawStale (s.close x.2 (notScalar (t.directReads x.1.code x.1.instr) ++ t.armsOf x.1.instr))
  let e : PlaneIssue := { x.1 with stale := x.1.stale ++ a.1 }
  let b := a.2.drawStale (match x.1.instr with
    | .mbr _ _ => []
    | _ => s.close x.2 ((s.onPlane e).furtherReads x.1.code x.1.instr))
  ({ e with stale := e.stale ++ b.1 }, b.2)
/-- The plane issues of an instruction that begins, with every read that comes too close settled. DEDUCED, log entry 125. -/
def State.settleAll (s : State) (es : List PlaneIssue) : List PlaneIssue × State :=
  if s.begun then (es, s)
  else
    let a := s.drawStale (s.close s.cycle (distinctAsc (es.flatMap fun e => (uses e.instr).rs) |>.map fun r => (.s, r, 0)))
    (s.timed (es.map fun e => { e with stale := a.1 })).foldl
      (fun (acc : List PlaneIssue × State) x =>
        let r := { s with free := acc.2.free }.settleReads x
        (acc.1 ++ [r.1], { s with free := r.2.free })) ([], a.2)
/-- STALL_CHECK (R65); which of several registers it names is free.
DESIGN CHOICE, log entry 25; DEDUCED, log entry 27. -/
def State.stallTrap (s : State) (rs : List ((RegFile × Nat × Nat) × Pend)) : State :=
  match rs[Config.pick s.free % max 1 rs.length]? with
  | some (r, _) =>
    let t := { s with free := s.free + 1 }
    t.trapCur (t.mkTrap 0x0B 0 (w32 (r.1.num * 256 + r.2.1 % 256)))
  | none => s

/-- An instruction that would write a register with a result still on its way is held (R64). DEDUCED, log entry 30. -/
def State.held (s : State) (es : List PlaneIssue) : Bool :=
  es.any fun e =>
    let u := uses e.instr
    s.cg.pend.any fun p => p.onPath && !p.landed && decide (p.lanes ≠ 0#32) &&
      match p.file with
      | .v => decide (p.reg ∈ u.wv)
      | .s => decide (p.reg ∈ u.ws)
      | .p => decide (p.reg ∈ u.wp)
      | _ => false

/-! ### The plane issues -/

/-- The contents of a register of a group, by lane, and their marks. -/
def Group.oldOf (g : Group) (f : RegFile) (r : Nat) (lanes : LaneMask) : SMap Nat × LaneMask :=
  let take (x : Nat → Nat) : SMap Nat := SMap.tab 32 fun l => if inMask lanes l then x l else 0
  match f with
  | .v => (take fun l => (g.vr.get (32 * r + l)).toNat, g.vpo.get r)
  | .s => (take fun _ => (g.sr.get r).toNat, if g.spo.get r then 1#32 else 0#32)
  | .p => (take fun l => (inMask (g.pr.get r) l).toNat, g.ppo.get r)
  | .lfsr => (take fun l => (g.lfsr.get l).toNat, 0#32)
  | .tile => ([], 0#32)

/-- The planes on which an instruction issues: all for a lane-class one, one otherwise (R92). -/
def issuesOf : List PlaneIssue → List PlaneIssue
  | [] => []
  | e :: r => if codeCls e.code = .lane then e :: r else [e]

/-- One plane issue; `last` tells whether it is the instruction's last. DESIGN CHOICE, log entry 15. -/
def State.run1 (s : State) (e : PlaneIssue) (last : Bool := true) : State :=
  let t := s.onPlane e last
  outState (exec e.instr t) t.wait

/-- The plane issues one after another, to see whether all are ready: an instruction of which one has to wait does not begin
(R89). DESIGN CHOICE, log entry 15. -/
def State.allReady (s : State) : List PlaneIssue → Bool
  | [] => true
  | e :: r => (s.run1 e r.isEmpty).cur.issued && (s.run1 e r.isEmpty).allReady r

/-- How the traps of the plane issues of one instruction rank (R66 step 7, R188): SCRATCH_RANGE before MISALIGN, each in
the lowest faulting lane of the instruction; any other before both, on the lowest plane. -/
def trapRank (plane : Nat) (t : Trap) : Nat :=
  if t.code = 0x15 then 8 + t.tval.toNat else if t.code = 0x07 then 64 + t.tval.toNat else plane
/-- The rank of the trap that a plane issue raised. -/
def State.raised (s : State) : Nat := trapRank s.cur.plane s.cur.trap
/-- The plane issue whose trap the instruction raises (R66): none issues then. DEDUCED, log entry 22.
DEDUCED, log entry 23. -/
def State.worst (s : State) (es : List PlaneIssue) : Option PlaneIssue :=
  (es.filter fun e => (s.run1 e).cur.trapped).foldl
    (fun a e => match a with
      | none => some e
      | some x => if (s.run1 e).raised < (s.run1 x).raised then some e else a) none

/-- Of two OVF traps of one instruction, that of the lower plane, naming the lowest lane of both (R149). -/
def joinOvf : Option Trap → Option Trap → Option Trap
  | some a, some b => some { (if a.tpc ≤ b.tpc then a else b) with tval := if a.tval.toNat ≤ b.tval.toNat then a.tval else b.tval }
  | some a, none => some a
  | none, b => b
/-- A plane issue reads a tile. -/
def readsTile : Instr → Bool
  | .mxRd _ _ _ _ _ _ => true
  | _ => false
/-- The OVF that the conversions of lane registers among some plane issues will raise, if any will (R149). What an MX.RD
finds is known when it issues. DEDUCED, log entry 37. -/
def State.ovfOf (s : State) (es : List PlaneIssue) : Option Trap :=
  (es.filter fun e => !readsTile e.instr).foldl (fun a e => joinOvf a (s.run1 e).cs.ovf) none

/-- A plane issue without effect, of an instruction that raises OVF (R149). -/
def State.voidIssue (s : State) (e : PlaneIssue) : State := (s.onPlane e false).beginIssue

/-- The results of a conversion's plane issue, as `Split.kept` holds them: what the state u after it holds. -/
def State.resultsOf (s u : State) (e : PlaneIssue) : List Pend :=
  let x := uses e.instr
  let lanes := (s.onPlane e).actLanes e.code &&& u.cg.alive
  let take (f : RegFile) (r : Nat) : Pend :=
    let o := u.cg.oldOf f r lanes
    { file := f, reg := r, lanes := lanes, old := o.1, oldPo := o.2 }
  x.wv.map (take .v) ++ if x.lfsr then [take .lfsr 0] else []
/-- A conversion's plane issue under action 3 keeps its results back until no lane of the instruction has overflowed (R149). -/
def State.keepIssue (s : State) (e : PlaneIssue) (last : Bool) : State :=
  let u := (s.updCG fun g => { g with xstat := 0#32 }).run1 e last
  let t := (s.onPlane e last).beginIssue
  t.updCS fun x =>
    { x with
      ovf := joinOvf x.ovf u.cs.ovf, kept := x.kept ++ s.resultsOf u e, sticky := x.sticky ||| u.cg.xstat
      doomed := x.doomed ||| (u.cg.dead &&& ~~~ s.cg.dead) }
/-- Install a kept result. -/
def State.installResult (s : State) (p : Pend) : State :=
  forLanes p.lanes s fun t l => match p.file with
    | .v => t.setV p.reg l (w32 (p.old.get l)) (inMask p.oldPo l)
    | .lfsr => t.setLfsr l (w32 (p.old.get l))
    | _ => t
/-- The outcome of an instruction under action 3 after its last plane issue (R149): where a lane overflowed it has done
nothing and its split stands at it; else it has all its effect. -/
def State.settleSlow (s : State) : State :=
  let x := s.cs
  let t := s.updCS fun x => { x with kept := [], sticky := 0#32, doomed := 0#32 }
  if x.ovf.isSome then t.updCS fun x => { x with offset := s.cur.here }
  else (x.kept.foldl State.installResult ((t.advance).updCG fun g => { g with xstat := g.xstat ||| x.sticky })).killLanes x.doomed
/-- A plane issue of an instruction under action 3 (R149): a conversion keeps its results back, another word has its effect
unless an OVF is known, and the last one brings the outcome. DEDUCED, log entry 37. -/
def State.slowIssue (s : State) (e : PlaneIssue) (last : Bool) : State :=
  let u := s.run1 e last
  if ¬ u.cur.issued ∨ u.cur.trapped then u
  else
    let t := if (ovfIndex e.instr).isSome then s.keepIssue e last else if s.cs.ovf.isSome then s.voidIssue e else u
    if last then { t with cur := { t.cur with next := (s.onPlane e).cur.next } }.settleSlow else t
/-- One plane issue, of an instruction under action 3 or of another. -/
def State.runPlane (s : State) (slow : Bool) (e : PlaneIssue) (last : Bool) : State :=
  if slow then s.slowIssue e last else s.run1 e last

/-- The first plane issue of an instruction that no trap stops: either every plane issue is ready, or it waits.
DEDUCED, log entry 23. -/
def State.runFirst (s : State) (slow : Bool) (es : List PlaneIssue) : State :=
  match es with
  | [] => s.wait
  | [e] => s.runPlane slow e true
  | e :: r =>
    match s.worst es with
    | some x => s.run1 x
    | none =>
      if ¬ s.allReady es then s.wait
      else if slow then (s.updCS fun x => { x with ovf := s.ovfOf es }).slowIssue e r.isEmpty
      else s.run1 e r.isEmpty

/-! ### What an issue leaves behind -/

/-- The instructions after which the signature restarts (R75); TRET reinstates a table whose signatures have restarted. -/
def resetsSig : Instr → Bool
  | .bra _ _ | .call _ _ | .callx _ _ | .ret _ | .brx _ _ | .mbr _ _ | .join _ | .region _ => true
  | _ => false

/-- TRET, which reinstates a saved split table. -/
def isTret : Instr → Bool
  | .tret _ => true
  | _ => false

/-- The issue is a YIELD whose guard passes (R103). -/
def State.yields (s : State) : Instr → Bool
  | .yield h => s.scalarGuard h
  | _ => false

/-- The signature with one more term: the offset, the plane-0 word, and the mask term where it is not 0 (R75, R370). -/
def foldSig (sig : Word) (off word : Nat) (mask : LaneMask) : Word :=
  let c := crcWord (crcWord sig off) word
  if mask = 0#32 then c else crcWord c mask.toNat
/-- The mask term of the issuing split (R370). -/
def State.maskTerm (s : State) : LaneMask := s.liveS ^^^ s.cg.alive

/-- A pending result of fixed latency. -/
def State.pendFixed (s : State) (f : RegFile) (r : Nat) (lanes : LaneMask) (ready : Nat) : List Pend :=
  if lanes = 0#32 then []
  else
    let o := s.cg.oldOf f r lanes
    [{ file := f, reg := r, lanes := lanes, ready := ready, old := o.1, oldPo := o.2 }]

/-- The pending results of fixed latency of a plane issue in this cycle; s is the state before it. -/
def State.pendsOf (s : State) (e : PlaneIssue) : List Pend :=
  let t := s.onPlane e
  let u := uses e.instr
  let lanes := t.actLanes e.code
  let ready := s.cycle + u.lat
  let one : LaneMask := if t.actScalar e.code then 1#32 else 0#32
  if u.lat = 0 ∨ 100 ≤ u.lat then []
  else
    u.wv.flatMap (fun r => t.pendFixed .v r lanes ready) ++ u.wp.flatMap (fun r => t.pendFixed .p r lanes ready)
      ++ u.ws.flatMap (fun r => t.pendFixed .s r one ready)
      ++ (if u.lfsr ∧ u.rv ≠ [] then t.pendFixed .lfsr 0 lanes ready else [])
      ++ match e.instr with
        | .mxWr _ m sl tl i _ =>
          if lanes = 0#32 then []
          else
            let tile := t.ct tl
            [{ file := .tile, reg := tl, lanes := lanes, ready := ready
               old := (t.sliceElems m sl i lanes).foldl (fun (o : SMap Nat) k => o.put k (packElem (tile.elem k) + 1)) [] }]
        | _ => []

/-- The variable-latency results that the accesses of this issue bring; g is the group before it. -/
def newPaths (g : Group) (after : List Access) : List Pend :=
  (after.drop g.inflight.length).flatMap fun a => a.regs.map fun r =>
    let o := g.oldOf r.1 r.2.1 r.2.2
    { file := r.1, reg := r.2.1, lanes := r.2.2, onPath := true, path := a.path, seq := a.seq, old := o.1, oldPo := o.2 }

/-- Pending results that still matter, without the lanes that newer ones write. -/
def prunePends (cycle : Nat) (old new : List Pend) : List Pend :=
  let shadow (p : Pend) : Pend :=
    if p.file = .tile ∨ p.onPath ∧ ¬ p.landed then p
    else { p with lanes := new.foldl (fun m q => if q.file = p.file ∧ q.reg = p.reg then m &&& ~~~ q.lanes else m) p.lanes }
  ((old.map shadow).filter fun p => decide (p.lanes ≠ 0#32) && (p.onPath || decide (cycle < p.ready))) ++ new

/-- The partitions that a group issues in: its own, and its partner's on the other core of a pair (R386). -/
def State.placesOf (s : State) (g : Group) : List (Nat × Nat) :=
  (g.core, partOf g.slot) :: match (s.b g.bid).partner with
    | some c => [(c, partOf ((s.b g.bid).slots.get g.index))]
    | none => []
/-- A plane issue takes its pipe in each partition that its group issues in, and P2 for 4 cycles (R17). -/
def State.takePipe (s : State) (g : Group) (e : PlaneIssue) : State :=
  let pipe := codePipeNum e.code
  (s.placesOf g).foldl (fun t x => t.updCo x.1 fun c =>
    { c with
      taken := c.taken.upd x.2 fun l => l ++ [pipe]
      pipe2 := if pipe = 1 then c.pipe2.put x.2 (s.cycle + 4) else c.pipe2 }) s

/-- What an issue makes of its own split: AGE 0 (R89), whether it yields (R103), the plane issues still to come (R92), the
stall count (R63), and, after a conversion under action 3, when it may issue again (R149). `sig` is the signature with the
instruction's term, where it has one. -/
def Split.issue (x : Split) (cycle : Nat) (more : List Later) (sig : Option Word) (yields : Bool) : Split :=
  { x with
    busyTo := cycle + 1, age := 0, yielded := yields, more := more, sig := sig.getD x.sig
    table := if more = [] then 0#32 else x.table, members := if more = [] then 0#32 else x.members
    slow := x.slow && decide (more ≠ []), heldTo := if x.slow ∧ more = [] then cycle + 4 else x.heldTo }

/-- The splits after an issue (R63, R82, R89): the issuing split becomes what `f` makes of it. A split that the issue made
starts after it; TRET reinstates the saved table as it was (R108). -/
def Group.settleSplits (g before : Group) (slot busy : Nat) (f : Split → Split) (asSaved : Bool) : SMap Split :=
  (List.range 4).foldl
    (fun (m : SMap Split) k =>
      let x := m.get k
      if ¬ x.valid then m
      else if asSaved then m.put k { x with busyTo := busy }
      else if k = slot then m.put k (f x)
      else if (before.splits.get k).valid then m
      else m.put k { x with busyTo := busy }) g.splits

/-- A block has issued: in this cycle for the first time, if it had not before (R350, R383). DEDUCED, log entry 73. -/
def State.begin (s : State) (bid : Nat) : State :=
  let b := s.b bid
  if b.live ∧ b.firstIssue = none then
    (s.updB bid fun b => { b with firstIssue := some s.cycle }).updGr b.grid fun g =>
      { g with begun := b.cores.foldl (fun m c => m.put c (s.cycle + 1)) g.begun }
  else s
/-- What every plane issue leaves behind: s is the state before it, t the state that its meaning leaves, and `f` what
becomes of its split. The results that an instruction under action 3 keeps back can be read when the split issues again. -/
def State.afterPlane (s t : State) (slow : Bool) (e : PlaneIssue) (f : Split → Split) : State :=
  let tret := isTret e.instr && s.cg.handler && !t.cg.handler
  let pends := (if slow ∧ ((ovfIndex e.instr).isSome ∨ t.cs.ovf.isSome) then [] else s.pendsOf e) ++ newPaths s.cg t.cg.inflight
  let pipe := codePipeNum e.code
  let u := t.updCG fun g =>
    { g with
      splits := g.settleSplits s.cg s.cur.slot (s.cycle + 1) f tret
      pend := prunePends s.cycle g.pend pends, noIssue := 0
      usedPipes := g.usedPipes ++ [pipe], waited := g.waited.put pipe 0
      pairCrc := if s.paired s.cur.gid then (s.onPlane e).pairFold e.instr s.cur.here (codeHead e.code) else g.pairCrc }
  (u.takePipe s.cg e).begin s.cg.bid

/-- An instruction of a poison pass has issued (R372): the pass ends after 2^20 of them. -/
def State.countPass (s : State) (gid : Nat) : State :=
  match s.cg.poisonPass with
  | some (n, x) =>
    let v := s.updCG fun g => { g with poisonPass := some (n + 1, x) }
    if 2 ^ 20 ≤ n + 1 then v.endPoisonPass gid else v
  | none => s

/-- A plane issue of the instruction is a conversion, or an MX.RD, whose destination the overflow table gives action 3
(R149, R292). DEDUCED, log entry 37. -/
def State.isSlow (s : State) (es : List PlaneIssue) : Bool :=
  es.any fun e => (ovfIndex e.instr).any fun k => decide (ovfAction s.cg.ovf k = 3)

/-- A plane issue as its instruction keeps it for later: with the scalar registers that it reads as they are now. -/
def State.laterOf (s : State) (e : PlaneIssue) : Later :=
  let t := s.onPlane e
  { plane := e.plane, code := e.code, stale := e.stale ++ (uses e.instr).rs.map fun r => (.s, r, 0, (t.s r).toNat, t.sp r) }
/-- A load whose result an instruction reads before it has landed returns no other write any more (R62, R218).
DESIGN CHOICE, log entry 133. -/
def State.fixLoads (s : State) (ps : List Pend) : State :=
  if ps.any (fun p => p.onPath && !p.landed) then
    s.updCG fun g => { g with inflight := g.inflight.map fun a =>
      if (ps.any fun p => p.onPath && decide (p.path = a.path ∧ p.seq = a.seq)) then { a with binds := a.binds.filter (·.away) } else a }
  else s
/-- What the first plane issue of an instruction leaves behind. -/
def State.afterIssue (s t : State) (es : List PlaneIssue) (sigw : Nat) : State :=
  match es with
  | [] => t
  | e :: r =>
    let stall := es.foldl (fun n x => max n (codeStall x.code)) 0
    let sig := if resetsSig e.instr then none else some (foldSig s.cs.sig s.cur.here sigw s.maskTerm)
    let f (x : Split) : Split :=
      Split.issue
        { x with stall := stall, slow := s.isSlow es, began := s.cycle, table := s.cg.ovf, members := s.cg.mmask }
        s.cycle (r.map s.laterOf) sig (s.yields e.instr)
    (s.afterPlane t (s.isSlow es) e f).countPass s.cur.gid

/-! ### The issue of a split -/

/-- The cross-lane instructions that form the sets of R173 are not ready while a named lane is held or behind (R174). -/
def formsSets : Instr → Bool
  | .voteany _ _ _ | .voteall _ _ _ | .ballot _ _ _ | .redadd _ _ _ | .redfadd _ _ _ | .redfmax _ _ _ | .redmaxs _ _ _
  | .amax _ _ _ | .scanadd _ _ _ | .scanfadd _ _ _ | .matchEq _ _ _ | .elect _ _ | .rdlane _ _ _ | .shfl _ _ _ => true
  | _ => false

/-- The instructions that follow a FADD of their group which waits at its home: those that access memory, give an engine a
command, or release (R217, R246). DESIGN CHOICE, log entry 122. -/
def followsAdds (i : Instr) : Bool :=
  pairHashes i || match i with
    | .ld _ _ _ _ _ _ | .sLdW _ _ _ _ | .sLdD _ _ _ _ | .sLdQ _ _ _ _ | .sLdO _ _ _ _ | .sLdAcqW _ _ _ _ | .mxAddraw _ _ _ => true
    | .fence _ _ _ | .fenceMir _ _ | .bar _ _ _ | .barArv _ _ _ | .cbar _ | .sbArv _ _ | .trig _ | .launch _ _ _ | .send _ _ _ => true
    | .tagI _ _ _ | .mxAinv _ _ | .exit _ => true
    | _ => false

/-- The instructions have been decoded and are legal: the checks of R66 steps 3 to 6, and the issue. An instruction that
differs on a higher plane raises sub-code 0 of PLANE_ALIGN even where it also crosses chunks. A cross-lane instruction waits
for held lanes only once those checks are made (R174). One that waits for something else raises no STALL_CHECK yet (R62). A
wait that raises a recorded trap has completed first (R358).
DESIGN CHOICE, log entry 106; DEDUCED, log entry 126; DESIGN CHOICE, log entry 127. -/
def State.issueDecoded (s : State) (es : List PlaneIssue) (sigw : Nat) : State :=
  let s := match es with
    | e :: _ => { s.onPlane e with cur := { (s.onPlane e).cur with pipe := codePipeNum e.code } }
    | [] => s
  match es.find? fun e => privileged e.instr && !s.cg.priv with
  | some e => s.planeTrap e.plane (codeHead e.code) State.privTrap
  | none =>
    match es.find? fun e => needsSampling e.instr && !s.hasSampling with
    | some e => s.planeTrap e.plane (codeHead e.code) State.unitAbsent
    | none =>
      match es with
      | [] => s.wait
      | e0 :: _ =>
        match es.find? fun e => codeDiffers e.code e0.code with
        | some e => s.planeTrap e0.plane (codeHead e0.code) fun u => u.mkTrap 0x04 0 (w32 e.plane)
        | none =>
          if es.any fun e => s.crossesChunk e.code then
            let (w, t) := s.drawWord
            t.planeTrap e0.plane (codeHead e0.code) fun u => u.mkTrap 0x04 1 w
          else
            let run := issuesOf es
            if s.held run || (formsSets e0.instr && !s.xReady) || (s.cg.adding && followsAdds e0.instr) then s.wait
            else if s.closeReads run ≠ [] ∧ (s.co s.cg.core).execctl.getLsbD 0 then
              let t := s.runFirst (s.isSlow run) run
              if t.cur.issued || t.cur.moved then s.stallTrap (s.closeReads run) else s.wait
            else
              let run0 := run
              let (run, s1) := s.settleAll run
              let slow := s1.isSlow run
              let t := s1.compare (s1.runFirst slow run)
              if t.cur.completed then
                let u := (s1.afterIssue s1 run sigw).runFirst slow run
                { u with cur := { u.cur with issued := true, trapped := true, completed := true } }
              else if t.cur.issued ∧ ¬ t.cur.trapped then s1.afterIssue (t.fixLoads ((s.closeReads run0).map (·.2))) run sigw else t

/-- A split tries to issue its next instruction: `cur` tells whether it did, whether a trap stopped the group, or whether
a wait has begun. DEDUCED, log entry 22; DEDUCED, log entry 23. -/
noncomputable def State.issueFresh (s : State) (gid slot : Nat) : State :=
  let s := s.point gid slot
  let planes := s.planesHere
  let (sg, s) : Except Trap (Option Nat) × State :=
    if planes.head? = some 0 then (.ok none, s)
    else match s.sigWord s.cg s.cur.here with
      | (.ok w, t) => (.ok (some w), t)
      | (.error e, t) => (.error e, t)
  match sg with
  | .error t => s.fetchTrap 0 t
  | .ok sg =>
    let (fs, s) := s.fetchAll planes
    match firstFault fs with
    | some (k, t) => s.fetchTrap k t
    | none =>
      match s.decodeAll fs with
      | .error (k, w) => s.planeTrap k w State.illegal
      | .ok es => s.issueDecoded es (match sg, fs with
        | some w, _ => w
        | none, (_, .code c) :: _ => codeHead c
        | none, (_, .beyond w) :: _ => w
        | none, _ => 0)

/-- The overflow table and the member mask of the issuing group, replaced. -/
def State.governed (s : State) (table : Word) (members : LaneMask) : State :=
  s.updCG fun g => { g with ovf := table, mmask := members }
/-- A later plane issue, under the table and the mask that govern its instruction. What it reads of a tile is settled now
(R62); all else has been, and the checks have been made. DEDUCED, log entry 125. -/
def State.issueLater (s : State) (e : PlaneIssue) (r : List Later) : State :=
  if s.held [e] then s.wait
  else
    let tile := (s.close s.cycle ((s.onPlane e).readsOf e.code e.instr)).filter fun y => decide (y.1.1 = .tile)
    let a := s.drawStale (tile.filter fun y => (staleFind e.stale .tile y.1.2.1 y.1.2.2).isNone)
    let e := { e with stale := e.stale ++ a.1 }
    let s1 : State := { a.2 with cur := { a.2.cur with checked := true } }
    let slow := s1.cs.slow
    let t := s1.compare (s1.runPlane slow e r.isEmpty)
    if t.cur.issued ∧ ¬ t.cur.trapped then s1.afterPlane t slow e fun x => x.issue s.cycle r none x.yielded else t
/-- The next plane issue of an instruction that has begun (R92). -/
noncomputable def State.issueMore (s : State) (gid slot : Nat) : State :=
  let s := s.point gid slot
  match s.cs.more with
  | [] => s.wait
  | x :: r =>
    match decodeCode x.code with
    | .error _ => s.wait
    | .ok i =>
      let e : PlaneIssue := { plane := x.plane, code := x.code, instr := i, stale := x.stale }
      let s := { s.onPlane e r.isEmpty with cur := { (s.onPlane e r.isEmpty).cur with pipe := codePipeNum x.code } }
      ((s.governed s.cs.table s.cs.members).issueLater e r).governed s.cg.ovf s.cg.mmask

/-- The next issue of a split. DEDUCED, log entry 22. -/
noncomputable def State.issueSplit (s : State) (gid slot : Nat) : State :=
  if ((s.g gid).splits.get slot).more = [] then s.issueFresh gid slot else s.issueMore gid slot

end Sys2Proof.Machine
end

