-- ==== Sys2Proof/Machine/Moves.lean ====
section
/-! DEFINITION. What may happen next (01_machine.md R17, R22; 03_control.md R87-R89; 12_launch.md R349-R357): the splits that can
issue, the events of the machine that are due, outside events, and the passing of a cycle. Where several things may happen,
the order depends on timing and is free. -/

namespace Sys2Proof.Machine

open Sys2Proof

/-! ### Time -/

/-- Stall cycles count down from the cycle after the last plane issue (R63); a yield lasts one cycle (R103). -/
def Split.tickOver (x : Split) (cycle : Nat) : Split :=
  if x.valid ∧ x.busyTo ≤ cycle ∧ x.more = [] then { x with stall := x.stall - 1, yielded := false } else x
/-- A block may begin to issue: the latest block of its grid to begin on each of its cores did so STAGGER cycles ago (R350),
whether or not it is still there. Stagger does not apply to a deterministic grid (R354). DEDUCED, log entry 73. -/
def State.staggered (s : State) (b : Block) : Bool :=
  let g := s.gr b.grid
  b.firstIssue.isSome || g.p.det || b.cores.all fun c =>
    decide (g.begun.get c = 0) || decide (g.begun.get c + g.p.stagger ≤ s.cycle + 1)
/-- Whether splits of a group may issue at all: it runs, and its block is bound and has started (R108, R350, R362). -/
def State.groupRuns (s : State) (g : Group) : Bool :=
  g.live && decide (g.stop = .running) && decide ((s.b g.bid).startAt ≤ s.cycle) && s.staggered (s.b g.bid) &&
    match (s.b g.bid).state with
    | .bound | .draining _ => true
    | _ => false
/-- A group at the end of a cycle: its pipes are free again, a written member mask takes effect (R115), and its no-issue
count advances unless it has issued or is exempt (R382). The stall counts of a group that is stopped stand still (R108). -/
def State.groupTick (s : State) (g : Group) : Group :=
  { g.settleMask with
    splits := if s.groupRuns g then g.splits.mapv fun x => x.tickOver s.cycle else g.splits
    noIssue := if g.usedPipes.isEmpty && s.counts g then g.noIssue + 1 else g.noIssue
    usedPipes := [], readyNow := [], aged := [] }
/-- The start of a cycle (R87, R88): splits of one offset merge, then held lanes return. -/
def State.startCycle (s : State) : State :=
  (s.groups.filter fun e => s.groupRuns e.2).foldl
    (fun (t : State) e => (t.mergeSome 3 e.1).updG e.1 fun g => g.heldJoin.heldForm) s
/-- A cycle passes. Without power no core clock runs, and the count of cycles stands still (R116). -/
def State.tickCycle (s : State) : State :=
  let n := s.nsRem + 1000000
  let t := { s with
    groups := s.groups.mapv s.groupTick, cores := s.cores.mapv fun c => { c with taken := [] }, cycle := s.cycle + s.powered.toNat, ns := s.ns + n / s.khz, nsRem := n % s.khz
    inputs := match s.inputs with
      | (k, i) :: r => (k - 1, i) :: r
      | [] => [] }
  t.startCycle

/-! ### Issues -/

/-- A split that can do something: its place, its pipe and what its attempt leaves. -/
structure Cand where
  gid : Nat
  slot : Nat
  pipe : Nat
  after : State

/-- The pipe of a partition takes another instruction in this cycle: P0, P1 and P3 take one each, and P2 one in 4 cycles
(R17, R356). -/
def State.placeFree (s : State) (pipe : Nat) (place : Nat × Nat) : Bool :=
  let c := s.co place.1
  if pipe = 1 then decide (c.pipe2.get place.2 ≤ s.cycle)
  else decide (((c.taken.get place.2).filter fun p => decide (p = pipe)).length < if pipe = 0 then 2 else 1)
/-- The pipes that a group needs for an instruction are free. DEDUCED, log entry 17. -/
def State.pipeFree (s : State) (g : Group) (pipe : Nat) : Bool := (s.placesOf g).all (s.placeFree pipe)
/-- Splits of a group that is held back for a save or a flush make the plane issues they have begun (R92, R108). -/
def Group.mayEnd (g : Group) : Bool := g.live && decide (g.stop = .running)

/-- A split may try to issue: it has the cycle, and neither STL nor a conversion under action 3 holds it back (R63, R149).
DESIGN CHOICE, log entry 21. -/
def State.mayTry (s : State) (g : Group) (k : Nat) : Bool :=
  let x := g.splits.get k
  x.valid && decide (x.busyTo ≤ s.cycle) && decide (g.usedPipes = [] ∨ k ∈ g.readyNow) &&
    if x.more = [] then s.groupRuns g && decide (x.stall = 0 ∧ x.heldTo ≤ s.cycle) && x.ovf.isNone else g.mayEnd
/-- What the splits of a group may do. -/
noncomputable def State.tries (s : State) (gid : Nat) : List Cand :=
  ((List.range 4).filter (s.mayTry (s.g gid))).map fun k =>
    let t := s.issueSplit gid k
    ⟨gid, k, t.cur.pipe, t⟩
/-- Those of some tries that can issue, or raise their trap, once their pipe takes them; a trap waits until every other split
has made all plane issues of its last instruction (R89, R108). DESIGN CHOICE, log entry 21. -/
def State.ready (s : State) (cs : List Cand) : List Cand :=
  cs.filter fun c => if c.after.cur.trapped then (s.g c.gid).othersWhole c.slot else c.after.cur.issued
/-- What those that begin a wait leave: they take no pipe, and do so in the cycle in which they are first considered
(R101, R235). -/
def begins (cs : List Cand) : List State :=
  cs.filterMap fun c =>
    if c.after.cur.moved ∧ ¬ c.after.cur.issued ∧ ¬ c.after.cur.trapped then some { c.after with cur := {} } else none

/-- Split a goes before split b to one pipe (R89): a yielding split after the others (R103), then by age from 32, then by
offset, then by slot. -/
def goesBefore (a b : Split) : Bool :=
  if a.yielded ≠ b.yielded then b.yielded
  else if 32 ≤ a.age ∨ 32 ≤ b.age then decide (b.age < a.age) || (decide (a.age = b.age) && decide (a.offset < b.offset))
  else decide (a.offset < b.offset)
/-- The splits of a group that its pipes take: the first of each pipe. -/
def Group.winners (g : Group) (cs : List Cand) : List Cand :=
  cs.filter fun c => cs.all fun d => decide (d.slot = c.slot) || decide (d.pipe ≠ c.pipe) ||
    goesBefore (g.splits.get c.slot) (g.splits.get d.slot)
    || (!goesBefore (g.splits.get d.slot) (g.splits.get c.slot) && decide (c.slot < d.slot))
/-- The other ready splits of the group that needed the pipe are passed over, once a cycle (R89), and only those that were
ready may still issue in this cycle. -/
def State.passOver (s : State) (c : Cand) (cs : List Cand) : State :=
  let past := cs.filter fun d => decide (d.slot ≠ c.slot ∧ d.pipe = c.pipe ∧ d.slot ∉ (s.g c.gid).aged)
  let older (m : SMap Split) (d : Cand) : SMap Split :=
    if (m.get d.slot).valid then m.upd d.slot fun x => { x with age := min (x.age + 1) 63 } else m
  s.updG c.gid fun g =>
    { g with splits := past.foldl older g.splits, readyNow := cs.map (·.slot), aged := g.aged ++ past.map (·.slot) }

/-- The issue of a candidate is over. -/
def State.rest (s : State) : State := { s with cur := {} }
/-- Group a has waited longer for a pipe than group b, or as long in a lower slot (R356). DEDUCED, log entry 17. -/
def Group.waitedMore (a b : Group) (pipe : Nat) : Bool :=
  decide (b.waited.get pipe < a.waited.get pipe) ||
    (decide (a.waited.get pipe = b.waited.get pipe) && decide (a.slot < b.slot))
/-- The candidates that the pipes take: none whose group shares a partition with a group that has waited longer for the same
pipe (R356), be it a pair's that waits for its other partition. DEDUCED, log entry 17. -/
def State.served (s : State) (cs : List Cand) : List Cand :=
  cs.filter fun c => s.pipeFree (s.g c.gid) c.pipe && cs.all fun d => decide (d.gid = c.gid) || decide (d.pipe ≠ c.pipe)
    || !((s.placesOf (s.g d.gid)).any fun x => decide (x ∈ s.placesOf (s.g c.gid))) || !(s.g d.gid).waitedMore (s.g c.gid) c.pipe
/-- What the issue of a candidate leaves, those that are passed over growing older (R89): before it, where it raises a
recorded trap and so has issued when the group stops (R108). -/
noncomputable def State.taken (s : State) (c : Cand) (cs : List Cand) : State :=
  if c.after.cur.completed then ((s.passOver c cs).issueSplit c.gid c.slot).rest
  else if c.after.cur.issued ∧ ¬ c.after.cur.trapped then (c.after.passOver c cs).rest
  else c.after.rest
/-- The splits of each group that are ready. -/
noncomputable def State.readySplits (s : State) : List (Nat × List Cand) := s.groups.map fun e => (e.1, s.ready (s.tries e.1))
/-- What the issues of this cycle may leave: first every split that begins a wait does so; then each pipe takes the
instruction that R356 and R89 choose. The order among different pipes and partitions is free. -/
noncomputable def State.issueMoves (s : State) : List State :=
  let bs := s.groups.flatMap fun e => begins (s.tries e.1)
  if bs ≠ [] then bs
  else
    let all := s.readySplits
    (s.served (all.flatMap fun x => (s.g x.1).winners x.2)).map fun c =>
      s.taken c (((all.find? fun x => decide (x.1 = c.gid)).map (·.2)).getD [])
/-- The groups whose splits are ready for a pipe that has not taken them in this cycle have waited one more (R356). -/
noncomputable def State.waitTick (s : State) : State :=
  s.readySplits.foldl
    (fun t x => t.updG x.1 fun g =>
      let ps := (List.range 3).filter fun p => decide (p ∉ g.usedPipes) && x.2.any fun c => decide (c.pipe = p)
      { g with waited := ps.foldl (fun m p => m.put p (m.get p + 1)) g.waited }) s
/-- The cycle ends. -/
noncomputable def State.endCycle (s : State) : State := s.waitTick.tickCycle

/-! ### Placement (R349-R355): one that the firmware may choose -/

/-- Numbers below n in a freely rotated order. -/
def rotated (draw n : Nat) : List Nat := (List.range n).map fun k => (Config.pick draw + k) % max 1 n
/-- A block can be added to a core on which some groups and scratchpad have been placed already. -/
def State.roomBeside (s : State) (p : Params) (taken : List (Nat × Nat)) (core groups : Nat) : Bool :=
  let mine := taken.filter fun x => decide (x.1 = core)
  s.fits core (mine.foldl (fun a x => a + x.2) groups) ((mine.length + 1) * p.scratch)
/-- How many more members of a block, or whole blocks of at most 128 groups, a core takes beside what has been placed. -/
def State.roomLeft (s : State) (p : Params) (taken : List (Nat × Nat)) (core : Nat) : Nat :=
  let mine := taken.filter fun x => decide (x.1 = core)
  let slots := ((s.slotsFree core).length - mine.foldl (fun a x => a + x.2) 0) / max 1 (min coreSlots p.groups)
  if p.scratch = 0 then slots else min slots ((scratchBytes - s.scratchUsed core) / p.scratch - mine.length)
/-- The core that a member is placed on, of some that have room: the first of those with most room where blocks must lie on
distinct cores (R25, R386), of those with least otherwise. -/
def State.preferred (s : State) (p : Params) (taken : List (Nat × Nat)) (cs : List Nat) : Option Nat :=
  cs.foldl
    (fun (a : Option Nat) c => match a with
      | none => some c
      | some d =>
        let x := s.roomLeft p taken c
        let y := s.roomLeft p taken d
        if (if p.paired ∨ 1 < p.clust then y < x else x < y) then some c else a) none
/-- Cores for one block in one logical cluster, besides what is taken and apart from some cores: its own core first, where it
has one (R354), and the next core of the cluster as the partner of that where it has room.
DESIGN CHOICE, log entry 71. -/
def State.coresIn (s : State) (p : Params) (taken : List (Nat × Nat)) (apart own order : List Nat) (k : Nat) : Option (List Nat) :=
  let room (acc : List Nat) (c : Nat) : Bool :=
    decide (c / 16 = k) && decide (c ∉ acc) && decide (c ∉ apart) && s.roomBeside p taken c (p.groupsOn acc.length)
  let next := own.map fun c => c / 16 * 16 + (c + 1) % 16
  let cs := (List.range (p.coresPer - own.length)).foldl
    (fun (acc : List Nat) _ =>
      match (next.find? (room acc)).or (s.preferred p taken (order.filter (room acc))) with
      | some c => acc ++ [c]
      | none => acc) own
  if cs.length = p.coresPer then some (if p.paired then distinctAsc cs else cs) else none
/-- What the blocks of a deterministic grid take of their own cores (R354). -/
def Params.ownCores (p : Params) (bs : List Nat) : List (Nat × Nat) :=
  if p.det then bs.map fun b => (b / max 1 p.perCore, p.groups) else []
/-- Cores for the blocks of one cluster launch, or for one block, besides what is taken and apart from those of its blocks that
have exited: all in one logical cluster. -/
def State.launchCores (s : State) (p : Params) (taken : List (Nat × Nat)) (gone order : List Nat) (bs : List Nat) (k : Nat) :
    Option (List (List Nat)) :=
  (bs.foldl
    (fun (acc : Option (List (List Nat) × List (Nat × Nat))) b => acc.bind fun (done, taken) =>
      let own := (p.ownCores [b]).map (·.1)
      (s.coresIn p taken (gone ++ if 1 < p.clust then done.flatten else []) own order k).map fun cs =>
        (done ++ [cs], taken ++ (cs.zipIdx.filter fun x => decide (x.1 ∉ own)).map fun x => (x.1, p.groupsOn x.2)))
    (some ([], taken))).map (·.1)
/-- Cores for the blocks of a unit of a grid, cluster launch by cluster launch (R25, R353, R354), the own cores of the
deterministic ones being kept for them. -/
def State.coresFor (s : State) (h : Nat) (bs order clusters : List Nat) : Option (List (List Nat)) :=
  let p := (s.gr h).p
  (((bs.splitBy fun a b => decide (p.launchOf a = p.launchOf b ∧ 1 < p.clust)).foldl
    (fun (acc : Option (List (List Nat) × List (Nat × Nat))) launch => acc.bind fun (done, taken) =>
      let gone := s.exitedCores h (launch.headD 0)
      let ks := clusters.filter fun k => gone.all (fun c => decide (c / 16 = k)) &&
        (p.ownCores launch).all fun x => decide (x.1 / 16 = k)
      (ks.findSome? (s.launchCores p taken gone order launch)).map fun cs =>
        (done ++ cs, taken ++ cs.flatMap fun c => (c.zipIdx.filter fun x =>
          !(p.det && decide (x.1 = launch.headD 0 / max 1 p.perCore))).map fun x => (x.1, p.groupsOn x.2)))
    (some ([], p.ownCores bs))).map (·.1))

/-- The block of a grid whose unit is next in dispatch order (R351): of those handed back or flushed, or else of those that have
not been bound; none for which a record waits. DEDUCED, log entry 132. -/
def Grid.nextBlock (g : Grid) (waiting : List Nat) : Option Nat :=
  let back := g.heldBack waiting
  if g.p.persist ∧ back = [] then (if g.bound.isEmpty then some 0 else none)
  else
    (if back ≠ [] then back
     else (List.range g.p.blocks).filter fun b =>
        !g.bound.get b && decide (b % max 1 g.p.clust = 0) && decide (b ∉ waiting)).foldl
      (fun (a : Option Nat) b => match a with
        | some x => if g.p.launchKey b < g.p.launchKey x then some b else a
        | none => some b) none
/-- What an event leaves of a state from which values have been drawn for it; s where it does nothing. -/
def State.tried (s u : State) (f : State → Host.Outcome State Fault Refusal) : State :=
  let t := outState (f u) u
  if t = u then s else t
/-- What a bind record of the firmware's choice for a grid leaves; the grid's state where it has none.
DESIGN CHOICE, log entry 71. -/
def State.bindSome (s : State) (h : Nat) : State :=
  let g := s.gr h
  if g.admitted ∧ ¬ g.terminal then
    match g.nextBlock (s.recordsOf h) with
    | some b =>
      if s.ctlGrid = some h then s.tried s (execBlockBind h b [0]) else
      match s.coresFor h ((g.unitOf b []).map (·.1)) (rotated s.free s.ncores) (rotated (s.free + 1) 12) with
      | some cs => s.tried { s with free := s.free + 2 } (execBlockBind h b cs.flatten)
      | none => s
    | none => s
  else s
/-- What the restore of a saved unit leaves: on its cores, or where they are taken, on others of its die. -/
def State.restoreSome (s : State) (bid : Nat) : State :=
  let b := s.b bid
  if b.state = .saved then
    let mine := (s.unitOf bid).filter fun q => decide ((s.b q).state = .saved)
    let own := mine.flatMap fun q => (s.b q).cores
    let t := outState (execUnitRestore bid own s) s
    if t ≠ s then t
    else
      match s.coresFor b.grid (mine.map fun q => (s.b q).blk) (rotated s.free s.ncores) (rotated (s.free + 1) 12) with
      | some cs => s.tried { s with free := s.free + 2 } (execUnitRestore bid cs.flatten)
      | none => s
  else s

/-! ### Events of the machine -/

/-- What the events of a group leave. -/
def State.groupEvents (s : State) (gid : Nat) : List State :=
  (List.range 6).map (fun p => outState (execAccessComplete gid p s) s)
    ++ [outState (execHandlerEntry gid s) s, outState (execRegionRestart gid s) s, outState (execGroupSlotRelease gid s) s]
/-- What the events of a block leave. A collective that needs nobody else, or that has lost a rank, completes by itself. -/
def State.blockEvents (s : State) (bid : Nat) : List State :=
  let b := s.b bid
  b.copy.flatMap (fun x =>
      [outState (execSluiceCommandRun bid x.1 s) s, outState (execFollowOnIssue bid x.1 s) s]
        ++ x.2.queue.map fun c => outState (execCopyCommandComplete bid x.1 c.num s) s)
    ++ b.sm.flatMap (fun x => [outState (execSamplingCommandRun bid x.1 s) s, outState (execBxLanding bid x.1 s) s])
    ++ b.col.flatMap (fun x => x.2.queue.map fun c => outState (execCollectiveComplete bid x.1 c.num [] s) s)
    ++ [outState (execPreemptionSave bid s) s, outState (execFlushAndRestart bid s) s,
      s.restoreSome bid]
/-- What the events of a core leave. What a scan observes is free. -/
def State.coreEvents (s : State) (core : Nat) : List State :=
  let c := s.co core
  (List.range 4).flatMap (fun p => if c.mmas = [] then [] else
      [outState (execMmaCommandStart core p s) s, outState (execKStep core p s) s, outState (execAdapterStage core p s) s,
        outState (execMmaCommandComplete core p s) s])
    ++ [outState (execColourStep core s) s, outState (execArrayUnbind core s) s, outState (execDrainQuiescent core s) s,
      outState (execTlbInvalidateDone core s) s]
    ++ c.tiles.map (fun t => outState (execTileUnbind core t.1 s) s)
    ++ if s.scanDue core then
        [outState (execScanEnd core (Config.freeWord s.free).toNat { s with free := s.free + 1 }) s]
      else []
/-- What the events of a die leave. -/
def State.dieEvents (s : State) (die : Nat) : List State :=
  (s.di die).adapters.flatMap fun k => [outState (execAdapterFillLand die k.1 s) s, outState (execAdapterFillFail die k.1 s) s]
/-- What the events of a grid leave. DESIGN CHOICE, log entry 70. -/
def State.gridEvents (s : State) (h : Nat) : List State :=
  [outState (execGridAdmit h s) s, s.bindSome h, outState (execGridComplete (.done h) s) s]
/-- What the events of the device leave. -/
def State.deviceEvents (s : State) : List State :=
  s.outlets.map (fun q => outState (execOutletWrite q.1 s) s)
    ++ [outState (execTickFlitsApply s) s, outState (execMirrorAck s) s, outState (execMirrorResyncDone s) s,
      outState (execContainResetEnd s) s, outState (execControlGridRestart s) s]
/-- Every event that changes something. -/
def State.events (s : State) : List State :=
  (s.groups.flatMap (fun e => s.groupEvents e.1) ++ s.blocks.flatMap (fun e => s.blockEvents e.1)
    ++ s.cores.flatMap (fun e => s.coreEvents e.1) ++ s.dies.flatMap (fun e => s.dieEvents e.1)
    ++ s.grids.flatMap (fun e => s.gridEvents e.1) ++ s.deviceEvents).filter fun t => decide (t ≠ s)
/-- A split of a group whose remote wait has outlasted RGRACE. -/
def State.remoteSlot (s : State) (gid : Nat) : Option Nat := (List.range 4).find? fun k => (s.remoteDue gid k).isSome
/-- A group has an event that is due: its OVF (R149), the watchdog or the end of a remote wait (R382). -/
def State.groupDue (s : State) (gid : Nat) : Option State :=
  if (s.ovfSplit gid).isSome then some (outState (execOvf gid s) s)
  else if s.watchdogDue gid then some (outState (execWatchdog gid s) s)
  else (s.remoteSlot gid).map fun k => outState (execRemoteTimeout gid k s) s
/-- A die has one: a trap record that waits has a slot (R374), or a bind record its resources (R350). -/
def State.dieDue (s : State) (die : Nat) (d : Die) : Option State :=
  if d.enqueues then some (outState (execDeferredRecordEnqueue die s) s)
  else match d.binds.head? with
    | some r => if s.mayCarry r.grid ((s.gr r.grid).unitOf r.blk r.cores) then some (outState (execBlockBind r.grid r.blk r.cores s) s) else none
    | none => none
/-- Events that come as soon as they are due: those of groups and dies, a drain that becomes a save (R383), and the tick
boundaries of rank 0 (R404). DESIGN CHOICE, log entry 20. -/
def State.dueEvent (s : State) : Option State :=
  (((s.groups.findSome? fun e => s.groupDue e.1).or (s.dies.findSome? fun e => s.dieDue e.1 e.2)).or
    ((s.blocks.find? fun e => s.drainLate e.1).map fun e => outState (execDrainToSave e.1 s) s)).or
    (if s.rank = 0 ∧ s.tickDue then some (outState (execExchangeTick s) s) else none)

/-! ### Outside events -/

/-- The rows of the table that come from outside the units of the module: the host, the other modules, power, errors, the
firmware's policy and the physics of the links. DESIGN CHOICE, log entry 19. -/
def isOutside : Instr → Bool
  | .pairCompare _ _ | .firmwareScanAbort _ | .collectiveComplete _ _ _ _ | .securityAlarm _ | .exchangeTick | .ptpLock _
  | .peerAccess _ _ _ | .portPartnerDetect _ | .portTrainPass _ | .portTrainTimeout _ | .portRecoverEnter _ | .portRecoverDone _
  | .portRecoverFail _ | .flitReplay _ | .dieLinkRetry _ _ | .inletWrite _ _ | .outconsWrite _ _ | .hostApertureAccess _
  | .attestationRequest _ | .provisioningCommand _ | .powerUp _ | .moduleReset | .headgateFault _ | .thermalThrottle _ _
  | .correctableError _ | .uncorrectableError _ _ | .gridAdmit _ | .blockBind _ _ _ | .preemptRequest _ | .unitRestore _ _
  | .powerLoss | .powerLimitClock _ | .adapterKeyEvict _ _ | .tlbEntryDrop _ _ _ | .firmwareUpdateRequest _ => true
  | .gridComplete (.kill _) => true
  | _ => false
/-- The outside events that do something while the module has no power: power-up, and what happens beyond the module. -/
def worksOff : Instr → Bool
  | .powerUp _ | .hostApertureAccess _ | .peerAccess _ _ _ => true
  | _ => false
/-- The outside event that lands now, and the state without it. DESIGN CHOICE, log entry 19. -/
def State.dueInput (s : State) : Option (Instr × State) :=
  match s.inputs with
  | (0, i) :: r => some (i, { s with inputs := r })
  | _ => none

/-! ### The choice -/

/-- What may happen next, as the states it leaves. DESIGN CHOICE, log entry 16. -/
noncomputable def State.moves (s : State) : List State := s.issueMoves ++ s.events
/-- After an issue the cycle ends as soon as no pipe takes a further instruction (R356). -/
noncomputable def State.endIssue (s : State) : State := if s.issueMoves = [] then s.endCycle else s
/-- The move that is made: the only one, or a free one of several. Where no split can issue, the cycle may also end with
events still to come: what they wait for takes its time. DESIGN CHOICE, log entry 16. -/
noncomputable def State.move (s : State) : State :=
  let is := s.issueMoves
  let es := s.events
  match is, es with
  | [], [] => s.endCycle
  | [t], [] => t.endIssue
  | _, _ =>
    let k := Config.choice s.free % (max is.length 1 + es.length)
    let free (t : State) : State := { t with free := max t.free (s.free + 1) }
    match is with
    | [] => if k = 0 then (free s).endCycle else free (es.getD (k - 1) s)
    | _ => if k < is.length then (free (is.getD k s)).endIssue else free (es.getD (k - is.length) s)

end Sys2Proof.Machine
end

