-- ==== Sys2Proof/Machine/Step.lean ====
section
/-! DEFINITION. One step of the machine: the outside event that lands now; else, while the module has power, an event that
is due; else one move, an issue or an event of the machine (`Machine/Moves.lean`); else a cycle passes. -/

namespace Sys2Proof.Machine

open Sys2Proof

/-- One step. DESIGN CHOICE, log entry 20. -/
noncomputable def step (s : State) : Host.Outcome State Fault Refusal :=
  match s.dueInput with
  | some (i, t) => if isOutside i && (t.powered || worksOff i) then exec i t else .next t
  | none =>
    if ¬ s.powered then .next s.tickCycle
    else
      match s.dueEvent with
      | some t => .next t
      | none => .next s.move

/-! ### An instruction in place -/

/-- Where `State.withFetchWord` puts the code object, and its tables: VA and PA 0 to 2^29 are one page. -/
def fetchBase : Nat := 0x10000
def fetchTable : Nat := 0x100000
/-- The parameters of the grid that runs it: one privileged group with every register. -/
def fetchParams : Params :=
  { code := fetchBase, privileged := true, gridx := 1, gridy := 1, gridz := 1, groups := 1, scratch := 131072, vregs := 64 }
/-- The code object: 4 KiB of text on one plane. -/
def fetchObj : CodeObj := { va := fetchBase, textlen := 4096 }
/-- The memory with the instruction and the two table entries that its fetch needs. -/
def fetchMem (m : Memory) (w : Nat) : Memory :=
  ((m.write (fetchBase + 0x400) (leBytes 20 w)).write fetchTable (leBytes 8 (fetchTable + 0x10001))).write (fetchTable + 0x10000)
    (leBytes 8 0x1F)

/-- s with the instruction of a table word where the next step fetches: one group of a privileged grid stands before it on
core 0, and nothing else is resident that could move. -/
def State.withFetchWord (s : State) (_nbits w : Nat) : State :=
  { s with
    powered := true, broughtUp := true, mem := fetchMem s.mem w, memPo := [], red := []
    ttblo := w32 (fetchTable + 1), ttbhi := 0#32
    groups := [(1, entryGroup fetchParams 1 0 1 0 0 0 0 0 false)]
    blocks := [(1, { live := true, grid := 1, members := [0], groups := [1], groupsLeft := 1 })]
    grids := [(1, { live := true, state := .running, p := fetchParams, obj := fetchObj, bound := [(0, true)], admitted := true })]
    queues := [], inputs := [], outlets := [], received := [], mirror := [], ctlGrid := none, containBusy := none
    cores := s.cores.mapv fun c =>
      { c with mmas := [], tiles := [], array := {}, tlb := [], icache := [], inv := none, drains := [], scan := {}, pipe2 := [], taken := [], execctl := 0#32 }
    dies := s.dies.mapv fun d => { d with adapters := [], waiting := [], deferred := [], tlb := [], binds := [], bindLog := [] }
    log := [], writes := [], locked := false, nextGid := 2, nextBid := 2, cur := {} }

end Sys2Proof.Machine
end

