-- ==== Sys2Proof/Safety.lean ====
section
/-! DEFINITION. What counts as a safe step and a safe run, and the words that the statements use: when an instruction issues
with neither a trap nor a death, and what a step leaves unchanged. -/

namespace Sys2Proof.Machine

open Sys2Proof

/-! ### Safe steps -/

/-- The memory has its canonical form. -/
def State.MemoryCanonical (s : State) : Prop := Memory.wf s.mem = true
/-- A step of s neither faults nor refuses, and leaves a state whose memory has its canonical form. -/
def SafeStep (s : State) : Prop := ∃ t, step s = .next t ∧ t.MemoryCanonical
/-- n steps from s, each of them safe. -/
def SafeRun : Nat → State → Prop
  | 0, s => s.MemoryCanonical
  | n + 1, s => s.MemoryCanonical ∧ ∃ t, step s = .next t ∧ SafeRun n t

/-! ### Issues without a trap (02_encoding.md R42, R66; 13_traps.md R377, R378) -/

/-- No lane of a set reads a poisoned guard predicate. -/
def guardClean (h : Hdr) (named : LaneMask) (s : State) : Prop :=
  h.ge = true → ∀ l, l < 32 → inMask named l = true → s.pp h.gp l = false
/-- A plane issue of a lane-class instruction with the checks of `i` meets no trap of its word, no poisoned guard and, where
some lane is active, no poisoned scalar operand. -/
def laneClean (i : Instr) (h : Hdr) (s : State) : Prop :=
  s.hasIssuer = true ∧ s.wordTrap i = none ∧ guardClean h (s.liveS &&& s.cur.lanes &&& s.cg.mmask) s ∧
    (s.laneActive h = 0#32 ∨ ∀ r, r ∈ (uses i).rs → s.sp r = false)
/-- A scalar-class instruction whose guard holds meets no trap of its word, no poisoned guard and no poisoned operand. -/
def scalarClean (i : Instr) (h : Hdr) (s : State) : Prop :=
  s.hasIssuer = true ∧ s.wordTrap i = none ∧ guardClean h (s.liveS &&& s.cg.mmask) s ∧ s.scalarGuard h = true ∧
    ∀ r, r ∈ (uses i).rs → s.sp r = false
/-- A control-class instruction that names these lanes meets no trap of its word and no poisoned guard. -/
def ctlClean (i : Instr) (h : Hdr) (named : State → LaneMask) (s : State) : Prop :=
  s.hasIssuer = true ∧ s.wordTrap i = none ∧ guardClean h (named s) s

/-! ### Frames -/

/-- Nothing outside the issuing group changes: no other group, and no byte of device memory. -/
def OutsideKept (s t : State) : Prop :=
  { t with groups := s.groups, cur := s.cur } = s ∧ (∀ k, k ≠ s.cur.gid → t.g k = s.g k) ∧ ∀ a, t.devByte a = s.devByte a
/-- The issuing split stands at the next instruction, and every other split where it stood. -/
def Advanced (s t : State) : Prop :=
  t.cur = s.beginIssue.cur ∧ t.cs = { s.cs with offset := s.cur.next, waitOn := none } ∧
    ∀ k, k ≠ s.cur.slot → t.cg.splits.get k = s.cg.splits.get k

/-- The step of a lane-class instruction that writes register d in its active lanes and nothing else. -/
structure LaneStep (h : Hdr) (d : Nat) (val : State → Nat → Word) (po : State → Nat → Bool) (s t : State) : Prop where
  outside : OutsideKept s t
  advanced : Advanced s t
  value : ∀ l, l < 32 → inMask (s.laneActive h) l = true → t.cg.vr.get (32 * d + l) = val s l
  mark : ∀ l, l < 32 → inMask (s.laneActive h) l = true → inMask (t.cg.vpo.get d) l = po s l
  otherValues : ∀ r l, l < 32 → (r ≠ d ∨ inMask (s.laneActive h) l = false) →
    t.cg.vr.get (32 * r + l) = s.cg.vr.get (32 * r + l)
  otherMarks : ∀ r l, l < 32 → (r ≠ d ∨ inMask (s.laneActive h) l = false) →
    inMask (t.cg.vpo.get r) l = inMask (s.cg.vpo.get r) l
  rest : { t.cg with vr := s.cg.vr, vpo := s.cg.vpo, splits := s.cg.splits } = s.cg

/-- The step of a lane-class instruction that writes predicate q in its active lanes and nothing else. -/
structure LanePredStep (h : Hdr) (q : Nat) (val po : State → Nat → Bool) (s t : State) : Prop where
  outside : OutsideKept s t
  advanced : Advanced s t
  value : ∀ l, l < 32 → inMask (s.laneActive h) l = true → inMask (t.cg.pr.get q) l = val s l
  mark : ∀ l, l < 32 → inMask (s.laneActive h) l = true → inMask (t.cg.ppo.get q) l = po s l
  otherValues : ∀ r l, l < 32 → (r ≠ q ∨ inMask (s.laneActive h) l = false) →
    inMask (t.cg.pr.get r) l = inMask (s.cg.pr.get r) l
  otherMarks : ∀ r l, l < 32 → (r ≠ q ∨ inMask (s.laneActive h) l = false) →
    inMask (t.cg.ppo.get r) l = inMask (s.cg.ppo.get r) l
  rest : { t.cg with pr := s.cg.pr, ppo := s.cg.ppo, splits := s.cg.splits } = s.cg

/-- The step of a scalar-class instruction that writes these scalar registers, unmarked, and nothing else. -/
structure ScalarStep (ws : List (Nat × Word)) (s t : State) : Prop where
  outside : OutsideKept s t
  advanced : Advanced s t
  value : ∀ r x, (r, x) ∈ ws → t.cg.sr.get r = x ∧ t.cg.spo.get r = false
  others : ∀ r, r ∉ ws.map Prod.fst → t.cg.sr.get r = s.cg.sr.get r ∧ t.cg.spo.get r = s.cg.spo.get r
  rest : { t.cg with sr := s.cg.sr, spo := s.cg.spo, splits := s.cg.splits } = s.cg

end Sys2Proof.Machine
end

