-- ==== Sys2Proof/Certificates/Slice0/Obligations.lean ====
section
/-! DEFINITION. The statements for the provers, and the words they share. A statement that rests on a choice of the model and
not on a rule of the spec says so in its own text. -/

namespace Sys2Proof.Claims

open Sys2Proof Sys2Proof.Machine

/-! ### Lanes -/

/-- An instruction that writes a vector register in the active lanes of its plane issue. -/
def LaneResult (i : Instr) (h : Hdr) (d : Nat) (val : State → Nat → Word) (po : State → Nat → Bool) : Prop :=
  ∀ s, laneClean i h s → ∃ t, exec i s = .next t ∧ LaneStep h d val po s t

/-- One that writes a predicate. -/
def LanePredResult (i : Instr) (h : Hdr) (q : Nat) (val po : State → Nat → Bool) : Prop :=
  ∀ s, laneClean i h s → ∃ t, exec i s = .next t ∧ LanePredStep h q val po s t

/-- vd := f(va, vb). -/
def LaneAB (mk : Hdr → Nat → Nat → Nat → Instr) (f : Word → Word → Word) : Prop :=
  ∀ h d a b, LaneResult (mk h d a b) h d (fun s l => f (s.v a l) (s.v b l)) fun s l => s.vp a l || s.vp b l

/-- vd := f(va, vb, vd), with the old vd. -/
def LaneABD (mk : Hdr → Nat → Nat → Nat → Instr) (f : Word → Word → Word → Word) : Prop :=
  ∀ h d a b, LaneResult (mk h d a b) h d (fun s l => f (s.v a l) (s.v b l) (s.v d l))
    fun s l => s.vp a l || s.vp b l || s.vp d l

/-- vd := f(vd, va), with the old vd. -/
def LaneDA (mk : Hdr → Nat → Nat → Instr) (f : Word → Word → Word) : Prop :=
  ∀ h d a, LaneResult (mk h d a) h d (fun s l => f (s.v d l) (s.v a l)) fun s l => s.vp d l || s.vp a l

/-- vd := f(va). -/
def LaneA (mk : Hdr → Nat → Nat → Instr) (f : Word → Word) : Prop :=
  ∀ h d a, LaneResult (mk h d a) h d (fun s l => f (s.v a l)) fun s l => s.vp a l

/-- vd := f(vd, imm8). -/
def LaneDI (mk : Hdr → Nat → Nat → Instr) (f : Word → Nat → Word) : Prop :=
  ∀ h d m, LaneResult (mk h d m) h d (fun s l => f (s.v d l) m) fun s l => s.vp d l

/-- p[d] := f(p[d], p[b]). -/
def LanePP (mk : Hdr → Nat → Nat → Instr) (f : Bool → Bool → Bool) : Prop :=
  ∀ h q b, LanePredResult (mk h q b) h q (fun s l => f (s.p q l) (s.p b l)) fun s l => s.pp q l || s.pp b l

/-- p[d] := f(p[b]). -/
def LanePB (mk : Hdr → Nat → Nat → Instr) (f : Bool → Bool) : Prop :=
  ∀ h q b, LanePredResult (mk h q b) h q (fun s l => f (s.p b l)) fun s l => s.pp b l

/-- p[d] := va rel vb. -/
def LaneCompare (mk : Hdr → Nat → Nat → Nat → Nat → Instr) (rel : Nat) (f : Word → Word → Bool) : Prop :=
  ∀ h q a b, LanePredResult (mk h q rel a b) h q (fun s l => f (s.v a l) (s.v b l)) fun s l => s.vp a l || s.vp b l

/-- A compact form acts as its equivalent on vd and va, where its word names a register below 32. -/
def CompactResult (i as : Instr) (a d : Nat) (val : State → Nat → Word) (po : State → Nat → Bool) : Prop :=
  ∀ s, a < 32 → laneClean as .plain s → ∃ t, exec i s = .next t ∧ LaneStep .plain d val po s t

/-- A compact form of vd := f(vd, va). -/
def CompactDA (mk : Nat → Nat → Instr) (as : Hdr → Nat → Nat → Instr) (f : Word → Word → Word) : Prop :=
  ∀ d a, CompactResult (mk d a) (as .plain d a) a d (fun s l => f (s.v d l) (s.v a l)) fun s l => s.vp d l || s.vp a l

/-- The eight-bit immediate, sign-extended. -/
def imm8 (m : Nat) : Word := (BitVec.ofNat 8 m).signExtend 32

/-- FADD, FSUB and FMUL of two FP32 words as R157 to R159 say: exact, then rounded once. -/
def fp2 (op : FV → FV → FV) (x y : Word) : Word := (op (fv x) (fv y)).toF32

/-! ### Cross-lane -/

/-- An XLANE that is not kept waiting by R174. -/
def crossClean (i : Instr) (h : Hdr) (s : State) : Prop := scalarClean i h s ∧ s.xReady = true

/-- XSTAT after the lane sets have been formed, and where a selection has read an absent lane. -/
def crossStat (s : State) (more : Bool) : Word := if s.absent = 0#32 ∧ more = false then s.cg.xstat else s.cg.xstat ||| 1#32

/-- The step of a cross-lane instruction that writes one scalar register. -/
structure CrossScalarStep (d : Nat) (x : Word) (po more : Bool) (s t : State) : Prop where
  outside : OutsideKept s t
  advanced : Advanced s t
  value : t.cg.sr.get d = x ∧ t.cg.spo.get d = po
  others : ∀ r, r ≠ d → t.cg.sr.get r = s.cg.sr.get r ∧ t.cg.spo.get r = s.cg.spo.get r
  status : t.cg.xstat = crossStat s more
  rest : { t.cg with sr := s.cg.sr, spo := s.cg.spo, splits := s.cg.splits, xstat := s.cg.xstat } = s.cg

/-- The step of a cross-lane instruction that writes a vector register in its contributors. -/
structure CrossLaneStep (h : Hdr) (d : Nat) (val : Nat → Word) (po : Nat → Bool) (more : Bool) (s t : State) : Prop where
  outside : OutsideKept s t
  advanced : Advanced s t
  value : ∀ l, l < 32 → inMask (s.active h) l = true →
    t.cg.vr.get (32 * d + l) = val l ∧ inMask (t.cg.vpo.get d) l = po l
  others : ∀ r l, l < 32 → (r ≠ d ∨ inMask (s.active h) l = false) →
    t.cg.vr.get (32 * r + l) = s.cg.vr.get (32 * r + l) ∧ inMask (t.cg.vpo.get r) l = inMask (s.cg.vpo.get r) l
  status : t.cg.xstat = crossStat s more
  rest : { t.cg with vr := s.cg.vr, vpo := s.cg.vpo, splits := s.cg.splits, xstat := s.cg.xstat } = s.cg

/-- Some lane below 32 is a contributor with a property. -/
def someC (s : State) (h : Hdr) (p : Nat → Bool) : Bool := (List.range 32).any fun l => inMask (s.active h) l && p l
/-- Every contributor has a property. -/
def everyC (s : State) (h : Hdr) (p : Nat → Bool) : Bool := (List.range 32).all fun l => !inMask (s.active h) l || p l
/-- The lanes below n that contribute: a contributor's operand, and 0 for an absent lane (R173). -/
def given (s : State) (h : Hdr) (a n : Nat) : List Word :=
  (List.range n).filterMap fun l =>
    if inMask (s.active h) l then some (s.v a l) else if inMask (s.cg.mmask &&& ~~~ s.cs.mask) l then some 0#32 else none

/-- A reduction of the contributions into a scalar register. -/
def CrossReduce (mk : Hdr → Nat → Nat → Instr) (f : List Word → Word) : Prop :=
  ∀ h d a s, crossClean (mk h d a) h s →
    ∃ t, exec (mk h d a) s = .next t ∧ CrossScalarStep d (f (given s h a 32)) (someC s h fun l => s.vp a l) false s t

/-- A vote of the contributors into a scalar register. -/
def CrossVote (mk : Hdr → Nat → Nat → Instr) (f : State → Hdr → Nat → Word) : Prop :=
  ∀ h d q s, crossClean (mk h d q) h s →
    ∃ t, exec (mk h d q) s = .next t ∧ CrossScalarStep d (f s h q) (someC s h fun l => s.pp q l) false s t

/-- A scan: each contributor gets what the contributions of the lanes up to it give. -/
def CrossScan (mk : Hdr → Nat → Nat → Instr) (f : Word → Word → Word) : Prop :=
  ∀ h d a s, crossClean (mk h d a) h s →
    ∃ t, exec (mk h d a) s = .next t ∧
      CrossLaneStep h d
        (fun l => match given s h a (l + 1) with
          | [] => 0#32
          | x :: r => r.foldl f x)
        (fun l => (List.range (l + 1)).any fun k => inMask (s.active h) k && s.vp a k) false s t

/-- The pairwise tree of REDFADD over the leaves from lane l on, 2^n of them (R177). -/
def leafSum (s : State) (h : Hdr) (a : Nat) : Nat → Nat → Option Word
  | 0, l => if inMask (s.active h) l then some (s.v a l) else if inMask (s.cg.mmask &&& ~~~ s.cs.mask) l then some 0#32 else none
  | n + 1, l =>
    match leafSum s h a n l, leafSum s h a n (l + 2 ^ n) with
    | some x, some y => some (fp2 FV.add x y)
    | some x, none => some x
    | none, y => y

/-- The step of an instruction that writes the member mask: instructions that issue from the next cycle on use it (R115, R180). -/
structure MaskStep (m : Word) (s t : State) : Prop where
  outside : OutsideKept s t
  advanced : Advanced s t
  written : t.cg.mmaskNext = some m
  rest : { t.cg with mmaskNext := s.cg.mmaskNext, splits := s.cg.splits } = s.cg

/-! ### Scalars -/

/-- An instruction of the scalar unit that writes these registers. -/
def ScalarResult (i : Instr) (h : Hdr) (ws : State → List (Nat × Word)) : Prop :=
  ∀ s, scalarClean i h s → ∃ t, exec i s = .next t ∧ ScalarStep (ws s) s t
/-- sd := f(sd, sa), with the old sd. -/
def ScalarDA (mk : Hdr → Nat → Nat → Instr) (f : Word → Word → Word) : Prop :=
  ∀ h d a, ScalarResult (mk h d a) h fun s => [(d, f (s.s d) (s.s a))]
/-- sd := f(sa). -/
def ScalarA (mk : Hdr → Nat → Nat → Instr) (f : Word → Word) : Prop :=
  ∀ h d a, ScalarResult (mk h d a) h fun s => [(d, f (s.s a))]
/-- sd := f(sd, imm). -/
def ScalarDI (mk : Hdr → Nat → Nat → Instr) (f : Word → Word → Word) : Prop :=
  ∀ h d m, ScalarResult (mk h d m) h fun s => [(d, f (s.s d) ((BitVec.ofNat 7 m).signExtend 32))]
/-- A pair as a 64-bit word, the low word first. -/
def pair64 (s : State) (r : Nat) : DWord := s.s (r + 1) ++ s.s r
/-- sd:sd+1 := a 64-bit value. -/
def ScalarPair (mk : Hdr → Nat → Nat → Instr) (f : State → Nat → Nat → DWord) : Prop :=
  ∀ h d a, ScalarResult (mk h d a) h fun s => [(d, (f s d a).setWidth 32), (d + 1, (f s d a >>> 32).setWidth 32)]
/-- A truth value as a word. -/
def flag (b : Bool) : Word := if b then 1#32 else 0#32

/-! ### Numbers -/

/-- An FP32 code is a NaN: all ones in the exponent, and a nonzero mantissa (R125). -/
def isNan32 (x : Word) : Bool := decide (0x7F800000 < x.toNat % 2 ^ 31)
/-- A BF16 code is a NaN. -/
def isNanBf (x : Nat) : Bool := decide (0x7F80 < x % 2 ^ 15)
/-- Where a code that is no NaN stands in the order of values, with -0 just below +0: n bits, the sign on top. -/
def signOrder (n x : Nat) : Int := if x / 2 ^ (n - 1) % 2 = 1 then -((x % 2 ^ (n - 1) : Nat) : Int) - 1 else (x % 2 ^ (n - 1) : Nat)
/-- The rule of FMIN and FMAX (R165): the only number, the canonical NaN, or the operand that comes first or last. -/
def pick2 (nanX nanY : Bool) (canon x y : Nat) (first : Bool) : Nat :=
  if nanX && nanY then canon else if nanX then y else if nanY then x else if first then x else y
/-- FMIN. -/
def fminRule (x y : Word) : Word :=
  BitVec.ofNat 32 (pick2 (isNan32 x) (isNan32 y) 0x7FC00000 x.toNat y.toNat
    (decide (signOrder 32 x.toNat ≤ signOrder 32 y.toNat)))
/-- FMAX. -/
def fmaxRule (x y : Word) : Word :=
  BitVec.ofNat 32 (pick2 (isNan32 x) (isNan32 y) 0x7FC00000 x.toNat y.toNat
    (decide (signOrder 32 y.toNat ≤ signOrder 32 x.toNat)))
/-- FMAX of two BF16 codes. -/
def bfMaxRule (x y : Nat) : Nat :=
  pick2 (isNanBf x) (isNanBf y) 0x7FC0 x y (decide (signOrder 16 y ≤ signOrder 16 x))

/-- The one class of an FP32 word, as the bit of the mask (R168). -/
def classBit (x : Word) : Nat :=
  let e := x.toNat / 2 ^ 23 % 256
  let m := x.toNat % 2 ^ 23
  if e = 255 ∧ m ≠ 0 then (if m / 2 ^ 22 = 0 then 8 else 9)
  else if e = 255 then (if x.msb then 0 else 7)
  else if e = 0 ∧ m = 0 then (if x.msb then 3 else 4)
  else if e = 0 then (if x.msb then 2 else 5)
  else if x.msb then 1 else 6

/-- Where a conversion makes no OVF in any active lane, it writes what it makes of each lane of the plane issue. -/
structure ConvertStep (h : Hdr) (d r : Nat) (val : Nat → Word) (po : Nat → Bool) (bits : Nat → List Nat) (s t : State) :
    Prop where
  outside : OutsideKept s t
  advanced : Advanced s t
  value : ∀ l, l < 32 → inMask (s.laneActive h) l = true →
    t.cg.vr.get (32 * d + l) = val l ∧ inMask (t.cg.vpo.get d) l = po l
  others : ∀ q l, l < 32 → (q ≠ d ∨ inMask (s.laneActive h) l = false) →
    t.cg.vr.get (32 * q + l) = s.cg.vr.get (32 * q + l) ∧ inMask (t.cg.vpo.get q) l = inMask (s.cg.vpo.get q) l
  draws : ∀ l, l < 32 → t.cg.lfsr.get l =
    if inMask (s.laneActive h) l = true ∧ r = 3 then lfsrStep (s.lfsr l) else s.cg.lfsr.get l
  status : ∀ b, b < 32 → t.cg.xstat.getLsbD b = (s.cg.xstat.getLsbD b ||
    (List.range 32).any fun l => inMask (s.laneActive h) l && (bits l).contains b)
  rest : { t.cg with vr := s.cg.vr, vpo := s.cg.vpo, lfsr := s.cg.lfsr, xstat := s.cg.xstat, splits := s.cg.splits } = s.cg

/-- The rounding of a lane (R150): RS draws the lane's next LFSR value (R141). -/
def laneRound (s : State) (r l : Nat) : Rm :=
  match r with
  | 0 => .rne
  | 1 => .rz
  | 2 => .rna
  | _ => .rs (lfsrStep (s.lfsr l)).toNat

/-- A converting instruction: `out` is the conversion under the group's overflow table and a rounding, `w` how many bits of
vd it shifts in, 32 for a result that replaces vd. -/
def Converts (mk : Hdr → Nat → Nat → Nat → Instr) (w : Nat) (out : Word → Rm → Word → Conv) : Prop :=
  ∀ h d a r s, laneClean (mk h d a r) h s →
    let o := fun l => out s.cg.ovf (laneRound s r l) (s.v a l)
    (∀ l, l < 32 → inMask (s.laneActive h) l = true → (o l).ovf = false) →
    ∃ t, exec (mk h d a r) s = .next t ∧
      ConvertStep h d r
        (fun l => if w = 32 then BitVec.ofNat 32 (o l).code else s.v d l <<< w ||| BitVec.ofNat 32 (o l).code)
        (fun l => s.vp a l || (w != 32 && s.vp d l)) (fun l => (o l).stick) s t

/-- What an overflow under action 3 leaves: the split stands at its instruction with OVF, sub-code 0, of lane l to be raised,
and nothing else changes (R149). -/
structure OverflowStep (l : Nat) (s t : State) : Prop where
  outside : OutsideKept s t
  issued : t.cur = s.beginIssue.cur
  stands : ∃ tr : Trap, tr.code = 0x11 ∧ tr.sub = 0 ∧ tr.tval = BitVec.ofNat 32 l ∧
    t.cs = { s.cs with offset := s.cur.here, waitOn := none, ovf := some tr }
  others : ∀ k, k ≠ s.cur.slot → t.cg.splits.get k = s.cg.splits.get k
  rest : { t.cg with splits := s.cg.splits } = s.cg

/-- The lowest active lane of the plane issue with a property. -/
def lowestLane (s : State) (h : Hdr) (p : Nat → Bool) (l : Nat) : Prop :=
  l < 32 ∧ inMask (s.laneActive h) l = true ∧ p l = true ∧ ∀ k, k < l → inMask (s.laneActive h) k = true → p k = false

/-- A converting instruction some active lane of which overflows under action 3. -/
def Overflows (mk : Hdr → Nat → Nat → Nat → Instr) (out : Word → Rm → Word → Conv) : Prop :=
  ∀ h d a r s l, laneClean (mk h d a r) h s →
    lowestLane s h (fun l => (out s.cg.ovf (laneRound s r l) (s.v a l)).ovf) l →
    ∃ t, exec (mk h d a r) s = .next t ∧ OverflowStep l s t

/-- A float format's exact value as FP32, its NaN by the rule given. -/
def widened (f : Fmt) (n : Nat) (nanOf : Nat → Word) (x : Word) : Word :=
  match f.decode (x.toNat % 2 ^ n) with
  | .nan => nanOf (x.toNat % 2 ^ n)
  | v => v.toF32

/-! ### Memory -/

/-- The issuing group stores at once: it runs on no pair of cores, and none of its stores is held back. -/
def Direct (s : State) : Prop := s.paired s.cur.gid = false ∧ s.cg.pairBuf = [] ∧ s.cg.poisonPass = none
/-- A path of the issuing group has room for one more access (R196). -/
def Room (path : Nat) (s : State) : Prop := s.cg.count path ≤ 62
/-- No active lane has poison in any of these vector registers. -/
def cleanLanes (h : Hdr) (rs : List Nat) (s : State) : Prop :=
  ∀ l r, l < 32 → inMask (s.laneActive h) l = true → r ∈ rs → s.vp r l = false
/-- Device memory reads the same everywhere. -/
def MemoryKept (s t : State) : Prop := ∀ a, t.devByte a = s.devByte a
/-- Every other group is as it was. -/
def OthersKept (s t : State) : Prop := ∀ k, k ≠ s.cur.gid → t.g k = s.g k

/-- Word k of what a load of a size gives: zero-extended, sign-extended, or the little-endian word (R188). -/
def loadedWord (z : Nat) (bs : List Byte) (k : Nat) : Word :=
  let b := fun j => bs.getD j 0#8
  match z with
  | 0 => (b 0).setWidth 32
  | 1 => (b 0).signExtend 32
  | 2 => (b 1 ++ b 0).setWidth 32
  | 3 => (b 1 ++ b 0).signExtend 32
  | _ => b (4 * k + 3) ++ b (4 * k + 2) ++ b (4 * k + 1) ++ b (4 * k)

/-- Some lanes of the issuing group may read these bytes at a place: all but j of the newest writes to it, none of them a write
that reaches the lanes, with the group's own buffered stores on top (R217, R218, R221). -/
def sees (s : State) (m : LaneMask) (p : Place) (n : Nat) (bs : List Byte) : Prop :=
  ∃ j, j ≤ s.missable (s.lanesAt s.cur.gid m) [] p n ∧ bs = s.forwarded s.cur.gid p (s.without p n j).1
/-- Every write to some bytes reaches a party, so that a write of the party stands above it (R216, R221). -/
def reachedBy (s : State) (q : Origin) (p : Place) (n : Nat) : Prop :=
  ∀ w, w ∈ s.writes → w.touches p.key n = true → w.num ∈ s.firm q [] p.key n
/-- Every write to some bytes reaches these lanes of the issuing group. -/
def reached (s : State) (m : LaneMask) (p : Place) (n : Nat) : Prop := reachedBy s (s.lanesAt s.cur.gid m) p n
/-- A byte after a store to it: the byte stored, or the byte as it was where another write may stand above the store. -/
def storedByte (s : State) (m : LaneMask) (p : Place) (n : Nat) (was now new : Byte) : Prop :=
  now = new ∨ (now = was ∧ ¬ reached s m p n)

/-- The step of a load: each lane's registers get what its bytes give, and nothing else is written. -/
structure LoadStep (h : Hdr) (path z v : Nat) (ps : List (Nat × Place)) (bytes : Nat → List Byte) (s t : State) : Prop where
  memory : MemoryKept s t
  writes : t.writes = s.writes
  scratch : t.blocks = s.blocks
  others : OthersKept s t
  advanced : Advanced s t
  value : ∀ l p k, (l, p) ∈ ps → k < sizeRegs z →
    t.cg.vr.get (32 * (v + k) + l) = loadedWord z (bytes l) k ∧
      inMask (t.cg.vpo.get (v + k)) l = s.groupPo s.cur.gid p (sizeBytes z)
  otherRegs : ∀ r l, l < 32 → (r < v ∨ v + sizeRegs z ≤ r ∨ inMask (s.laneActive h) l = false) →
    t.cg.vr.get (32 * r + l) = s.cg.vr.get (32 * r + l) ∧ inMask (t.cg.vpo.get r) l = inMask (s.cg.vpo.get r) l
  counted : t.cg.count path = s.cg.count path + 1
  rest : { t.cg with vr := s.cg.vr, vpo := s.cg.vpo, splits := s.cg.splits, inflight := s.cg.inflight, accs := s.cg.accs }
    = s.cg

/-- The step of a store: only the bytes at the stored places change, and each takes what the highest-numbered lane that
covers it stored (R190); `n` bytes a lane, byte k of lane l being `byte l k`, stored by the lanes `who l`. -/
structure StoreStep (path n : Nat) (ps : List (Nat × Place)) (who : Nat → LaneMask) (byte : Nat → Nat → Byte) (s t : State) :
    Prop where
  memory : ∀ a, (∀ l pa mir, (l, Place.dev pa mir) ∈ ps → a < pa ∨ pa + n ≤ a) → t.devByte a = s.devByte a
  stored : ∀ l pa mir k, (l, Place.dev pa mir) ∈ ps → k < n →
    (∀ j qa m, (j, Place.dev qa m) ∈ ps → l < j → pa + k < qa ∨ qa + n ≤ pa + k) →
    storedByte s (who l) (Place.dev pa mir) n (s.devByte (pa + k)) (t.devByte (pa + k)) (byte l k)
  scratch : ∀ b a, (∀ l key, (l, Place.scratch b key) ∈ ps → a < key ∨ key + n ≤ a) →
    (t.b b).scratch.get a = (s.b b).scratch.get a
  scratchStored : ∀ l b key k, (l, Place.scratch b key) ∈ ps → k < n →
    (∀ j key', (j, Place.scratch b key') ∈ ps → l < j → key + k < key' ∨ key' + n ≤ key + k) →
    storedByte s (who l) (Place.scratch b key) n ((s.b b).scratch.get (key + k)) ((t.b b).scratch.get (key + k)) (byte l k)
  others : OthersKept s t
  advanced : Advanced s t
  counted : t.cg.count path = s.cg.count path + 1
  rest : { t.cg with splits := s.cg.splits, inflight := s.cg.inflight, accs := s.cg.accs } = s.cg

/-- Some lanes and places without their scopes. -/
def placesOf (ps : List (Nat × Place × Nat)) : List (Nat × Place) := ps.map fun x => (x.1, x.2.1)
/-- Byte k of the registers from v on of lane l. -/
def laneByte (s : State) (v l k : Nat) : Byte := (s.v (v + k / 4) l >>> (8 * (k % 4))).setWidth 8
/-- Byte k of the scalar registers from d on. -/
def scalarByte (s : State) (d k : Nat) : Byte := (s.s (d + k / 4) >>> (8 * (k % 4))).setWidth 8

/-- An access that faults is counted on its path with the fault it reports, and does nothing else. -/
structure FaultCounted (path : Nat) (tr : Trap) (s t : State) : Prop where
  memory : MemoryKept s t
  scratch : t.blocks = s.blocks
  others : OthersKept s t
  advanced : Advanced s t
  counted : t.cg.count path = s.cg.count path + 1
  reports : ∃ a, a ∈ t.cg.inflight ∧ a.path = path ∧ a.fault = some tr
  rest : { t.cg with splits := s.cg.splits, inflight := s.cg.inflight, accs := s.cg.accs } = s.cg

/-- What an atomic leaves: `size` bytes at device address pa hold the new value, if it writes one, and every other byte of
device memory reads as before. -/
def AtomicMemory (pa size : Nat) (new : Option Nat) (s t : State) : Prop :=
  ∀ a, t.devByte a = match new with
    | some n => if pa ≤ a ∧ a < pa + size then BitVec.ofNat 8 (n / 256 ^ (a - pa)) else s.devByte a
    | none => s.devByte a
/-- Every byte of device memory outside size bytes at pa reads as before. -/
def BytesOutside (pa size : Nat) (s t : State) : Prop := ∀ a, (a < pa ∨ pa + size ≤ a) → t.devByte a = s.devByte a
/-- The number at n bytes of device memory, without the j newest writes to them, lowest byte first. -/
def oldNat (s : State) (pa n j : Nat) (mir : Bool) : Nat :=
  leNat (s.without (Place.dev pa mir) n j).1
/-- The word of device memory that an atomic names lies in one line, and that line is not in the exact-reducing state. -/
def plainWord (s : State) (pa size : Nat) : Prop :=
  pa / 128 = (pa + size - 1) / 128 ∧ (s.red.get (pa / 128)).live = false

/-- The global address of a lane: its pair of registers (R188). -/
def laneAddr (s : State) (a l : Nat) : Nat := (s.v (2 * a + 1) l ++ s.v (2 * a) l).toNat
/-- A global address lies in the scratch window, and n bytes there reach beyond the group's scratchpad (R185, R187). -/
def beyondWindow (s : State) (a n : Nat) : Bool :=
  s.cc.scrblo.getLsbD 0 && decide (s.cc.scrBase ≤ a ∧ a < s.cc.scrBase + 2 ^ 21 ∧ (s.paramsOf s.cg).scratch < a - s.cc.scrBase + n)

/-- The address checks of LD, ST and the atomics (R188, R191, R227): SCRATCH_RANGE of the lowest lane whose address reaches beyond
its scratchpad in the window; else MISALIGN of the lowest lane that `aligned` does not hold of. Nothing is performed in any lane. -/
def AddressChecks (i : Instr) (h : Hdr) (a n : Nat) (aligned : Nat → Bool) (pre : State → Prop) : Prop :=
  ∀ s l, laneClean i h s → cleanLanes h [2 * a, 2 * a + 1] s → s.laneActive h ≠ 0#32 → s.cur.checked = false → pre s →
    (lowestLane s h (fun k => beyondWindow s (laneAddr s a k) n) l →
      exec i s = .next (s.beginIssue.trapCur (s.mkTrap 0x15 0 (BitVec.ofNat 32 l) (laneAddr s a l - s.cc.scrBase)))) ∧
    ((∀ k, k < 32 → inMask (s.laneActive h) k = true → beyondWindow s (laneAddr s a k) n = false) →
      lowestLane s h (fun k => !aligned (laneAddr s a k)) l →
      exec i s = .next (s.beginIssue.trapCur (s.mkTrap 0x07 0 (BitVec.ofNat 32 l) (laneAddr s a l))))

/-- The address checks of LDS and STS (R191, R193), of the lanes whose address they read. -/
def ScratchChecks (i : Instr) (h : Hdr) (a n : Nat) (reads : State → Nat → Bool) : Prop :=
  ∀ s l, laneClean i h s → cleanLanes h [a] s → s.laneActive h ≠ 0#32 → s.cur.checked = false →
    (lowestLane s h (fun k => reads s k && (s.scratchPlace s.cg (s.v a k).toNat n).isNone) l →
      exec i s = .next (s.beginIssue.trapCur (s.mkTrap 0x15 0 (BitVec.ofNat 32 l) (s.v a l).toNat))) ∧
    ((∀ k, k < 32 → inMask (s.laneActive h) k = true → reads s k = true →
        (s.scratchPlace s.cg (s.v a k).toNat n).isNone = false) →
      lowestLane s h (fun k => reads s k && decide ((s.v a k).toNat / 32 ≠ ((s.v a k).toNat + n - 1) / 32)) l →
      exec i s = .next (s.beginIssue.trapCur (s.mkTrap 0x07 0 (BitVec.ofNat 32 l) (s.v a l).toNat)))

/-- An atomic performed at some addresses in turn, each seeing what those before it left (R225): the bytes of device memory after it. -/
def inTurn (size : Nat) (f : Nat → (Nat → Word) → Option Nat) (args : Nat → Nat → Word) :
    List (Nat × Nat) → (Nat → Byte) → Nat → Byte
  | [], m => m
  | (l, pa) :: r, m =>
    inTurn size f args r fun a => match f (leNat ((List.range size).map fun k => m (pa + k))) (args l) with
      | some n => if pa ≤ a ∧ a < pa + size then BitVec.ofNat 8 (n / 256 ^ (a - pa)) else m a
      | none => m a

/-- The active lanes of one plane issue of an atomic act in ascending order, each seeing what the lanes before it left (R225), at
words of device memory outside the exact-reducing lines, where no earlier write is still in play. -/
def LanesInTurn (mk : Hdr → Nat → Nat → Nat → Nat → Instr) (op : AtomOp) (size : Nat)
    (f : Nat → (Nat → Word) → Option Nat) : Prop :=
  ∀ h o c a d s qs (mir : Nat → Bool), laneClean (mk h o c a d) h s → cleanLanes h [2 * a, 2 * a + 1] s →
    atomCheck h op c a s = none → Room 3 s → Direct s → s.detGrid s.cgrid = false → s.writes = [] →
    (∀ x, x ∈ qs → plainWord s x.2 size) →
    (s.beginIssue.advance.resolve .atomic size (s.gaddrs h a)).1 = .ok (qs.map fun x => (x.1, Place.dev x.2 (mir x.1))) →
    ∃ t, exec (mk h o c a d) s = .next t ∧ qs.map Prod.fst = lanesOf (s.laneActive h) ∧
      (let args := fun l k => s.v (d + k) l
       (∀ b, t.devByte b = inTurn size f args qs s.devByte b) ∧
       ∀ k l pa, qs[k]? = some (l, pa) →
        (let old := leNat ((List.range size).map fun j => inTurn size f args (qs.take k) s.devByte (pa + j))
         t.cg.vr.get (32 * d + l) = BitVec.ofNat 32 old ∧
          (size = 8 → t.cg.vr.get (32 * (d + 1) + l) = BitVec.ofNat 32 (old / 2 ^ 32))))

/-- What Fold adds to an accumulator at an anchor, and whether it is out of range (R241). -/
def foldTerm (anchor : Nat) (x : Word) : Int × Bool :=
  match fv x with
  | .fin neg m e =>
    let n := roundInt .rne neg m (e - (BitVec.ofNat 8 anchor).toInt)
    if 2 ^ 47 ≤ n.natAbs then (if 0 < n then 2 ^ 47 - 1 else -(2 ^ 47 - 1), true) else (n, false)
  | _ => (0, true)
/-- A word has been folded into a line (R241, R242), and no other word of the line has changed. -/
structure FoldedInto (l : RedLine) (w : Nat) (x : Word) (m : RedLine) : Prop where
  line : m.live = true ∧ m.anchor = l.anchor
  sum : m.acc.get w = l.acc.get w + BitVec.ofInt 64 (foldTerm l.anchor x).1
  range : m.wovf.get w = (l.wovf.get w || (foldTerm l.anchor x).2)
  count : m.cnt.get w = min (l.cnt.get w + 1) 65535
  others : ∀ v, v ≠ w → m.acc.get v = l.acc.get v ∧ m.wovf.get v = l.wovf.get v ∧ m.cnt.get v = l.cnt.get v
/-- What a read of a word of an exact-reducing line returns (R243). -/
def reducedWord (l : RedLine) (w : Nat) : Word :=
  if l.wovf.get w = true ∨ 32767 < l.cnt.get w then 0x7FC00000#32
  else if (l.acc.get w).toInt = 0 then 0#32
  else f32 .rne (decide ((l.acc.get w).toInt < 0)) (l.acc.get w).toInt.natAbs (BitVec.ofNat 8 l.anchor).toInt
/-- Word w of a device line, as a load returns it. -/
def lineWord (s : State) (line w : Nat) : Word :=
  let b := fun k => s.devByte (128 * line + 4 * w + k)
  b 3 ++ b 2 ++ b 1 ++ b 0
/-- One lane is active in an ATOM.FADD of a group that stores at once, and its word lies in device memory. -/
def addsAt (h : Hdr) (o c a d l pa : Nat) (mir : Bool) (s : State) : Prop :=
  laneClean (.atomFadd h o c a d) h s ∧ cleanLanes h [2 * a, 2 * a + 1] s ∧ atomCheck h .fadd c a s = none ∧ Room 3 s ∧ l < 32 ∧
    Direct s ∧ s.laneActive h = laneBit l ∧ pa % 4 = 0 ∧
    (s.beginIssue.advance.resolve .atomic 4 (s.gaddrs h a)).1 = .ok [(l, Place.dev pa mir)]
/-- A line of device memory has been read as before, but for one that has changed its state. -/
def otherLines (line : Nat) (s t : State) : Prop :=
  (∀ k, k ≠ line → t.red.get k = s.red.get k) ∧ ∀ b, b / 128 ≠ line → t.devByte b = s.devByte b

/-- The exact-reducing state (R240-R246): how a deterministic FADD puts a line into it, what a FADD folds, what a read returns, who
owns the line and who gets DETMIX, how a store and the end of its grids take it out, and the wait for a die that is full. -/
def ExactReducing : Prop :=
  (∀ h o c a d l pa mir s, addsAt h o c a d l pa mir s → (s.red.get (pa / 128)).live = true →
      ∃ t, exec (.atomFadd h o c a d) s = .next t ∧
        (let x := s.red.get (pa / 128)
         let y := t.red.get (pa / 128)
         t.cg.vr.get (32 * d + l) = reducedWord x (pa % 128 / 4) ∧ FoldedInto x (pa % 128 / 4) (s.v d l) y ∧
         otherLines (pa / 128) s t ∧
         (∀ g, g ∈ y.owners ↔ g ∈ x.owners ∨ (s.detGrid s.cgrid = true ∧ g = s.cgrid)) ∧
         (let mixed := s.detGrid s.cgrid = false ∨ (s.gr s.cgrid).p.detanchor % 256 ≠ x.anchor
          ∀ g, (t.gr g).detmix = if mixed ∧ g ∈ y.owners then (s.gr g).live else (s.gr g).detmix))) ∧
    (∀ h o c a d l pa mir s, addsAt h o c a d l pa mir s → (s.red.get (pa / 128)).live = false → s.detGrid s.cgrid = true →
      s.redFull (s.homeDie pa) = false → ∃ t m, exec (.atomFadd h o c a d) s = .next t ∧
        m.live = true ∧ m.anchor = (s.gr s.cgrid).p.detanchor % 256 ∧
        (∀ w, w < 32 → m.acc.get w = BitVec.ofInt 64 (foldTerm m.anchor (lineWord s (pa / 128) w)).1 ∧
          m.wovf.get w = (foldTerm m.anchor (lineWord s (pa / 128) w)).2 ∧ m.cnt.get w = 1) ∧
        FoldedInto m (pa % 128 / 4) (s.v d l) (t.red.get (pa / 128)) ∧ (t.red.get (pa / 128)).owners = [s.cgrid] ∧
        t.cg.vr.get (32 * d + l) = reducedWord m (pa % 128 / 4) ∧ otherLines (pa / 128) s t) ∧
    (∀ h o c a d l pa mir s, addsAt h o c a d l pa mir s → (s.red.get (pa / 128)).live = false → s.detGrid s.cgrid = true →
      s.redFull (s.homeDie pa) = true → ∃ t, exec (.atomFadd h o c a d) s = .next t ∧ t.red = s.red ∧ MemoryKept s t ∧
        t.cg.count 3 = s.cg.count 3 + 1 ∧ ∃ x, x ∈ t.cg.inflight ∧ x.path = 3 ∧ x.adds ≠ []) ∧
    (∀ (s : State) b, (s.red.get (b / 128)).live = true →
      s.devByte b = (reducedWord (s.red.get (b / 128)) (b % 128 / 4) >>> (8 * (b % 4))).setWidth 8) ∧
    (∀ h o c z a v l pa mir s, laneClean (.st h o c z a v) h s → cleanLanes h [2 * a, 2 * a + 1] s → globalCheck h z a s = none →
      Room 1 s → Direct s → l < 32 → s.laneActive h = laneBit l → pa / 128 = (pa + sizeBytes z - 1) / 128 →
      (s.beginIssue.advance.resolve .store (sizeBytes z) (s.gaddrs h a)).1 = .ok [(l, Place.dev pa mir)] →
      (s.red.get (pa / 128)).live = true → ∃ t, exec (.st h o c z a v) s = .next t ∧
        (let x := s.red.get (pa / 128)
         (t.red.get (pa / 128)).live = false ∧ otherLines (pa / 128) s t ∧
         (∀ b, b / 128 = pa / 128 → (b < pa ∨ pa + sizeBytes z ≤ b) → t.devByte b = s.devByte b) ∧
         ∀ g, (t.gr g).detmix = if s.cgrid ∉ x.owners ∧ g ∈ x.owners then (s.gr g).live else (s.gr g).detmix)) ∧
    ∀ h line s, s.gridDone h = true → (s.red.get line).live = true →
      (∀ g, g ∈ (s.red.get line).owners → g = h ∨ (s.gr g).terminal = true) →
      ∃ t, exec (.gridComplete (.done h)) s = .next t ∧ (t.red.get line).live = false ∧ MemoryKept s t

/-- An atomic of the lanes: it completes wherever its checks pass and its path has room; and where one lane is active, at a
word of device memory outside the exact-reducing lines, its register gets the old value, which misses no write that reaches
the lane, and the memory the new one, above every write but those that the old value misses. -/
def LaneAtomic (mk : Hdr → Nat → Nat → Nat → Nat → Instr) (op : AtomOp) (size : Nat)
    (f : Nat → (Nat → Word) → Option Nat) : Prop :=
  ∀ h o c a d s, laneClean (mk h o c a d) h s → cleanLanes h [2 * a, 2 * a + 1] s → atomCheck h op c a s = none →
    Room 3 s →
    ∃ t, exec (mk h o c a d) s = .next t ∧ OthersKept s t ∧ Advanced s t ∧ t.cg.count 3 = s.cg.count 3 + 1 ∧
      (∀ r l, l < 32 → (r < d ∨ d + size / 4 ≤ r ∨ inMask (s.laneActive h) l = false) →
        t.cg.vr.get (32 * r + l) = s.cg.vr.get (32 * r + l) ∧ inMask (t.cg.vpo.get r) l = inMask (s.cg.vpo.get r) l) ∧
      ∀ l pa mir, s.laneActive h = laneBit l → l < 32 → Direct s → s.detGrid s.cgrid = false → plainWord s pa size →
        (s.beginIssue.advance.resolve .atomic size (s.gaddrs h a)).1 = .ok [(l, Place.dev pa mir)] →
        ∃ j, j ≤ s.missable (s.lanesAt s.cur.gid (laneBit l)) [] (Place.dev pa mir) size ∧
          (let old := oldNat s pa size j mir
           t.cg.vr.get (32 * d + l) = BitVec.ofNat 32 old ∧
            (size = 8 → t.cg.vr.get (32 * (d + 1) + l) = BitVec.ofNat 32 (old / 2 ^ 32)) ∧
            (j = 0 → AtomicMemory pa size (f old fun k => s.v (d + k) l) s t) ∧ BytesOutside pa size s t)

/-- A scalar access completes where its checks pass and path 5 has room: one that faults is only counted (R196). -/
def ScalarAccess (i : Instr) (h : Hdr) (a n : Nat) (k : Acc) (check : State → Option Trap) (pre : State → Prop)
    (post : Place → State → State → Prop) : Prop :=
  ∀ s, scalarClean i h s → check s = none → Room 5 s → ∃ t, exec i s = .next t ∧ (pre s →
    (∀ p, (s.beginIssue.advance.resolve k n [(0, s.s2 a)]).1 = .ok [(0, p)] → post p s t) ∧
    ∀ tr, (s.beginIssue.advance.resolve k n [(0, s.s2 a)]).1 = .error tr → FaultCounted 5 tr s t)

/-- A scalar load of n bytes: the words that its bytes give. -/
def ScalarLoad (mk : Hdr → Nat → Nat → Nat → Instr) (n : Nat) : Prop :=
  ∀ h c d a, ScalarAccess (mk h c d a) h a n .load (smemCheck n a) (fun _ => True) fun p s t =>
    MemoryKept s t ∧ t.writes = s.writes ∧ t.blocks = s.blocks ∧ OthersKept s t ∧ Advanced s t ∧
      (∃ bs, sees s s.cs.mask p n bs ∧ ∀ k, k < n / 4 → t.cg.sr.get (d + k) = loadedWord 4 bs k) ∧
      (∀ k, k < n / 4 → t.cg.spo.get (d + k) = s.groupPo s.cur.gid p n) ∧
      (∀ r, r < d ∨ d + n / 4 ≤ r → t.cg.sr.get r = s.cg.sr.get r ∧ t.cg.spo.get r = s.cg.spo.get r) ∧
      t.cg.count 5 = s.cg.count 5 + 1 ∧
      { t.cg with sr := s.cg.sr, spo := s.cg.spo, splits := s.cg.splits, inflight := s.cg.inflight, accs := s.cg.accs } = s.cg

/-- A scalar store of n bytes. -/
def ScalarStore (mk : Hdr → Nat → Nat → Nat → Instr) (n : Nat) : Prop :=
  ∀ h c d a, ScalarAccess (mk h c d a) h a n .store (smemCheck n a) Direct fun p s t =>
    StoreStep 5 n [(0, p)] (fun _ => s.cs.mask) (fun _ k => scalarByte s d k) s t

/-- A scalar atomic; what it does to its word is stated of device memory outside the exact-reducing lines. -/
def ScalarAtomic (mk : Hdr → Nat → Nat → Nat → Instr) (f : Nat → (Nat → Word) → Option Nat) : Prop :=
  ∀ h c d a, ScalarAccess (mk h c d a) h a 4 .atomic (smemAtomCheck c a) Direct fun p s t =>
    OthersKept s t ∧ Advanced s t ∧ t.cg.spo.get d = s.placePo p 4 ∧
      (∀ r, r ≠ d → t.cg.sr.get r = s.cg.sr.get r ∧ t.cg.spo.get r = s.cg.spo.get r) ∧ t.cg.count 5 = s.cg.count 5 + 1 ∧
      { t.cg with sr := s.cg.sr, spo := s.cg.spo, splits := s.cg.splits, inflight := s.cg.inflight, accs := s.cg.accs }
        = s.cg ∧
      ∀ pa mir, p = Place.dev pa mir → plainWord s pa 4 →
        t.blocks = s.blocks ∧ ∃ j, j ≤ s.missable (s.lanesAt s.cur.gid s.cs.mask) [] p 4 ∧
          (let old := oldNat s pa 4 j mir
           t.cg.sr.get d = BitVec.ofNat 32 old ∧ (j = 0 → AtomicMemory pa 4 (f old fun k => s.s (d + k)) s t) ∧
            BytesOutside pa 4 s t)

/-! ### Scalar specials and system registers -/

/-- The step of a write that leaves the groups' registers and all memory as they were. -/
structure MachineWriteStep (s t : State) : Prop where
  memory : MemoryKept s t
  others : OthersKept s t
  advanced : Advanced s t
  rest : { t.cg with splits := s.cg.splits } = s.cg

/-- The system registers that a write only stores, and the bits of them that it stores (R65, R118, R187, R361). -/
def storedBits : Nat → Option Word
  | 8 | 66 => some 1#32
  | 9 | 11 => some 0xFFFF0000#32
  | 10 | 12 | 35 | 37 => some 0x000FFFFF#32
  | 13 => some 0x0067CCFE#32
  | 14 => some 3#32
  | 15 | 16 | 17 | 18 => some 0xFFFFFFFF#32
  | 32 => some 0xFFFFFF01#32
  | 33 => some 0x00003FFF#32
  | 34 => some 0xFFE00001#32
  | _ => none

/-! ### Control -/

/-- The step of an instruction that writes vector register d in the lanes of a set. -/
structure CtlLaneStep (m : LaneMask) (d : Nat) (val : Nat → Word) (po : Nat → Bool) (s t : State) : Prop where
  outside : OutsideKept s t
  advanced : Advanced s t
  value : ∀ l, l < 32 → inMask m l = true → t.cg.vr.get (32 * d + l) = val l ∧ inMask (t.cg.vpo.get d) l = po l
  others : ∀ r l, l < 32 → (r ≠ d ∨ inMask m l = false) →
    t.cg.vr.get (32 * r + l) = s.cg.vr.get (32 * r + l) ∧ inMask (t.cg.vpo.get r) l = inMask (s.cg.vpo.get r) l
  rest : { t.cg with vr := s.cg.vr, vpo := s.cg.vpo, splits := s.cg.splits } = s.cg

/-- The step of an instruction that writes predicate q, unmarked, in the lanes of a set. -/
structure CtlPredStep (m : LaneMask) (q : Nat) (val : Nat → Bool) (s t : State) : Prop where
  outside : OutsideKept s t
  advanced : Advanced s t
  value : ∀ l, l < 32 → inMask m l = true → inMask (t.cg.pr.get q) l = val l ∧ inMask (t.cg.ppo.get q) l = false
  others : ∀ r l, l < 32 → (r ≠ q ∨ inMask m l = false) →
    inMask (t.cg.pr.get r) l = inMask (s.cg.pr.get r) l ∧ inMask (t.cg.ppo.get r) l = inMask (s.cg.ppo.get r) l
  rest : { t.cg with pr := s.cg.pr, ppo := s.cg.ppo, splits := s.cg.splits } = s.cg

/-- A lane of the issuing split passes the guard of a control-class instruction (R42, R86). -/
def takesIt (s : State) (h : Hdr) (l : Nat) : Bool := inMask s.cs.mask l && (!h.ge || (s.p h.gp l == !h.gs))

/-- The lanes of the issuing split go to their targets (R85): the lowest target stays in the issuing split, the others take
the free slots in ascending order, and lanes that find no slot are held at the instruction. -/
structure TransferStep (h : Hdr) (target : Nat → Nat) (s t : State) : Prop where
  outside : OutsideKept s t
  cur : t.cur = s.beginIssue.cur
  lowest : ∃ t0, (∃ l, l < 32 ∧ inMask s.cs.mask l = true ∧ target l = t0) ∧
    (∀ l, l < 32 → inMask s.cs.mask l = true → t0 ≤ target l) ∧
    t.cs = { s.cs with offset := t0, mask := t.cs.mask, sig := 0xFFFFFFFF#32, waitOn := none } ∧
    (∀ l, l < 32 → inMask t.cs.mask l = (inMask s.cs.mask l && target l == t0)) ∧
    ∀ l, l < 32 → inMask s.cs.mask l = true → target l ≠ t0 →
      (∃ k, k < 4 ∧ (s.cg.splits.get k).valid = false ∧ (t.cg.splits.get k).valid = true ∧
          (t.cg.splits.get k).offset = target l ∧ inMask (t.cg.splits.get k).mask l = true) ∨
        (inMask t.cg.held l = true ∧ t.cg.holdoff.get l = s.cur.here ∧
          ∀ k, k < 4 → (t.cg.splits.get k).valid = true ∧
            ((s.cg.splits.get k).valid = false → (t.cg.splits.get k).offset < target l))
  fresh : ∀ k, k < 4 → (s.cg.splits.get k).valid = false → (t.cg.splits.get k).valid = true →
    (∀ l, l < 32 → inMask (t.cg.splits.get k).mask l = (inMask s.cs.mask l && target l == (t.cg.splits.get k).offset)) ∧
      (t.cg.splits.get k).age = 0 ∧ (t.cg.splits.get k).stall = h.stl ∧ (t.cg.splits.get k).joinw = false ∧
      (t.cg.splits.get k).sig = 0xFFFFFFFF#32 ∧
      ∀ j, j < k → (t.cg.splits.get j).valid = true ∧
        ((s.cg.splits.get j).valid = false → (t.cg.splits.get j).offset < (t.cg.splits.get k).offset)
  others : ∀ k, k ≠ s.cur.slot → (s.cg.splits.get k).valid = true → t.cg.splits.get k = s.cg.splits.get k
  kept : ∀ l, l < 32 → inMask s.cs.mask l = false →
    inMask t.cg.held l = inMask s.cg.held l ∧ t.cg.holdoff.get l = s.cg.holdoff.get l

/-- A transfer that writes no register. -/
def TransferOnly (h : Hdr) (target : Nat → Nat) (s t : State) : Prop :=
  TransferStep h target s t ∧
    { t.cg with splits := s.cg.splits, held := s.cg.held, holdoff := s.cg.holdoff } = s.cg

/-- A transfer that leaves the next offset in v63 of the lanes that call (R96). -/
def TransferLink (h : Hdr) (target : Nat → Nat) (s t : State) : Prop :=
  TransferStep h target s t ∧
    (∀ l, l < 32 → takesIt s h l = true →
      t.cg.vr.get (32 * 63 + l) = BitVec.ofNat 32 s.cur.next ∧ inMask (t.cg.vpo.get 63) l = false) ∧
    (∀ r l, l < 32 → (r ≠ 63 ∨ takesIt s h l = false) →
      t.cg.vr.get (32 * r + l) = s.cg.vr.get (32 * r + l) ∧ inMask (t.cg.vpo.get r) l = inMask (s.cg.vpo.get r) l) ∧
    { t.cg with splits := s.cg.splits, held := s.cg.held, holdoff := s.cg.holdoff, vr := s.cg.vr, vpo := s.cg.vpo } = s.cg

/-- The target of a relative transfer (R95). -/
def relative (s : State) (o : Nat) : Int := s.cur.here + 2 * (BitVec.ofNat 18 o).toInt

/-- A split has lanes. -/
def hasLanes (s : State) : Prop := s.cs.mask ≠ 0#32

/-- The instruction raises ILLEGAL, and nothing else of it happens. -/
def raisesIllegal (i : Instr) (s : State) : Prop := exec i s = .next (s.beginIssue.trapCur s.beginIssue.illegal)

/-- A transfer to an offset; a taken target below 0 is ILLEGAL. -/
def RelativeTransfer (mk : Hdr → Nat → Instr) (post : Hdr → (Nat → Nat) → State → State → Prop) : Prop :=
  ∀ h o s, ctlClean (mk h o) h State.liveS s → hasLanes s →
    (((∀ l, l < 32 → takesIt s h l = false) ∨ 0 ≤ relative s o) →
      ∃ t, exec (mk h o) s = .next t ∧ post h (fun l => if takesIt s h l then (relative s o).toNat else s.cur.next) s t) ∧
    ∀ l, l < 32 → takesIt s h l = true → relative s o < 0 → raisesIllegal (mk h o) s

/-- A transfer to the offsets of a register, where no taken one is poisoned; an odd one is ILLEGAL. -/
def RegisterTransfer (i : Hdr → Instr) (a : Nat) (post : Hdr → (Nat → Nat) → State → State → Prop) : Prop :=
  ∀ h s, ctlClean (i h) h State.liveS s → hasLanes s → (∀ l, l < 32 → takesIt s h l = true → s.vp a l = false) →
    ((∀ l, l < 32 → takesIt s h l = true → (s.v a l).toNat % 2 = 0) →
      ∃ t, exec (i h) s = .next t ∧
        post h (fun l => if takesIt s h l then (s.v a l).toNat % 2 ^ 20 else s.cur.next) s t) ∧
    ∀ l, l < 32 → takesIt s h l = true → (s.v a l).toNat % 2 = 1 → raisesIllegal (i h) s

/-- The first arm that holds in a lane, with no poisoned predicate before it (R100). -/
def armOf (s : State) (l : Nat) : List Arm → Option Arm
  | [] => none
  | a :: r => if s.p a.p l = !a.sense then some a else armOf s l r
/-- No predicate up to the deciding arm is poisoned. -/
def armsClean (s : State) (l : Nat) : List Arm → Prop
  | [] => True
  | a :: r => s.pp a.p l = false ∧ (s.p a.p l = !a.sense ∨ armsClean s l r)
/-- Where a multiway branch sends a lane. -/
def armGoal (s : State) (h : Hdr) (arms : List Arm) (l : Nat) : Int :=
  if takesIt s h l then
    match armOf s l arms with
    | some a => relative s a.off
    | none => s.cur.next
  else s.cur.next

/-- An instruction that acts as a whole, and so follows the scalar-class rule, meets no trap of its word and no poisoned guard,
and its guard fails (R42, R86). -/
def guardFails (i : Instr) (h : Hdr) (s : State) : Prop :=
  s.hasIssuer = true ∧ s.wordTrap i = none ∧ guardClean h (s.liveS &&& s.cg.mmask) s ∧ s.scalarGuard h = false
/-- The control-class instructions that act in the lanes that pass their guard, and not as a whole (R42, R86). -/
def perLane : Instr → Bool
  | .bra _ _ | .call _ _ | .exit _ | .brx _ _ | .mbr _ _ | .pset _ _ | .pseti _ _ | .pget _ _ | .pmask _ _ _ | .pref _ _
  | .srseed _ _ | .srget _ _ | .pchk _ _ _ | .callx _ _ | .ret _ | .tagL _ _ _ | .tagE _ _ _ | .tagI _ _ _ => true
  | _ => false
/-- Those of them that transfer control: what they do in the lanes that fail the guard stands beside what they do in the others. -/
def transfers : Instr → Bool
  | .bra _ _ | .call _ _ | .brx _ _ | .mbr _ _ | .callx _ _ | .ret _ => true
  | _ => false
/-- The instructions of the scalar class, and those of the control class that follow its rule (R42, R86). -/
def followsScalar (i : Instr) (w : Nat) : Bool := decide (clsOfMajor (w / 2 % 32) ≠ .lane) && !perLane i
/-- The step of JOIN or REGION whose guard fails: the split goes on, and its signature restarts (R75). -/
def SkippedReset (s t : State) : Prop :=
  OutsideKept s t ∧ t.cs = { s.cs with offset := s.cur.next, waitOn := none, joinw := t.cs.joinw, sig := 0xFFFFFFFF#32 } ∧
    (∀ k, k ≠ s.cur.slot → t.cg.splits.get k = s.cg.splits.get k) ∧ { t.cg with splits := s.cg.splits } = s.cg

/-- The group keeps no stores back and does not end in a poison pass. -/
def Plain (s : State) : Prop := s.cg.pairBuf = [] ∧ s.cg.poisonPass = none

/-- Lanes that leave a split: freed when none is left (R84, R102). -/
def splitWithout (x : Split) (m : LaneMask) : Split :=
  if x.valid = true then (if x.mask &&& ~~~ m = 0#32 then {} else { x with mask := x.mask &&& ~~~ m }) else x

/-- A lane stands at an offset in a live split of a group. -/
def standsAt (g : Group) (l o : Nat) : Prop :=
  ∃ k, k < 4 ∧ (g.splits.get k).valid = true ∧ (g.splits.get k).offset = o ∧ inMask (g.splits.get k).mask l = true
/-- A live split of a group stands at an offset. -/
def offsetLive (g : Group) (o : Nat) : Prop := ∃ k, k < 4 ∧ (g.splits.get k).valid = true ∧ (g.splits.get k).offset = o

/-! ### Barriers -/

/-- The groups that take part in a barrier of the issuing group's block; 16 is the cluster barrier (R341, R343). -/
def barGroups (s : State) (id : Nat) : List Nat :=
  if id = 16 then (if s.cb.cluster = [] then [s.cg.bid] else s.cb.cluster).flatMap fun q => (s.b q).groups else s.cb.groups
/-- The lanes of a group that are marked once the issuing split has arrived. -/
def barMarks (s : State) (id k : Nat) : LaneMask :=
  (if (s.barOf id).isOpen then (s.barOf id).marks.get k else 0#32) ||| if k = s.cur.gid then s.cs.mask else 0#32
/-- A group has arrived: every lane of it that lives is marked. -/
def barArrived (s : State) (id k : Nat) : Bool :=
  decide (barMarks s id k = 0xFFFFFFFF#32) ||
    decide (barMarks s id k ≠ 0#32 ∧ (s.g k).alive ≠ 0#32 ∧ (s.g k).alive &&& ~~~ barMarks s id k = 0#32)
/-- The marks with those of the issuing split. -/
def barMarked (s : State) (id : Nat) : SMap LaneMask :=
  (if (s.barOf id).isOpen then (s.barOf id).marks else []).upd s.cur.gid fun m => m ||| s.cs.mask
/-- The arrival completes the phase: the count is reached or, with count 0, every group that is here has arrived. -/
def barCompletes (s : State) (id c : Nat) : Bool :=
  if c = 0 then (barGroups s id).all fun k => !(s.g k).here || barArrived s id k
  else decide (c ≤ ((barGroups s id).countP fun k => barArrived s id k) + goneArrivals (barGroups s id) (barMarked s id))

/-- What an arrival leaves of the barrier and of what it does not touch. -/
structure ArriveStep (id c : Nat) (s t : State) : Prop where
  memory : MemoryKept s t
  others : OthersKept s t
  completed : barCompletes s id c = true → (t.barOf id).isOpen = false ∧ (t.barOf id).phase = (s.barOf id).phase + 1
  opened : barCompletes s id c = false → (t.barOf id).isOpen = true ∧ (t.barOf id).count = c ∧
    (t.barOf id).phase = (s.barOf id).phase ∧
    ∀ k, k ∈ barGroups s id → (t.barOf id).marks.get k = if barArrived s id k then 0xFFFFFFFF#32 else barMarks s id k
  rest : { t.cg with splits := s.cg.splits, cbarPast := s.cg.cbarPast, compared := s.cg.compared } = s.cg
  releases : ∃ e l, t.log = l ++ e :: s.log ∧ e.rel = true ∧ e.by_ = s.lanesAt s.cur.gid s.cs.mask ∧ e.scope = s.barScope id

/-- An arrival that departs when the phase completes, and waits for it else. -/
structure MeetStep (id c : Nat) (s t : State) : Prop extends ArriveStep id c s t where
  departs : barCompletes s id c = true → Advanced s t ∧ t.cg.cbarPast = (s.cg.cbarPast || id == 16)
  waits : barCompletes s id c = false → t.cur.issued = false ∧
    t.cs = { s.cs with waitOn := some (.bar id (s.barOf id).phase s.cs.mask) } ∧ t.cg.cbarPast = s.cg.cbarPast

/-- The issuing split has arrived at no barrier by its instruction, none of its lanes is marked, and the count fits (R342). -/
def barFresh (s : State) (id c : Nat) : Prop :=
  s.cs.waitOn = none ∧ ((s.barOf id).isOpen = true → (s.barOf id).marks.get s.cur.gid &&& s.cs.mask = 0#32) ∧
    ((s.barOf id).isOpen = true → (s.barOf id).count = c)

/-- A split whose lanes have all arrived waits at the barrier until the phase is over, and departs then. -/
def Departs (i : Instr) (h : Hdr) (id : Nat) : Prop :=
  ∀ s phase m, scalarClean i h s → s.cs.waitOn = some (.bar id phase m) → s.cs.mask &&& ~~~ m = 0#32 →
    ((s.barOf id).phase ≠ phase → ∃ t, exec i s = .next t ∧ MemoryKept s t ∧ OthersKept s t ∧ Advanced s t ∧
      { t.cg with splits := s.cg.splits, cbarPast := s.cg.cbarPast } = s.cg) ∧
    ((s.barOf id).phase = phase → exec i s = .next s.beginIssue.wait)

/-! ### Stage barriers and tags -/

/-- Nothing outside the issuing group changes but the log of the memory model's events and the count of free values. -/
def OutsideNoted (s t : State) : Prop :=
  { t with groups := s.groups, cur := s.cur, log := s.log, free := s.free } = s ∧ (∀ k, k ≠ s.cur.gid → t.g k = s.g k) ∧
    ∀ a, t.devByte a = s.devByte a
/-- The issuing split goes on, and nothing of its group changes. -/
def OnlyAdvanced (s t : State) : Prop := OutsideNoted s t ∧ Advanced s t ∧ { t.cg with splits := s.cg.splits } = s.cg
/-- A word of the scratchpad of a block. -/
def scratchWord (s : State) (b key : Nat) : Word :=
  (s.b b).scratch.get (key + 3) ++ (s.b b).scratch.get (key + 2) ++ (s.b b).scratch.get (key + 1) ++ (s.b b).scratch.get key
/-- Only n bytes of the scratchpad change. -/
structure ScratchStep (b key n : Nat) (s t : State) : Prop where
  memory : MemoryKept s t
  scratch : ∀ q a, (q ≠ b ∨ a < key ∨ key + n ≤ a) → (t.b q).scratch.get a = (s.b q).scratch.get a
  others : OthersKept s t
  advanced : Advanced s t
  rest : { t.cg with splits := s.cg.splits } = s.cg
/-- The address of a stage barrier is in range and aligned, and stands at these bytes of a scratchpad. -/
def stageAt (s : State) (x b key : Nat) : Prop :=
  s.scratchPlace s.cg (s.s x).toNat 16 = some (.scratch b key) ∧ (s.s x).toNat % 16 = 0

/-- The way e of the tag table matches a key for a block (R200). -/
def tagHit (c : Core) (bid k e : Nat) : Prop :=
  e / 4 = (k ^^^ (k >>> 10) ^^^ (k >>> 20)) % 1024 ∧ (c.tags.get e).st ≠ 0 ∧ (c.tags.get e).key = k ∧
    (c.tags.get e).owner = bid
/-- The lowest way of a key's set with a property. -/
def lowestWay (k : Nat) (p : Nat → Prop) (e : Nat) : Prop :=
  e / 4 = (k ^^^ (k >>> 10) ^^^ (k >>> 20)) % 1024 ∧ p e ∧ ∀ f, f / 4 = e / 4 → f < e → ¬ p f

/-- What a tag instruction leaves unchanged. -/
structure TagStep (h : Hdr) (d : Nat) (s t : State) : Prop where
  memory : s.cg.pairBuf = [] → MemoryKept s t
  others : OthersKept s t
  advanced : Advanced s t
  registers : ∀ r l, l < 32 → (r ≠ d ∨ inMask (s.active h) l = false) →
    t.cg.vr.get (32 * r + l) = s.cg.vr.get (32 * r + l) ∧ inMask (t.cg.vpo.get r) l = inMask (s.cg.vpo.get r) l
  rest : { t.cg with vr := s.cg.vr, vpo := s.cg.vpo, splits := s.cg.splits, pairBuf := s.cg.pairBuf, compared := s.cg.compared }
    = s.cg
  buffer : t.cg.pairBuf = s.cg.pairBuf ∨ t.cg.pairBuf = []
/-- A tag instruction of one active lane: its result word, and the table after it. -/
def TagOne (mk : Hdr → Nat → Nat → Instr) (insert : Bool) (post : Core → Nat → Nat → Word → Word → Core → Prop) : Prop :=
  ∀ h d a s, ctlClean (mk h d a) h State.liveNamed s →
    (insert = true → ∀ l, l < 32 → inMask (s.active h) l = true → (s.v d l).toNat / 2 ^ 21 % 1024 = 0) →
    ∃ t, exec (mk h d a) s = .next t ∧ TagStep h d s t ∧
      ∀ l, l < 32 → s.active h = laneBit l →
        post s.cc s.cg.bid (s.v a l).toNat (s.v d l) (t.cg.vr.get (32 * d + l)) t.cc ∧
          inMask (t.cg.vpo.get d) l = (s.vp a l || (insert && s.vp d l))

/-! ### Timelines -/

/-- The context that a context word names is one the part has (R231). -/
def ctxNamed (s : State) (c : Word) : Prop := s.ctxCheck c.toNat = none
/-- That context. -/
def ctxAt (s : State) (c : Word) : Ctx := s.cb.ctx (c.toNat / 2 ^ 28) (c.toNat % 32)
/-- Commands 1 to n of a context are accepted and complete. -/
def doneTo (x : Ctx) (n : Nat) : Prop := n ≤ x.accepted ∧ ∀ k, k ∈ x.open_ → n < k

/-- The step of a fence of a kind at a scope: an event of the split's lanes that acquires (kinds 0 and 1) and releases (0, 2
and 3), and XSTAT (R220, R229). -/
structure FenceStep (kind scope : Nat) (xstat : Word) (s t : State) : Prop where
  outside : OutsideNoted s t
  advanced : Advanced s t
  event : ∃ e, t.log = e :: s.log ∧ e.fence = true ∧ e.acq = decide (kind < 2) ∧ e.rel = decide (kind ≠ 1) ∧
    e.scope = scope ∧ e.by_ = s.lanesAt s.cur.gid s.cs.mask
  status : t.cg.xstat = xstat
  rest : { t.cg with splits := s.cg.splits, compared := s.cg.compared, xstat := s.cg.xstat } = s.cg

/-! ### Tiles, matrix commands and the adapter cache -/

/-- The step that makes tile k of the issuing core x. -/
structure TileWrite (k : Nat) (x : Tile) (s t : State) : Prop where
  tile : t.tile s.cg.core k = x
  tiles : ∀ c j, (c ≠ s.cg.core ∨ j ≠ k) → t.tile c j = s.tile c j
  cores : ∀ c, { t.co c with tiles := (s.co c).tiles } = s.co c
  memory : MemoryKept s t
  others : OthersKept s t
  advanced : Advanced s t
/-- The step that makes tile k of the issuing core x, and leaves everything else but the split's place. -/
structure TileStep (k : Nat) (x : Tile) (s t : State) : Prop extends TileWrite k x s t where
  rest : { t.cg with splits := s.cg.splits } = s.cg

/-- The issuing group holds the token of a tile of its core. -/
def holds (s : State) (k : Nat) : Prop := (s.tile s.cg.core k).tok = some s.cur.gid

/-- An element as FP32 (R138): NaN under WOVF or GUARD, else the integer times 2^ANCHOR, rounded. -/
def elementOut (s : State) (k e : Nat) : Conv :=
  let x := s.tile s.cg.core k
  let a := s.elem k e
  if a.2.1 = true ∨ x.guard = true then { code := 0x7FC00000 }
  else
    let n := (BitVec.ofNat 64 a.1).toInt
    toFloat fp32 s.cg.ovf 7 .rne (.fin (decide (n < 0)) n.natAbs (BitVec.ofNat 8 x.anchor).toInt)
/-- An FP32 word as an element (R139): the integer nearest to its quotient by 2^ANCHOR, kept in range, and WOVF. -/
def elementIn (anchor : Nat) (w : Word) : DWord × Bool :=
  match fv w with
  | .fin neg m e =>
    let n := roundInt .rne neg m (e - (BitVec.ofNat 8 anchor).toInt)
    (BitVec.ofInt 64 (max (-2 ^ 63) (min (2 ^ 63 - 1) n)), decide (n < -2 ^ 63 ∨ 2 ^ 63 ≤ n))
  | _ => (0#64, true)
/-- Element j of row or column x. -/
def sliceAt (slice x j : Nat) : Nat := if slice = 0 then 64 * x + j else x + 64 * j

/-- The byte of an image at an offset, and the 64-bit word of one of its elements. -/
def imageWord (img : List Byte) (e : Nat) : DWord := BitVec.ofNat 64 (leNat ((img.drop (0x240 + 8 * e)).take 8))

/-- A command accepted by a context of the block: its number, one more than those accepted, is in register r, and it is
open (R232). -/
structure Accepted (kind i r : Nat) (s t : State) : Prop where
  accepted : (t.cb.ctx kind i).accepted = (s.cb.ctx kind i).accepted + 1
  opened : (t.cb.ctx kind i).open_ = (s.cb.ctx kind i).open_ ++ [(s.cb.ctx kind i).accepted + 1]
  number : t.cg.sr.get r = BitVec.ofNat 32 ((s.cb.ctx kind i).accepted + 1) ∧ t.cg.spo.get r = false
  others : ∀ q, q ≠ r → t.cg.sr.get q = s.cg.sr.get q ∧ t.cg.spo.get q = s.cg.spo.get q
  groups : OthersKept s t
  memory : MemoryKept s t
  advanced : Advanced s t
  kept : kind ≠ 1 → t.cg.xstat = s.cg.xstat
  rest : { t.cg with sr := s.cg.sr, spo := s.cg.spo, splits := s.cg.splits, cmds := s.cg.cmds, xstat := s.cg.xstat,
                     compared := s.cg.compared } = s.cg

/-- The numbers of a die's adapter cache outside key k are as they were. -/
def OtherKeysKept (die k : Nat) (s t : State) : Prop :=
  (∀ d j, (d ≠ die ∨ j ≠ k) → t.adKey d j = s.adKey d j) ∧ ∀ d, { t.di d with adapters := (s.di d).adapters } = s.di d

/-- Every tile but tile k of a core is as it was. -/
def OtherTilesKept (core k : Nat) (s t : State) : Prop := ∀ c j, (c ≠ core ∨ j ≠ k) → t.tile c j = s.tile c j
/-- A command's tile as its start, its K-steps and its stages find it. -/
def tileOf (s : State) (core : Nat) (m : Mma) : Tile := s.tile core m.tile
/-- The exact sum of some terms, each an integer times a power of two, is n times 2^e. -/
def ExactSum (ts : List (Int × Int)) (n e : Int) : Prop :=
  (∀ x, x ∈ ts → x.1 ≠ 0 → e ≤ x.2) ∧ n = (ts.map fun x => x.1 * 2 ^ (x.2 - e).toNat).sum
/-- A signed byte of a record, and a signed 16-bit field (R286). -/
def signedByte (bs : List Byte) (o : Nat) : Int := (bs.getD o 0#8).toInt
def signedHalf (bs : List Byte) (o : Nat) : Int := (bs.getD (o + 1) 0#8 ++ bs.getD o 0#8).toInt
/-- Tr(c) of an adapter term (R282): the exact sum of a column of L over the row's K-steps, rounded once. -/
def ColumnRounded (rows : List PlaneRow) (bs : List Byte) (r k0 c : Nat) (w : Word) : Prop :=
  ∃ n e, ExactSum (rows.zipIdx.map fun y =>
      (((List.range 32).map fun j => y.1.q.getD j 0 *
          if k0 + 32 * y.2 + j < field32 bs 0 then signedByte bs (64 + (k0 + 32 * y.2 + j) * r + c) else 0).sum,
        y.1.e + signedHalf bs 8)) n e ∧
    w = if n = 0 then 0#32 else f32 .rne (decide (n < 0)) n.natAbs e
/-- The integer and the exponent of a finite value. -/
def finiteParts : FV → Int × Int
  | .fin neg m e => (if neg then -(m : Int) else m, e)
  | _ => (0, 0)
/-- Only WOVF of row i of a tile is set, with the mark of its command (R282, R285, R288, R372). -/
def RowOverflowed (i : Nat) (marked : Bool) (x y : Tile) : Prop :=
  ∀ j, j < 64 → y.wovf.get (64 * i + j) = true ∧ y.elems.get (64 * i + j) = x.elems.get (64 * i + j) ∧
    y.pois.get (64 * i + j) = (x.pois.get (64 * i + j) || marked)
/-- Row i of a tile takes the adapter term of a record that is present (R282). -/
def RowStaged (m : Mma) (i : Nat) (rows : List PlaneRow) (k : AdKey) (x y : Tile) : Prop :=
  let r := 8 * 2 ^ m.rcode
  let clash := k.valid = false ∨ (k.bytes.getD 4 0#8).toNat ≠ m.rcode ∨ ∃ a, a ∈ rows ∧ a.e = -32768
  (clash → RowOverflowed i m.marked x y) ∧
  (¬ clash → ∃ tr : Nat → Word, (∀ c, c < r → ColumnRounded rows k.bytes r (32 * m.koff) c (tr c)) ∧
    let inf := ∃ c, c < r ∧ ∃ neg, fv (tr c) = .inf neg
    (inf → RowOverflowed i m.marked x y) ∧
    (¬ inf → ∀ j, j < 64 → ∃ n e, ExactSum ((List.range r).map fun c =>
          ((finiteParts (fv (tr c))).1 * signedByte k.bytes (64 + field32 k.bytes 0 * r + 64 * c + j), (finiteParts (fv (tr c))).2))
        n e ∧
      (let p := e + signedHalf k.bytes 10 - (BitVec.ofNat 8 x.anchor).toInt
       let d := if 0 ≤ p then n * 2 ^ p.toNat else n / 2 ^ (-p).toNat
       let a : Int × Bool :=
         if 2 ^ 47 ≤ d then (2 ^ 47 - 1, true) else if d ≤ -2 ^ 47 then (-(2 ^ 47 - 1), true) else (d, false)
       y.elems.get (64 * i + j) = x.elems.get (64 * i + j) + BitVec.ofInt 64 a.1 ∧
         y.wovf.get (64 * i + j) = (x.wovf.get (64 * i + j) || a.2) ∧
         y.pois.get (64 * i + j) = (x.pois.get (64 * i + j) || k.poison || m.marked || rows.any (·.po)))))

/-- A fill has brought nothing: its key is absent, and the rows that wait for it get WOVF and no term (R285, R288). -/
structure RowsGivenUp (die key : Nat) (s t : State) : Prop where
  absent : t.adKey die key = {}
  keys : OtherKeysKept die key s t
  kept : t.groups = s.groups ∧ t.mem = s.mem
  rows : ∀ core m i, (core, m, i) ∈ s.waiters die key →
    bit (tileOf t core m).apend i = false ∧ ∀ j, j < 64 → (tileOf t core m).wovf.get (64 * i + j) = true
  elements : ∀ core k e, (t.tile core k).elems.get e = (s.tile core k).elems.get e
/-- The addend of a K-step for row i of A and row j of B (R271): the exact sum of products, scaled and clamped. -/
def stepAddend (anchor : Nat) (a b : PlaneRow) : Int × Bool :=
  if a.e = -32768 ∨ b.e = -32768 then (0, true)
  else
    let p := ((List.range 32).map fun j => a.q.getD j 0 * b.q.getD j 0).sum
    let n := a.e + b.e - (BitVec.ofNat 8 anchor).toInt
    let d := if 0 ≤ n then p * 2 ^ n.toNat else p / 2 ^ (-n).toNat
    if 2 ^ 47 ≤ d then (2 ^ 47 - 1, true) else if d ≤ -2 ^ 47 then (-(2 ^ 47 - 1), true) else (d, false)

/-! ### Engine commands -/

/-- A copy command accepted by a context: it stands last in its queue with its operand registers, as they are once its number
has been written (R10, R260), and takes the armed follow-on if its FOLLOW bit is set (R248, R249, R263). -/
structure CopyAccepted (ctx r : Nat) (follow : Bool) (op : State → CopyOp) (s t : State) : Prop extends
    Accepted 0 ctx r s t where
  queued : ∃ c, (t.cb.copy.get ctx).queue = (s.cb.copy.get ctx).queue ++ [c] ∧
    c.num = (s.cb.copy.get ctx).c.accepted + 1 ∧ c.ran = false ∧ c.core = s.cg.core ∧ c.priv = s.cg.priv ∧
    (c.follow = if follow then (s.cb.copy.get ctx).armed else none) ∧
    ∃ u : State, c.op = op u ∧ (∀ q, q ≠ r → u.s q = s.s q) ∧ (s.cur.stale = [] → u.s r = BitVec.ofNat 32 c.num)
  armed : (t.cb.copy.get ctx).armed = if follow then none else (s.cb.copy.get ctx).armed

/-- A copy instruction is accepted where its checks pass and there is room, and waits where there is none. -/
def CopyCommand (i : Instr) (h : Hdr) (check : State → Option Trap) (ctx : State → Nat) (r : Nat) (follow : State → Bool)
    (op : State → CopyOp) : Prop :=
  ∀ s, scalarClean i h s → Plain s → check s = none →
    (s.copyRoom (ctx s) = true → ∃ t, exec i s = .next t ∧ CopyAccepted (ctx s) r (follow s) op s t) ∧
    (s.copyRoom (ctx s) = false → exec i s = .next s.beginIssue.wait) ∧
    (16 ≤ (s.cb.copy.get (ctx s)).queue.length → s.copyRoom (ctx s) = false)

/-- The byte that a move takes: a fixed one, or the one that stands in memory. -/
def sourceByte (s : State) : SrcByte → Byte
  | .val b _ => b
  | .mem p => s.placeByte p 0

/-- The commands of a copy context that may run and have not. -/
def runnable (s : State) (bid ctx : Nat) : List CopyCmd :=
  ((s.b bid).copy.get ctx).queue.filter fun c => !c.ran && decide (c.notBefore ≤ s.bounds)
/-- What SLUICE_COMMAND_RUN does of command c, by the draws of u: one with an end in a peer waits for the boundary of its tick
(R405); else, where it meets no fault and its bytes do not overlap, every byte of its plan takes the byte that its source gives
(R260), or keeps what an earlier write of the order of writes left, and the command has run. -/
def CopyRuns (bid ctx : Nat) (c : CopyCmd) (u s : State) : Prop :=
  let pl := u.planOf bid ctx c
  let ms := pl.elems.flatten
  let away := s.detx = true ∧ peersOf ms (ctxWord 0 ctx) ≠ [] ∧ c.notBefore = 0
  (away → exec (.sluiceCommandRun bid ctx) s = .next (u.setCmd bid ctx { c with notBefore := s.bounds + 1 })) ∧
  (¬ away → pl.faults = [] → pl.index = none → c.marked = false → disjointMoves ms = true → (∀ m, m ∈ ms → m.nib = 0) →
    ∃ t, exec (.sluiceCommandRun bid ctx) s = .next t ∧ t.groups = s.groups ∧
      (∀ es x, es ∈ pl.elems → x ∈ es.zip (u.sources (u.copyReader bid ctx c) es) →
        (∀ pa mir, x.1.dst = .dev pa mir → t.devByte pa = x.2 ∨ (t.devByte pa = s.devByte pa ∧ s.writes ≠ [])) ∧
        ∀ b k, x.1.dst = .scratch b k → (t.b b).scratch.get k = x.2 ∨
          ((t.b b).scratch.get k = (s.b b).scratch.get k ∧ s.writes ≠ [])) ∧
      (s.writes = [] → ∀ es, es ∈ pl.elems → u.sources (u.copyReader bid ctx c) es = es.map fun m => sourceByte s m.src) ∧
      (∀ a, (∀ m mir, m ∈ ms → m.dst ≠ .dev a mir) → t.devByte a = s.devByte a) ∧
      (∀ b k, (∀ m, m ∈ ms → m.dst ≠ .scratch b k) → (t.b b).scratch.get k = (s.b b).scratch.get k) ∧
      ∃ d, d ∈ ((t.b bid).copy.get ctx).queue ∧ d.num = c.num ∧ d.ran = true ∧ d.fault = none ∧ d.follow = c.follow)

/-- The plan of CP.GATHER (`up` false) or CP.SCATTER over a clean list whose rows can be reached (R262): entry j, read before
anything is written, sends row j of the scratchpad area and the row it names to one another, byte by byte; the index 0xFFFFFFFF
skips its row. -/
def RowsPlan (mk : List Word → Nat → CopyOp) (up : Bool) : Prop :=
  ∀ bid ctx (s : State) (c : CopyCmd) blk rows list area (p : Nat → Nat → Place), c.op = mk blk rows →
    let g := c.who bid
    let n := (blk.getD 3 0#32).toNat
    let w := (blk.getD 4 0#32).toNat
    let idx := fun j => leNat (s.see (s.copyReader bid ctx c) (list.plus (4 * j)) 4)
    s.scratchPlace g (blk.getD 2 0#32).toNat (4 * n) = some list → s.scratchPlace g rows (n * w) = some area →
    (∀ j, j < n → s.placePo (list.plus (4 * j)) 4 = false) →
    (∀ j k, j < n → k < w → idx j ≠ 0xFFFFFFFF → (s.translate g.core g.priv (if up then .store else .load)
      (((blk.getD 1 0#32 ++ blk.getD 0 0#32).toNat + idx j * (blk.getD 5 0#32).toNat + k) % 2 ^ 64)).1 = .ok (p j k)) →
    (s.planOf bid ctx c).elems = (List.range n).flatMap (fun j => if idx j = 0xFFFFFFFF then [] else
        (List.range w).map fun k =>
          if up then [{ dst := p j k, src := .mem (area.plus (j * w + k)) }]
          else [{ dst := area.plus (j * w + k), src := .mem (p j k) }]) ∧
      (s.planOf bid ctx c).faults = [] ∧ (s.planOf bid ctx c).marks = [] ∧ (s.planOf bid ctx c).index = none ∧
      (s.planOf bid ctx c).ordered = up

/-- The linear index of a window coordinate, the first dimension fastest (R256). -/
def windowIndex : List Nat → List Nat → Nat
  | e :: es, w :: ws => w + e * windowIndex es ws
  | _, _ => 0
/-- The moves of one element of n bytes of a raw tensor copy (R254-R257): inside the tensor its bytes go between its address and
its landing offset; outside, an upward copy with a fill value writes the fill there, and nothing else happens. -/
def TensorElement (s : State) (g : Group) (l : Layout) (land : Place) (n : Nat) (w : List Nat) (ms : List Move) : Prop :=
  let lin := windowIndex l.ext w
  let x := fun d => (w.getD d 0 : Int) + l.org.getD d 0
  let inside := ∀ d, d < l.rank → 0 ≤ x d ∧ x d < ((l.dims.getD d (0, 0)).1 : Int)
  let addr := l.base + (x 0).toNat * n + ((List.range l.rank).map fun d => if d = 0 then 0 else
    (x d).toNat * (l.dims.getD d (0, 0)).2).sum
  let off := fun k => if l.il = 1 then (lin * n + k) ^^^ ((lin * n + k) / l.row % l.rows * l.gran) else lin * n + k
  (inside → ms.length = n ∧ ∀ k, k < n → ∃ p,
    (s.translate g.core g.priv (if l.down then .store else .load) ((addr + k) % 2 ^ 64)).1 = .ok p ∧
    ms[k]? = some (if l.down then { dst := p, src := .mem (land.plus (off k)) }
      else { dst := land.plus (off k), src := .mem p })) ∧
  (¬ inside → (l.down = true ∨ l.fillen = false) → ms = []) ∧
  (¬ inside → l.down = false → l.fillen = true → ms.length = n ∧ ∀ k, k < n → ms[k]? =
    some { dst := land.plus (off k), src := .val (BitVec.ofNat 8 ((if n = 4 then l.fill * 65536 else l.fill) / 256 ^ k)) false })
/-- The plan of a raw CP.TENSOR of a format of whole bytes that meets no fault: one element for each coordinate of the window. -/
def TensorPlan : Prop :=
  ∀ bid ctx (s : State) (c : CopyCmd) r w land, c.op = .tensor r w →
    let l := layoutOf r w
    let g := c.who bid
    let n := if l.fmt = 7 then 4 else if l.fmt = 5 ∨ l.fmt = 6 ∨ l.fmt = 8 then 2 else 1
    l.planes = false → l.fmt ∈ [2, 3, 4, 5, 6, 7, 8, 9] → 0 < l.row → 0 < l.rows →
    s.scratchPlace g l.dest l.landBytes = some land → (s.planOf bid ctx c).faults = [] →
    (s.planOf bid ctx c).elems.length = l.ext.foldl (· * ·) 1 ∧
      ∀ v : List Nat, v.length = l.ext.length → (∀ d, d < v.length → v.getD d 0 < l.ext.getD d 0) →
        TensorElement s g l land n v ((s.planOf bid ctx c).elems.getD (windowIndex l.ext v) [])
/-- The conversions to plane form (R132-R136): an integer format keeps its values and clamps them to the width; a float run has
the exponent that puts its largest value at the top of the width, each value rounded to it, and a NaN or an infinity makes the
block NaN; and the plane words give the integers back. -/
def PlaneForm : Prop :=
  (∀ w k (q : List Int), 0 < w → w ≤ 16 → q.length = 32 → k < 32 →
      (∀ x, x ∈ q → -2 ^ (w - 1) ≤ x ∧ x < 2 ^ (w - 1)) →
      planeInt ((List.range w).map (planeWord q)) k = q.getD k 0) ∧
    (∀ fmt w codes, fmt ∈ [1, 2, 8, 9, 10] →
      let v : Nat → Int := fun c => match fmt with
        | 1 => (BitVec.ofNat 4 c).toInt
        | 2 => (BitVec.ofNat 8 c).toInt
        | 8 => (BitVec.ofNat 16 c).toInt
        | 9 => c
        | _ => twiceE2m1 c
      (landRun fmt w codes).e = (if fmt = 10 then -1 else 0) ∧
        (landRun fmt w codes).q = codes.map fun c => max (-2 ^ (w - 1)) (min (2 ^ (w - 1) - 1) (v c))) ∧
    ∀ fmt f w codes, (fmt, f) ∈ [(3, e4m3), (4, e5m2), (5, bf16), (6, fp16), (7, fp32)] → 2 ≤ w →
      ((∃ c, c ∈ codes ∧ ∀ n m e, f.decode c ≠ .fin n m e) → (landRun fmt w codes).e = -32768) ∧
      ((∀ c, c ∈ codes → ∃ n e, f.decode c = .fin n 0 e) → landRun fmt w codes = { e := 0, q := List.replicate 32 0 }) ∧
      ∀ c n m e, c ∈ codes → f.decode c = .fin n m e → m ≠ 0 →
        (∀ d, d ∈ codes → ∃ n' m' e', f.decode d = .fin n' m' e' ∧ (m' ≠ 0 → (m'.log2 : Int) + e' ≤ m.log2 + e)) →
        let top : Int := m.log2 + e - (w - 2)
        (landRun fmt w codes).e = top ∧ (landRun fmt w codes).q = codes.map fun d => match f.decode d with
          | .fin n' m' e' => max (-2 ^ (w - 1)) (min (2 ^ (w - 1) - 1) (roundInt .rne n' m' (e' - top)))
          | _ => 0

/-- The scalar registers from r on, as a block of operands. -/
def operandBlock (s : State) (r n : Nat) : List Word := (List.range n).map fun k => s.s (r + k)

/-- A sampling command accepted by a context: the array is the block's, and the command stands last in the queue with its
operands (R297, R300, R309). -/
structure SampleAccepted (fn mode ctx r : Nat) (blk : List Word) (s t : State) : Prop extends Accepted 2 ctx r s t where
  bound : (t.array s.cb.arrayCore).bound = some s.cg.bid
  queued : ∃ c, (t.cb.sm.get ctx).queue = (s.cb.sm.get ctx).queue ++ [c] ∧
    c.num = (s.cb.sm.get ctx).c.accepted + 1 ∧ c.fn = fn ∧ c.mode = mode ∧ c.blk = blk

/-- A sampling instruction of function fn with its context in operand k. -/
def SampleCommand (mk : Hdr → Nat → Instr) (fn k : Nat) (form : Nat → State → SmForm) : Prop :=
  ∀ h x s, scalarClean (mk h x) h s → Plain s → smCheck false (form (2 * x)) s = none →
    (s.smReady (s.s (2 * x + k)).toNat = true → ∃ t, exec (mk h x) s = .next t ∧
      SampleAccepted fn 0 (s.s (2 * x + k)).toNat (2 * x + 7) (operandBlock s (2 * x) 7) s t) ∧
    (s.smReady (s.s (2 * x + k)).toNat = false → exec (mk h x) s = .next s.beginIssue.wait)

/-- A collective instruction of function fn. -/
def CollectiveCommand (mk : Hdr → Nat → Instr) (fn : Nat) : Prop :=
  ∀ h x s, scalarClean (mk h x) h s → Plain s → colCheck fn (2 * x) s = none →
    let ctx := (s.s (2 * x + 5)).toNat / 8192 % 8
    ((s.cb.col.get ctx).queue.length < 16 → ∃ t c, exec (mk h x) s = .next t ∧ Accepted 3 ctx (2 * x + 7) s t ∧
      (t.cb.col.get ctx).queue = (s.cb.col.get ctx).queue ++ [c] ∧ c.num = (s.cb.col.get ctx).c.accepted + 1 ∧ c.fn = fn ∧
      c.src = (s.s (2 * x + 1) ++ s.s (2 * x)).toNat ∧ c.dst = (s.s (2 * x + 3) ++ s.s (2 * x + 2)).toNat ∧
      c.n = (s.s (2 * x + 4)).toNat ∧ c.mask = (s.s (2 * x + 6)).toNat ∧ c.ty = (s.s (2 * x + 5)).toNat % 16 ∧
      c.op = (s.s (2 * x + 5)).toNat / 16 % 16 ∧ c.root = (s.s (2 * x + 5)).toNat / 256 % 32) ∧
    (16 ≤ (s.cb.col.get ctx).queue.length → exec (mk h x) s = .next s.beginIssue.wait)

/-- The number n of a context of a block is complete, with the trap it records. -/
def Finished (bid kind i n : Nat) (tr : Option Trap) (s t : State) : Prop :=
  ((t.b bid).ctx kind i).open_ = ((s.b bid).ctx kind i).open_.filter (fun k => decide (k ≠ n)) ∧
    ((t.b bid).ctx kind i).accepted = ((s.b bid).ctx kind i).accepted ∧
    ((t.b bid).ctx kind i).traps = ((s.b bid).ctx kind i).traps ++ match tr with
      | some x => [(n, x)]
      | none => []

/-! ### Grids and queues -/

/-- The step of an instruction whose scalar results count on a path: they are written, unmarked, and the access is counted. -/
structure ReplyStep (path : Nat) (ws : List (Nat × Word)) (s t : State) : Prop where
  memory : MemoryKept s t
  others : OthersKept s t
  advanced : Advanced s t
  value : ∀ r x, (r, x) ∈ ws → t.cg.sr.get r = x ∧ t.cg.spo.get r = false
  registers : ∀ r, r ∉ ws.map Prod.fst → t.cg.sr.get r = s.cg.sr.get r ∧ t.cg.spo.get r = s.cg.spo.get r
  counted : t.cg.count path = s.cg.count path + 1
  rest : { t.cg with sr := s.cg.sr, spo := s.cg.spo, splits := s.cg.splits, inflight := s.cg.inflight, accs := s.cg.accs,
                     compared := s.cg.compared } = s.cg

/-- The step of an instruction that writes n bytes of the scratchpad of a block, counted on a path. -/
structure CountedScratchStep (path b key n : Nat) (s t : State) : Prop where
  memory : MemoryKept s t
  scratch : ∀ q a, (q ≠ b ∨ a < key ∨ key + n ≤ a) → (t.b q).scratch.get a = (s.b q).scratch.get a
  others : OthersKept s t
  advanced : Advanced s t
  counted : t.cg.count path = s.cg.count path + 1
  rest : { t.cg with splits := s.cg.splits, inflight := s.cg.inflight, accs := s.cg.accs } = s.cg

/-- The step of an instruction whose answer, some bytes for the scratchpad of a block, is on its way: it is counted on path 4,
and the scratchpad changes when that access completes (the model's reading, log entry 134). -/
structure AnswerStep (b key : Nat) (bs : List Byte) (s t : State) : Prop where
  memory : MemoryKept s t
  scratch : t.blocks = s.blocks
  others : OthersKept s t
  advanced : Advanced s t
  counted : t.cg.count 4 = s.cg.count 4 + 1
  answer : ∃ a, t.cg.inflight = s.cg.inflight ++ [a] ∧ a.path = 4 ∧ a.answer = some (.scratch b key, bs) ∧ a.fault = none ∧
    a.binds = [] ∧ a.adds = [] ∧ a.hold = false ∧ a.peers = [] ∧ a.notBefore = 0
  rest : { t.cg with splits := s.cg.splits, inflight := s.cg.inflight, accs := s.cg.accs } = s.cg

/-- Scratchpad address s[x] of n bytes is in range, and stands at these bytes of a scratchpad. -/
def spadAt (s : State) (x n b key : Nat) : Prop := s.scratchPlace s.cg (s.s x).toNat n = some (.scratch b key)

/-! ### Traps, regions and maintenance -/

/-- A word of device memory. -/
def devWord (s : State) (a : Nat) : Word := s.devByte (a + 3) ++ s.devByte (a + 2) ++ s.devByte (a + 1) ++ s.devByte a
/-- What follows when a group ends by a fatal trap with a record in the queue (R337, R362, R374). -/
structure FatalStep (gid : Nat) (tr : Trap) (nest : Bool) (s t : State) : Prop where
  ended : (t.g gid).stop = .ended
  splits : (t.g gid).splits = []
  record : ∃ r, (t.di (dieOf (s.g gid).core)).queue = (s.di (dieOf (s.g gid).core)).queue ++ [r] ∧ r.fatal = true ∧
    r.nest = nest ∧ r.t = tr ∧ r.grid = s.gridOf (s.g gid) ∧ r.core = (s.g gid).core ∧ r.index = (s.g gid).index ∧
    r.recno = (s.g gid).recno ∧ r.dead = (s.g gid).dead ∧ r.cycle = s.cycle
  grid : let g := s.gr (s.gridOf (s.g gid))
    let g' := t.gr (s.gridOf (s.g gid))
    let first := g.anyFault = false ∨ (g.fatalAt = s.cycle ∧ dieOf (s.g gid).core < g.fatalDie)
    g'.anyFault = true ∧ (first → g'.trap = tr.code ∧ g'.sub = tr.sub) ∧ (¬ first → g'.trap = g.trap ∧ g'.sub = g.sub)
  others : ∀ k, k ≠ gid → t.g k = s.g k
  memory : MemoryKept s t

/-- No record that waits for a slot of the trap queue of a group's die has one: such a record enters before a new one does
(R374). -/
def noneEnters (s : State) (gid : Nat) : Prop := (s.di (dieOf (s.g gid).core)).enqueues = false
/-- The trap queue of a group's die has a slot outside the reserve, and no record waits for it (R374). -/
def slotFree (s : State) (gid : Nat) : Prop := (s.di (dieOf (s.g gid).core)).unreserved < 248 ∧ noneEnters s gid

/-- The frame of a TRET restores a group (R366). -/
structure FrameRestored (f : Frame) (always : Bool) (g g' : Group) : Prop where
  scalars : ∀ k, k < 16 → g'.sr.get (48 + k) = BitVec.ofNat 32 (f.w (0x100 + 4 * k))
  otherScalars : ∀ r, (r < 48 ∨ 64 ≤ r) → g'.sr.get r = g.sr.get r
  vectors : ∀ l, l < 32 → g'.vr.get (32 * 63 + l) = BitVec.ofNat 32 (f.w (0x140 + 4 * l))
  otherVectors : ∀ r l, l < 32 → r ≠ 63 → g'.vr.get (32 * r + l) = g.vr.get (32 * r + l)
  masks : g'.mmask = BitVec.ofNat 32 (f.w 0x18) ∧ g'.xstat = BitVec.ofNat 32 (f.w 0x1C) &&& 0x1F#32 ∧
    g'.clockHi = BitVec.ofNat 32 (f.w 0x74)
  level : g'.priv = (always || bit (f.w 0) 7) ∧ g'.handler = false
  planes : ∀ l, l < 32 → g'.plane.get l = leNat ((f.bytes.drop 0x60).take 8) / 4 ^ l % 4
  held : g'.held = BitVec.ofNat 32 (f.w 0x68) &&& g.alive ∧ ∀ l, l < 32 → g'.holdoff.get l = f.w (0x80 + 4 * l) % 2 ^ 20
  splits : ∀ k, k < 4 → (g'.splits.get k).valid = bit (f.w (0x20 + 16 * k)) 20 ∧
    (bit (f.w (0x20 + 16 * k)) 20 = true → (g'.splits.get k).offset = f.w (0x20 + 16 * k) % 2 ^ 20 ∧
      (g'.splits.get k).mask = BitVec.ofNat 32 (f.w (0x20 + 16 * k + 4)) &&& g.alive ∧
      (g'.splits.get k).age = f.w (0x20 + 16 * k) / 2 ^ 24 % 64 ∧ (g'.splits.get k).stall = f.w (0x20 + 16 * k) / 2 ^ 22 % 4 ∧
      (g'.splits.get k).joinw = bit (f.w (0x20 + 16 * k)) 21 ∧ (g'.splits.get k).sig = 0xFFFFFFFF#32)
  own : g'.exited = g.exited ∧ g'.dead = g.dead ∧ g'.recno = g.recno ∧ g'.ovf = g.ovf ∧ g'.region = g.region ∧ g'.pr = g.pr ∧
    g'.lfsr = g.lfsr

/-- A DRAIN in mode 1 of a core in service that is not drained (R389): the core is marked, pre-emption of every unit bound
there is requested, and the answer waits. -/
def DrainPreempts (mk : Hdr → Nat → Nat → Instr) : Prop :=
  ∀ h y x s, scalarClean (mk h y x) h s → Room 5 s → (s.s x).toNat / 256 = 1 →
    let c := (s.s x).toNat % 256
    c < s.ncores → ¬ (c = s.cg.core ∨ s.cb.partner = some c) → c ≠ 0 → (s.co c).drained = false → s.inService c = true →
    ∃ t, exec (mk h y x) s = .next t ∧ ReplyStep 5 [] s t ∧
      t.co c = { s.co c with drained := true, drains := (s.co c).drains ++ [⟨s.cur.gid, y⟩] } ∧
      (∃ a, t.cg.inflight = s.cg.inflight ++ [a] ∧ a.hold = true) ∧
      ∀ bid, (bid, s.b bid) ∈ s.blocks → (s.b bid).live = true → (s.b bid).state = .bound → c ∈ (s.b bid).cores →
        ((s.b bid).cluster = [] ∨ bid ∈ (s.b bid).cluster) → s.ctlGrid ≠ some (s.b bid).grid →
        ((t.b bid).state = .saving ∨ (t.b bid).state = .draining s.cycle ∨ (t.b bid).state = .flushing) ∧
          (t.gr (s.b bid).grid).pre = true

/-- What DRAIN does not accept (R389): a mode 3 or a bit above 9 is ILLEGAL, and a core that the part does not have is absent. -/
def DrainRefused (mk : Hdr → Nat → Nat → Instr) : Prop :=
  ∀ h y x s, scalarClean (mk h y x) h s →
    ((1024 ≤ (s.s x).toNat ∨ (s.s x).toNat / 256 % 4 = 3) → raisesIllegal (mk h y x) s) ∧
    ((s.s x).toNat < 768 → s.ncores ≤ (s.s x).toNat % 256 →
      exec (mk h y x) s = .next (s.beginIssue.trapCur s.beginIssue.unitAbsent))

/-- A DRAIN in mode 2 of a drained core on which another DRAIN waits (R389): that one returns 0 if the core has come to be
quiescent, and 5 otherwise. -/
def DrainReleases (mk : Hdr → Nat → Nat → Instr) : Prop :=
  ∀ h y x s w, scalarClean (mk h y x) h s → Room 5 s → (s.s x).toNat / 256 = 2 →
    let c := (s.s x).toNat % 256
    c < s.ncores → (s.co c).drained = true → (s.co c).drains = [w] → w.gid ≠ s.cur.gid → (s.g w.gid).live = true →
    ∃ t, exec (mk h y x) s = .next t ∧ t.cg.sr.get y = 0#32 ∧ (t.co c).drained = false ∧ (t.co c).drains = [] ∧
      (t.g w.gid).sr.get w.reg = if s.quiescent c = true then 0#32 else 5#32

/-- A DRAIN by its mode and its core (R389). -/
def DrainCommand (mk : Hdr → Nat → Nat → Instr) : Prop :=
  ∀ h y x s, scalarClean (mk h y x) h s → Room 5 s → (s.s x).toNat < 1024 →
    let c := (s.s x).toNat % 256
    let mode := (s.s x).toNat / 256
    let own := c = s.cg.core ∨ s.cb.partner = some c
    c < s.ncores →
    (mode = 2 → (s.co c).drained = false → ∃ t, exec (mk h y x) s = .next t ∧ ReplyStep 5 [(y, 2#32)] s t ∧ t.cores = s.cores) ∧
    (mode = 2 → (s.co c).drained = true → (s.co c).drains = [] → ∃ t, exec (mk h y x) s = .next t ∧
      ReplyStep 5 [(y, 0#32)] s t ∧ (t.co c).drained = false ∧
      ((s.co c).scan.state = 1 → (t.co c).scan.state = 4 ∧ (t.co c).tiles = [] ∧ (t.co c).tags = [])) ∧
    (mode ≤ 1 → own → ∃ t, exec (mk h y x) s = .next t ∧ ReplyStep 5 [(y, 3#32)] s t ∧ t.cores = s.cores) ∧
    (mode ≤ 1 → ¬ own → c = 0 → ∃ t, exec (mk h y x) s = .next t ∧ ReplyStep 5 [(y, 4#32)] s t ∧ t.cores = s.cores) ∧
    (mode ≤ 1 → ¬ own → c ≠ 0 → (s.co c).drained = true → ∃ t, exec (mk h y x) s = .next t ∧ ReplyStep 5 [(y, 2#32)] s t ∧
      t.cores = s.cores) ∧
    (mode ≤ 1 → ¬ own → c ≠ 0 → (s.co c).drained = false → s.inService c = false → ∃ t, exec (mk h y x) s = .next t ∧
      ReplyStep 5 [(y, 0#32)] s t ∧ t.co c = { s.co c with drained := true }) ∧
    (mode = 0 → ¬ own → c ≠ 0 → (s.co c).drained = false → s.inService c = true → ∃ t, exec (mk h y x) s = .next t ∧
      ReplyStep 5 [] s t ∧ t.co c = { s.co c with drained := true, drains := (s.co c).drains ++ [⟨s.cur.gid, y⟩] } ∧
      ∃ a, t.cg.inflight = s.cg.inflight ++ [a] ∧ a.hold = true)

/-- SCAN.RUN (R390): a core that is not drained gets state 5; a drained one starts; pattern 0 aborts a run. -/
def ScanCommand (mk : Hdr → Nat → Nat → Instr) : Prop :=
  ∀ h y x s, scalarClean (mk h y x) h s → (s.s x).toNat < s.ncores → (s.s x).toNat < 256 →
    s.inService (s.s x).toNat = true → (s.s y).toNat ≤ 15 →
    let c := (s.s x).toNat
    ∃ t, exec (mk h y x) s = .next t ∧ MachineWriteStep s t ∧ (∀ k, k ≠ c → t.co k = s.co k) ∧
      (0 < (s.s y).toNat → (s.co c).scan.state ≠ 1 → (s.co c).drained = true → (t.co c).scan.state = 1 ∧
        (t.co c).scan.pattern = (s.s y).toNat ∧ (t.co c).scan.since = s.ns) ∧
      (0 < (s.s y).toNat → (s.co c).scan.state ≠ 1 → (s.co c).drained = false → (t.co c).scan.state = 5 ∧
        (t.co c).scan.pattern = (s.s y).toNat) ∧
      (0 < (s.s y).toNat → (s.co c).scan.state = 1 → t.co c = s.co c) ∧
      (s.s y = 0#32 → (s.co c).scan.state = 1 → (t.co c).scan.state = 4 ∧ (t.co c).tiles = [] ∧ (t.co c).tags = [] ∧
        (t.co c).tlb = [] ∧ (t.co c).icache = []) ∧
      (s.s y = 0#32 → (s.co c).scan.state ≠ 1 → t.co c = s.co c)

/-- CMAP.SET (R391): the status, and the map. -/
def MapCommand (mk : Hdr → Nat → Nat → Instr) : Prop :=
  ∀ h y x s, scalarClean (mk h y x) h s → Room 5 s → (s.s x).toNat < s.ncores → (s.s x).toNat < 256 →
    let c := (s.s x).toNat
    let p := (s.s y).toNat
    ∃ t r, exec (mk h y x) s = .next t ∧ MemoryKept s t ∧ Advanced s t ∧ t.cg.sr.get (x + 1) = BitVec.ofNat 32 r ∧
      (s.inService c = true → p = s.physOf c → r = 0 ∧ t.map = s.map) ∧
      (¬ (s.inService c = true ∧ p = s.physOf c) →
        ((s.co c).drained = false → r = 1 ∧ t.map = s.map) ∧
        ((s.co c).drained = true → (s.co c).scan.state = 1 → r = 4 ∧ t.map = s.map) ∧
        ((s.co c).drained = true → (s.co c).scan.state ≠ 1 → p = 0xFFFFFFFF → r = 0 ∧ t.inService c = false) ∧
        ((s.co c).drained = true → (s.co c).scan.state ≠ 1 → p ≠ 0xFFFFFFFF → p / 51 ≠ c / 48 → r = 2 ∧ t.map = s.map) ∧
        ((s.co c).drained = true → (s.co c).scan.state ≠ 1 → p ≠ 0xFFFFFFFF → p / 51 = c / 48 →
          (s.serves p = true ∨ p ∈ s.failedCores) → r = 3 ∧ t.map = s.map) ∧
        ((s.co c).drained = true → (s.co c).scan.state ≠ 1 → p ≠ 0xFFFFFFFF → p / 51 = c / 48 →
          s.serves p = false → p ∉ s.failedCores → r = 0 ∧ t.inService c = true ∧ t.physOf c = p))

/-! ### Events of groups, grids and the module -/

/-- A group stands at the start of its region (R368). -/
structure RegionRestarted (g g' : Group) : Prop where
  one : g.region.rmask &&& g.alive ≠ 0#32 → (g'.splits.get 0).valid = true ∧ (g'.splits.get 0).offset = g.region.entry ∧
    (g'.splits.get 0).mask = g.region.rmask &&& g.alive ∧ (g'.splits.get 0).sig = 0xFFFFFFFF#32 ∧
    (g'.splits.get 0).stall = 0 ∧ (g'.splits.get 0).age = 0
  others : ∀ k, (k ≠ 0 ∨ g.region.rmask &&& g.alive = 0#32) → (g'.splits.get k).valid = false
  lanes : g'.held = 0#32 ∧ g'.plane = g.region.plane ∧ g'.lfsr = g.region.lfsr ∧ g'.mmask = g.region.mmask
  runs : g'.stop = .running
  kept : g'.exited = g.exited ∧ g'.dead = g.dead ∧ g'.vr = g.vr ∧ g'.sr = g.sr ∧ g'.pr = g.pr ∧ g'.xstat = g.xstat ∧
    g'.recno = g.recno ∧ g'.region = g.region ∧ g'.priv = g.priv ∧ g'.ovf = g.ovf

/-- Every group but one is as it was. -/
def AllBut (gid : Nat) (s t : State) : Prop := ∀ k, k ≠ gid → t.g k = s.g k

/-- A block of a grid is bound on some cores: its groups stand at their entry, in the slots that the model chooses. -/
structure BoundStep (h blk : Nat) (cs : List Nat) (s t : State) : Prop where
  block : let p := (s.gr h).p
    let b := t.b s.nextBid
    b.live = true ∧ b.grid = h ∧ b.blk = blk ∧ b.state = .bound ∧
      b.groups = (List.range p.groups).map (s.nextGid + ·) ∧ b.members = if p.paired = true then cs.take 1 else cs
  grid : (t.gr h).state = .running ∧ (t.gr h).bound.get blk = true
  entry : let p := (s.gr h).p
    ∀ i, i < p.groups → (let core := if p.paired = true then cs.headD 0 else cs.getD (i / 128) 0
      ∃ slot, t.g (s.nextGid + i) = entryGroup p h blk s.nextBid i core core slot (p.persistOf blk i)
        (bit ((s.gr h).flushed.get blk / 2) i))
  others : ∀ k, (k < s.nextGid ∨ s.nextGid + (s.gr h).p.groups ≤ k) → t.g k = s.g k
  memory : t.mem = s.mem

/-- A byte of device memory after the stores that a pair held back. -/
def afterStores (buf : List PairStore) (a : Nat) (b : Byte) : Byte :=
  buf.foldl (fun x p => if p.kind = 1 ∧ p.addr ≤ a ∧ a < p.addr + p.bytes.length then p.bytes.getD (a - p.addr) 0#8 else x) b

/-- A containment reset by its kind (R381): one at a time, none for a unit that does not exist, and what every kind does. -/
def ContainReset (i : Instr) (kind target index : Nat) : Prop :=
  ∀ s, (s.containBusy.isSome = true → exec i s = .next s) ∧
    (s.containBusy = none → s.unitExists kind target index = false → exec i s = .next { s with containErr := true }) ∧
    (s.containBusy = none → s.unitExists kind target index = true →
      exec i s = .next ({ s with containErr := false, containBusy := some ⟨kind, target, index⟩ }.containUnit kind target index))

/-- Some commands of a context have finished with a recorded trap each: by POISON, sub-code 3, of a containment reset, where they
held none (R381). -/
def Contained (bid kind i : Nat) (lost : List (Nat × Option Trap)) (s t : State) : Prop :=
  (∀ n, n ∈ ((t.b bid).ctx kind i).open_ ↔ n ∈ ((s.b bid).ctx kind i).open_ ∧ ∀ x, x ∈ lost → x.1 ≠ n) ∧
    ((t.b bid).ctx kind i).accepted = ((s.b bid).ctx kind i).accepted ∧
    ((t.b bid).ctx kind i).traps = ((s.b bid).ctx kind i).traps ++
      lost.map fun x => (x.1, x.2.getD { code := 0x0D, sub := 3 })

/-- What a containment reset of a matrix array leaves: it is empty, every element of the tiles of its commands carries the poison
mark, and the commands have faulted (R381). -/
structure ArrayContained (core part : Nat) (s t : State) : Prop where
  empty : (t.co core).mmas = (s.co core).mmas.filter fun m => decide (m.part ≠ part)
  tiles : ∀ m e, m ∈ (s.co core).mmas → m.part = part → e < 4096 → (t.tile core m.tile).pois.get e = true
  commands : ∀ bid i, Contained bid 1 i (((s.co core).mmas.filter fun m => decide (m.part = part ∧ m.bid = bid ∧ m.ctx = i)).map
    fun m => (m.num, m.trap)) s t

/-- A containment reset of one kind acts on a unit that exists, and none is in progress. -/
def contains (s : State) (kind target index : Nat) : Prop := s.containBusy = none ∧ s.unitExists kind target index = true

/-- The state in which a containment reset has begun. -/
def containing (s : State) (kind target index : Nat) : State :=
  { s with containErr := false, containBusy := some ⟨kind, target, index⟩ }

/-- What the containment resets of kinds 1 to 7 do to their units (R381, R397). -/
def ContainEffects : Prop :=
  (∀ core part s, contains s 1 core part → (s.co core).mmas.Pairwise (fun x y => x.seq ≠ y.seq) →
      ∃ t, exec (.containPartition core part) s = .next t ∧ ArrayContained core part s t ∧ t.mem = s.mem) ∧
    (∀ die sluice s, contains s 2 die sluice → ∃ t, exec (.containSluice die sluice) s = .next t ∧
      ∀ bid k, (bid, s.b bid) ∈ s.blocks → (s.b bid).live = true → k < 32 → (s.b bid).sluice k = (die, sluice) →
        ((t.b bid).copy.get k).queue = [] ∧
        ∀ c, c ∈ ((s.b bid).copy.get k).queue → c.num ∉ ((t.b bid).ctx 0 k).open_ ∧
          (c.num, { code := 0x0D, sub := 3 }) ∈ ((t.b bid).ctx 0 k).traps) ∧
    (∀ core part s, contains s 3 core part → (s.co core).mmas.Pairwise (fun x y => x.seq ≠ y.seq) →
      ∃ t, exec (.containMatrixArray core part) s = .next t ∧ ArrayContained core part s t ∧ t.mem = s.mem ∧
        t.groups = s.groups ∧ (t.containBusy = some ⟨3, core, part⟩) ∧
        ∀ k, (∀ m, m ∈ (s.co core).mmas → m.part = part → m.tile ≠ k) → t.tile core k = s.tile core k) ∧
    (∀ core s, contains s 4 core 0 → ∃ t, exec (.containSamplingArray core) s = .next t ∧ (t.array core).failed = true ∧
      t.groups = s.groups ∧ t.mem = s.mem ∧
      ∀ bid k, (s.array core).bound = some bid → k < 4 → ((t.b bid).sm.get k).queue = [] ∧
        Contained bid 2 k (((s.b bid).sm.get k).queue.map fun c => (c.num, none)) s t) ∧
    (∀ die s, contains s 5 die 0 → ∃ t, exec (.containCollectiveEngine die) s = .next t ∧ t.groups = s.groups ∧ t.mem = s.mem ∧
      ∀ bid k, (bid, s.b bid) ∈ s.blocks → (s.b bid).live = true → k < 8 → dieOf ((s.b bid).coreOf 0) = die →
        ((t.b bid).col.get k).queue = [] ∧
        ∀ c, c ∈ ((s.b bid).col.get k).queue → c.num ∉ ((t.b bid).ctx 3 k).open_ ∧
          (c.num, { code := 0x0D, sub := 3 }) ∈ ((t.b bid).ctx 3 k).traps) ∧
    (∀ die other s, contains s 6 die other → exec (.containDieLink die other) s = .next (containing s 6 die other)) ∧
    ∀ port s, contains s 7 0 port → ∃ t, exec (.containShagalPort port) s = .next t ∧ t.ports.get port = 1 ∧
      (∀ k, k ≠ port → t.ports.get k = s.ports.get k) ∧ t.mem = s.mem ∧
      (s.mirctl.getLsbD 31 = true → ({ s with ports := s.ports.put port 0 } : State).unreachable s.mirPeer = true →
        t.mirstat = 2 ∧ t.mirror = [])

/-- A port goes from one state to another, and nothing else changes (R397). -/
def PortMove (i : Instr) (port src dst : Nat) : Prop :=
  ∀ s, (port < s.part.ports → s.ports.get port = src → exec i s = .next { s with ports := s.ports.put port dst }) ∧
    (s.ports.get port ≠ src → exec i s = .next s)

/-- A port goes DOWN: memory stays, and a mirror that has lost its way is degraded (R397, R407). -/
def PortLoss (i : Instr) (port src : Nat) : Prop :=
  ∀ s, (port < s.part.ports → s.ports.get port = src → ∃ t, exec i s = .next t ∧ t.ports = s.ports.put port 0 ∧ t.mem = s.mem ∧
      (∀ r, s.mirctl.getLsbD 31 = true → s.mirPeer = r → t.unreachable r = true → t.mirstat = 2 ∧ t.mirror = []) ∧
      (s.mirctl.getLsbD 31 = false → t.mirstat = s.mirstat ∧ t.mirror = s.mirror)) ∧
    (s.ports.get port ≠ src → exec i s = .next s)

/-- What a loss of power leaves (R28, R391): the map, the failed cores and the keys. -/
structure AfterLoss (s t : State) : Prop where
  kept : t.part = s.part ∧ t.map = s.map ∧ t.failedCores = s.failedCores ∧ t.keys = s.keys ∧ t.provisioned = s.provisioned
  gone : t.groups = [] ∧ t.blocks = [] ∧ t.grids = [] ∧ t.cores = [] ∧ t.mem = [] ∧ t.queues = [] ∧ t.ctlGrid = none ∧
    t.broughtUp = false ∧ t.linkUp = false ∧ t.locked = false ∧ t.cycle = 0 ∧ t.outgoing = []
  registers : t.ttblo = 0#32 ∧ t.ttbhi = 0#32 ∧ t.fabid = 0#32 ∧ t.rgrace = 0x004C4B40#32 ∧ t.prectl = 0x00200040#32

/-! ### Words, steps and the module as a whole -/

/-- The rows that share their word with DRAIN, SCAN.RUN or CMAP.SET (R389-R391): a register tells them apart. -/
def sharedWord : Instr → Bool
  | .drainPreempt _ _ _ | .drainClear _ _ _ | .scanRunAbort _ _ _ | .cmapSetRemove _ _ _ => true
  | _ => false

/-- A code as it can be stored: a parcel with bit 0 clear, or a word with bit 0 set and the words that its fields ask for (R38,
R59). -/
def storable : Code → Prop
  | .parcel p => p % 2 = 0 ∧ p < 2 ^ 16
  | .word w lits => w % 2 = 1 ∧ w < 2 ^ 32 ∧ lits.length = followWords w ∧ ∀ x, x ∈ lits → x < 2 ^ 32

/-- Some bytes stand in the text of a group's code object from an offset on, in a page that the core's micro-TLB holds and
that the group may execute. -/
structure TextAt (s : State) (gid off : Nat) (bs : List Byte) : Prop where
  inText : off + bs.length ≤ (s.codeOf (s.g gid)).textlen
  even : (s.codeOf (s.g gid)).parcelVa 0 off % 2 = 0
  entry : ∃ e : TlbEntry, e.mt = 0 ∧ 16 ≤ e.bits ∧ e.x = true ∧ (e.u = true ∨ (s.g gid).priv = true) ∧
    s.ttblo.getLsbD 0 = true ∧ ∀ k, k < bs.length →
      (let va := (s.codeOf (s.g gid)).parcelVa 0 off + k
       let pa := e.pa + va % 2 ^ e.bits
       va < 2 ^ 52 ∧ tlbFind (s.co (s.g gid).core).tlb va = some e ∧ s.devByte pa = bs.getD k 0#8 ∧ s.devPo pa = false ∧
         (s.co (s.g gid).core).icache.get va = 0)
  plain : ∀ k, k < 4096 → (s.codeOf (s.g gid)).chunks.get k = false

/-- The state in which the split of a group issues some code of its plane 0 (R82, R91). -/
def atIssue (s : State) (gid slot : Nat) (c : Code) : State :=
  let off := ((s.g gid).splits.get slot).offset
  { s with cur := { valid := true, gid := gid, slot := slot, here := off, next := off + c.length, word := codeHead c
                    lanes := allLanes, pipe := codePipeNum c } }

end Sys2Proof.Claims

open Sys2Proof Sys2Proof.Machine Sys2Proof.Claims

/-- IADD, ISUB, IMAD, AND and OR compute modulo 2^32 in every active lane and write nothing else. -/
def Obligations.LaneIntegerThreeOperands : Prop :=
  LaneAB .iadd (fun x y => x + y) ∧ LaneAB .isub (fun x y => x - y) ∧ LaneABD .imad (fun x y z => x * y + z) ∧
    LaneAB .and (fun x y => x &&& y) ∧ LaneAB .or (fun x y => x ||| y)

/-- The two-operand functions of VX-INT. -/
def Sys2Proof.Claims.LaneIntegerTwoOperands : Prop :=
  LaneDA .xor (fun x y => x ^^^ y) ∧ LaneDA .shl (fun x y => x <<< y) ∧ LaneDA .shr (fun x y => x >>> y) ∧
    LaneDA .sra (fun x y => x.sshiftRight (min y.toNat 31)) ∧ LaneDA .mul (fun x y => x * y) ∧
    LaneDA .mulhs (fun x y => ((x.signExtend 64 * y.signExtend 64) >>> 32).setWidth 32) ∧
    LaneDA .mulhu (fun x y => ((x.setWidth 64 * y.setWidth 64) >>> 32).setWidth 32) ∧
    LaneDA .mins (fun x y => if x.sle y then x else y) ∧ LaneDA .maxs (fun x y => if y.sle x then x else y) ∧
    LaneDA .minu (fun x y => if x ≤ y then x else y) ∧ LaneDA .maxu (fun x y => if y ≤ x then x else y) ∧
    LaneDA .andn (fun x y => x &&& ~~~ y)

/-- The functions of VX-INT that read va alone, BCAST and LANE. -/
def Sys2Proof.Claims.LaneIntegerOneOperand : Prop :=
  LaneA .not (fun x => ~~~ x) ∧ LaneA .neg (fun x => - x) ∧ LaneA .abs (fun x => if x.msb then - x else x) ∧
    LaneA .clz (fun x => x.clz) ∧ LaneA .popc (fun x => BitVec.ofNat 32 ((List.range 32).countP x.getLsbD)) ∧
    LaneA .brev (fun x => x.reverse) ∧ LaneA .mov (fun x => x) ∧
    (∀ h d r, LaneResult (.bcast h d r) h d (fun s _ => s.s r) fun _ _ => false) ∧
    (∀ h d, LaneResult (.lane h d) h d (fun _ l => BitVec.ofNat 32 l) fun _ _ => false)

/-- The predicate functions of VX-INT. -/
def Sys2Proof.Claims.LanePredicates : Prop :=
  (∀ h q a, LanePredResult (.psetv h q a) h q (fun s l => s.v a l != 0#32) fun s l => s.vp a l) ∧
    (∀ h d b, LaneResult (.pgetv h d b) h d (fun s l => flag (s.p b l)) fun s l => s.pp b l) ∧
    LanePP .pand (fun x y => x && y) ∧ LanePP .por (fun x y => x || y) ∧ LanePP .pxor (fun x y => xor x y) ∧
    LanePB .pnot (fun x => !x) ∧ LanePB .pmov (fun x => x)

/-- The integer compares: relation 0 is EQ, 1 NE, 2 LT, 3 LE. -/
def Sys2Proof.Claims.LaneIntegerCompares : Prop :=
  LaneCompare .cmpI32 0 (fun x y => x == y) ∧ LaneCompare .cmpI32 1 (fun x y => x != y) ∧
    LaneCompare .cmpI32 2 (fun x y => x.slt y) ∧ LaneCompare .cmpI32 3 (fun x y => x.sle y) ∧
    LaneCompare .cmpUi32 0 (fun x y => x == y) ∧ LaneCompare .cmpUi32 1 (fun x y => x != y) ∧
    LaneCompare .cmpUi32 2 (fun x y => x.ult y) ∧ LaneCompare .cmpUi32 3 (fun x y => x.ule y)

/-- The FP32 compares: with a NaN only NE holds; -0 equals +0. -/
def Sys2Proof.Claims.LaneFloatCompares : Prop :=
  LaneCompare .cmpF32 0 (fun x y => (fv x).eqv (fv y)) ∧ LaneCompare .cmpF32 1 (fun x y => !(fv x).eqv (fv y)) ∧
    LaneCompare .cmpF32 2 (fun x y => (fv x).lt (fv y)) ∧
    LaneCompare .cmpF32 3 (fun x y => (fv x).lt (fv y) || (fv x).eqv (fv y)) ∧
    (∀ x y : FV, x = .nan ∨ y = .nan → x.eqv y = false ∧ x.lt y = false) ∧
    (∀ m n : Bool, (fv (zero32 m)).eqv (fv (zero32 n)) = true ∧ (fv (zero32 m)).lt (fv (zero32 n)) = false)

/-- The immediate functions of VI. -/
def Sys2Proof.Claims.LaneImmediates : Prop :=
  (∀ h d m, LaneResult (.movi h d m) h d (fun _ _ => imm8 m) fun _ _ => false) ∧
    LaneDI .addi (fun x m => x + imm8 m) ∧ LaneDI .andi (fun x m => x &&& BitVec.ofNat 32 m) ∧
    LaneDI .ori (fun x m => x ||| BitVec.ofNat 32 m) ∧ LaneDI .xori (fun x m => x ^^^ BitVec.ofNat 32 m) ∧
    LaneDI .muli (fun x m => x * imm8 m) ∧ LaneDI .inshi (fun x m => x <<< 8 ||| BitVec.ofNat 32 m) ∧
    (∀ h d m, m < 32 → LaneResult (.shli h d m) h d (fun s l => s.v d l <<< m) fun s l => s.vp d l) ∧
    (∀ h d m, m < 32 → LaneResult (.shri h d m) h d (fun s l => s.v d l >>> m) fun s l => s.vp d l) ∧
    ∀ h d m, m < 32 → LaneResult (.srai h d m) h d (fun s l => (s.v d l).sshiftRight m) fun s l => s.vp d l

/-- FP32 arithmetic: the exact result is rounded once under RNE. -/
def Sys2Proof.Claims.LaneFloatArithmetic : Prop :=
  LaneAB .fadd (fp2 FV.add) ∧ LaneAB .fmul (fp2 FV.mul) ∧
    LaneABD .ffma (fun x y z => (((fv x).mul (fv y)).add (fv z)).toF32) ∧
    LaneDA .fsub (fp2 fun x y => x.add y.neg) ∧ LaneDA .fmin fminw ∧ LaneDA .fmax fmaxw ∧
    LaneA .fabs (fun x => x &&& 0x7FFFFFFF#32) ∧ LaneA .fneg (fun x => x ^^^ 0x80000000#32) ∧
    LaneDA .hadd2 hadd2w ∧ LaneDA .hmul2 hmul2w ∧ LaneDA .hmax2 hmax2w

/-- The roundings, the special functions and FCLASS write f(va) of the value table. -/
def Sys2Proof.Claims.LaneFloatFunctions : Prop :=
  LaneA .rndn (rnd32 .rne) ∧ LaneA .rndz (rnd32 .rz) ∧ LaneA .rndd (rnd32 .rd) ∧ LaneA .rndu (rnd32 .ru) ∧
    LaneA .rcp (fun x => rcp32 (fv x)) ∧ LaneA .rsq (fun x => rsq32 (fv x)) ∧ LaneA .sqrt (fun x => sqrt32 (fv x)) ∧
    LaneA .exp2 (fun x => exp2_32 (fv x)) ∧ LaneA .log2 (fun x => log2_32 (fv x)) ∧
    LaneA .sinpi (fun x => sinpi32 (fv x)) ∧ LaneA .cospi (fun x => cospi32 (fv x)) ∧
    LaneA .tanh (fun x => tanh32 (fv x)) ∧ LaneA .sigm (fun x => sigm32 (fv x)) ∧ LaneA .fclass fclassw

/-- The compact forms act as their equivalents on vd and va. -/
def Obligations.CompactForms : Prop :=
  CompactDA .cIadd (fun h d a => .iadd h d d a) (fun x y => x + y) ∧
    CompactDA .cIsub (fun h d a => .isub h d d a) (fun x y => x - y) ∧
    CompactDA .cAnd (fun h d a => .and h d d a) (fun x y => x &&& y) ∧
    CompactDA .cOr (fun h d a => .or h d d a) (fun x y => x ||| y) ∧
    CompactDA .cXor .xor (fun x y => x ^^^ y) ∧ CompactDA .cShl .shl (fun x y => x <<< y) ∧
    CompactDA .cShr .shr (fun x y => x >>> y) ∧ CompactDA .cSra .sra (fun x y => x.sshiftRight (min y.toNat 31)) ∧
    CompactDA .cImul .mul (fun x y => x * y) ∧
    CompactDA .cFadd (fun h d a => .fadd h d d a) (fp2 FV.add) ∧
    CompactDA .cFmul (fun h d a => .fmul h d d a) (fp2 FV.mul) ∧
    CompactDA .cFsub .fsub (fp2 fun x y => x.add y.neg) ∧ CompactDA .cFmax .fmax fmaxw ∧ CompactDA .cFmin .fmin fminw ∧
    (∀ d a, ¬ (d = 0 ∧ a = 0) →
      CompactResult (.cMov d a) (.mov .plain d a) a d (fun s l => s.v a l) fun s l => s.vp a l) ∧
    (∀ s, laneClean .cNop .plain s → exec .cNop s = .next s.beginIssue.advance)

/-- Votes, ballots and reductions.
A choice of the model and not a rule of the spec stands in it: log entry 107. -/
def Obligations.CrossVotesAndReductions : Prop :=
  CrossVote .voteany (fun s h q => flag (someC s h fun l => s.p q l)) ∧
    CrossVote .voteall (fun s h q => flag (decide (s.cg.mmask &&& ~~~ s.cs.mask = 0#32) && everyC s h fun l => s.p q l)) ∧
    (∀ h d q s, crossClean (.ballot h d q) h s → ∃ t x, exec (.ballot h d q) s = .next t ∧
      CrossScalarStep d x (someC s h fun l => s.pp q l) false s t ∧
      ∀ l, l < 32 → x.getLsbD l = (inMask (s.active h) l && s.p q l)) ∧
    CrossReduce .redadd (fun xs => xs.foldl (fun x y => x + y) 0#32) ∧
    (∀ h d a s, crossClean (.redfadd h d a) h s → ∃ t, exec (.redfadd h d a) s = .next t ∧
      CrossScalarStep d ((leafSum s h a 5 0).getD 0#32) (someC s h fun l => s.vp a l) false s t) ∧
    CrossReduce .redfmax (fun xs => match xs with
      | [] => 0xFF800000#32
      | x :: r => r.foldl fmaxw x) ∧
    CrossReduce .redmaxs (fun xs => xs.foldl (fun x y => if y.sle x then x else y) 0x80000000#32) ∧
    CrossReduce .amax (fun xs => if xs.any fun x => decide (fv x = .nan) then 0x7FC00000#32
      else xs.foldl (fun m x => if x &&& 0x7FFFFFFF#32 ≤ m then m else x &&& 0x7FFFFFFF#32) 0#32)

/-- Scans, selections, SETMM and GETMM.
A choice of the model and not a rule of the spec stands in it: log entry 107. -/
def Obligations.CrossScansAndSelections : Prop :=
  CrossScan .scanadd (fun x y => x + y) ∧ CrossScan .scanfadd (fp2 FV.add) ∧
    (∀ h d a s, crossClean (.matchEq h d a) h s → ∃ t, exec (.matchEq h d a) s = .next t ∧
      ∃ val, CrossLaneStep h d val (fun _ => someC s h fun l => s.vp a l) false s t ∧
        ∀ l k, l < 32 → k < 32 → (val l).getLsbD k = (inMask (s.active h) k && (s.v a k == s.v a l))) ∧
    (∀ h d s, crossClean (.elect h d) h s → ∃ t x, exec (.elect h d) s = .next t ∧ CrossScalarStep d x false false s t ∧
      (s.active h = 0#32 → x = 0xFFFFFFFF#32) ∧
      ∀ l, l < 32 → inMask (s.active h) l = true → (∀ k, k < l → inMask (s.active h) k = false) → x = BitVec.ofNat 32 l) ∧
    (∀ h d a s, crossClean (.rdlane h d a) h s → ∃ t, exec (.rdlane h d a) s = .next t ∧
      (let k := (s.s d).toNat % 32
       let here := inMask (s.cg.mmask &&& s.cs.mask) k
       CrossScalarStep d (if here then s.v a k else 0#32) (here && s.vp a k) (!here) s t)) ∧
    (∀ h d a s, crossClean (.shfl h d a) h s → ∃ t, exec (.shfl h d a) s = .next t ∧
      (let here := fun l => inMask (s.cg.mmask &&& s.cs.mask) ((s.v d l).toNat % 32)
       CrossLaneStep h d (fun l => if here l then s.v a ((s.v d l).toNat % 32) else 0#32)
         (fun l => s.vp d l || (here l && s.vp a ((s.v d l).toNat % 32))) (someC s h fun l => !here l) s t)) ∧
    (∀ h r s, scalarClean (.setmm h r) h s → ∃ t, exec (.setmm h r) s = .next t ∧ MaskStep (s.s r) s t) ∧
    (∀ h d, ScalarResult (.getmm h d) h fun s => [(d, s.cg.mmask)]) ∧
    (∀ s g, State.groupTick s g = { State.groupTick s g with
      mmask := g.mmaskNext.getD g.mmask, mmaskNext := none, ovf := g.ovfNext.getD g.ovf, ovfNext := none }) ∧
    ∀ i s, formsSets i = true → s.hasIssuer = true → s.wordTrap i = none → s.xReady = false → exec i s = .next s.beginIssue.wait

/-- The register-register functions of SC and the compare and unary functions of SC2. -/
def Obligations.ScalarArithmetic : Prop :=
  ScalarA .sMov (fun x => x) ∧ ScalarDA .sAdd (fun x y => x + y) ∧ ScalarDA .sSub (fun x y => x - y) ∧
    ScalarDA .sMul (fun x y => x * y) ∧
    ScalarDA .sMulhu (fun x y => ((x.setWidth 64 * y.setWidth 64) >>> 32).setWidth 32) ∧
    ScalarDA .sAnd (fun x y => x &&& y) ∧ ScalarDA .sOr (fun x y => x ||| y) ∧ ScalarDA .sXor (fun x y => x ^^^ y) ∧
    ScalarDA .sShl (fun x y => x <<< y) ∧ ScalarDA .sShr (fun x y => x >>> y) ∧
    ScalarDA .sSra (fun x y => x.sshiftRight (min y.toNat 31)) ∧
    ScalarDA .sMin (fun x y => if x.sle y then x else y) ∧ ScalarDA .sMax (fun x y => if y.sle x then x else y) ∧
    ScalarDA .sMinu (fun x y => if x ≤ y then x else y) ∧ ScalarDA .sMaxu (fun x y => if y ≤ x then x else y) ∧
    ScalarDA .sSlt (fun x y => flag (x.slt y)) ∧ ScalarDA .sSltu (fun x y => flag (x.ult y)) ∧
    ScalarDA .sSeq (fun x y => flag (x == y)) ∧ ScalarA .sNot (fun x => ~~~ x) ∧ ScalarA .sNeg (fun x => - x) ∧
    ScalarA .sClz (fun x => x.clz) ∧ ScalarA .sPopc (fun x => BitVec.ofNat 32 ((List.range 32).countP x.getLsbD))

/-- The pair functions of SC2, and S.ADDI64: modulo 2^64. -/
def Sys2Proof.Claims.ScalarPairArithmetic : Prop :=
  ScalarPair .sAdd64 (fun s d a => pair64 s d + pair64 s a) ∧ ScalarPair .sSub64 (fun s d a => pair64 s d - pair64 s a) ∧
    ScalarPair .sLea (fun s d a => pair64 s d + (s.s a).setWidth 64) ∧
    ScalarPair .sLeas (fun s d a => pair64 s d + (s.s a).signExtend 64) ∧
    ScalarPair .sAddi64 (fun s d m => pair64 s d + (BitVec.ofNat 7 m).signExtend 64)

/-- The immediate functions of SI, and the literals. -/
def Sys2Proof.Claims.ScalarImmediates : Prop :=
  ScalarDI .sMovi (fun _ m => m) ∧ ScalarDI .sAddi (fun x m => x + m) ∧ ScalarDI .sAndi (fun x m => x &&& m) ∧
    ScalarDI .sOri (fun x m => x ||| m) ∧ ScalarDI .sXori (fun x m => x ^^^ m) ∧ ScalarDI .sMuli (fun x m => x * m) ∧
    ScalarDI .sSlti (fun x m => flag (x.slt m)) ∧
    (∀ h d m, m < 32 → ScalarResult (.sShli h d m) h fun s => [(d, s.s d <<< m)]) ∧
    (∀ h d m, m < 32 → ScalarResult (.sShri h d m) h fun s => [(d, s.s d >>> m)]) ∧
    (∀ h d m, m < 32 → ScalarResult (.sSrai h d m) h fun s => [(d, (s.s d).sshiftRight m)]) ∧
    (∀ h d x, ScalarResult (.sLit h d x) h fun _ => [(d, BitVec.ofNat 32 x)]) ∧
    ∀ h d lo hi, ScalarResult (.sLit64 h d lo hi) h fun _ => [(d, BitVec.ofNat 32 lo), (d + 1, BitVec.ofNat 32 hi)]

/-- Scalar arithmetic of register pairs and with immediates and literals. -/
def Obligations.ScalarPairsAndImmediates : Prop := ScalarPairArithmetic ∧ ScalarImmediates

/-- The instructions that write a predicate or read one, and every comparison of lane values. -/
def Obligations.PredicatesAndCompares : Prop := LanePredicates ∧ LaneIntegerCompares ∧ LaneFloatCompares

/-- The lane-integer instructions of one source register or an immediate. -/
def Obligations.LaneIntegerShortForms : Prop := LaneIntegerTwoOperands ∧ LaneIntegerOneOperand ∧ LaneImmediates

/-- FP32 arithmetic of lanes, its functions and the paired FP16 forms.
A choice of the model and not a rule of the spec stands in it: log entry 102. -/
def Obligations.LaneFloat : Prop := LaneFloatArithmetic ∧ LaneFloatFunctions

/-- R165: FMIN, FMAX and HMAX2. -/
def Obligations.MinMaxOrder : Prop :=
  LaneDA .fmin fminRule ∧ LaneDA .fmax fmaxRule ∧
    LaneDA .hmax2 fun x y => BitVec.ofNat 32 (bfMaxRule (x.toNat % 65536) (y.toNat % 65536)
      + 65536 * bfMaxRule (x.toNat / 65536) (y.toNat / 65536))

/-- R168: FCLASS writes a mask with exactly the bit of va's class. -/
def Obligations.FloatClasses : Prop := LaneA .fclass fun x => BitVec.ofNat 32 (2 ^ classBit x)

/-- Each rounding takes the neighbour that its mode names: m × 2^e against the multiples of 2^q, q above e. -/
def Obligations.RoundingModes : Prop :=
  ∀ (neg : Bool) (m d : Nat) (e : Int), 0 < d →
    let n := fun rm => roundMag rm neg m e false (e + d)
    (2 * m ≤ (2 * n .rne + 1) * 2 ^ d ∧ (2 * n .rne) * 2 ^ d ≤ 2 * m + 2 ^ d ∧
      (2 * m = (2 * n .rne + 1) * 2 ^ d ∨ (2 * n .rne) * 2 ^ d = 2 * m + 2 ^ d → n .rne % 2 = 0)) ∧
    (n .rz * 2 ^ d ≤ m ∧ m < (n .rz + 1) * 2 ^ d) ∧
    (2 * m < (2 * n .rna + 1) * 2 ^ d ∧ (2 * n .rna) * 2 ^ d ≤ 2 * m + 2 ^ d) ∧
    (if neg then m ≤ n .rd * 2 ^ d ∧ n .rd * 2 ^ d < m + 2 ^ d else n .rd = n .rz) ∧
    (if neg then n .ru = n .rz else m ≤ n .ru * 2 ^ d ∧ n .ru * 2 ^ d < m + 2 ^ d) ∧
    ∀ u, n (.rs u) = n .rz +
      (if m % 2 ^ d = 0 then 0
       else if neg then (if u * 2 ^ d < (2 ^ d - m % 2 ^ d) * 2 ^ 32 then 0 else 1)
       else if u * 2 ^ d < m % 2 ^ d * 2 ^ 32 then 1 else 0)

/-- VX-CVT with a rounding field, where no active lane overflows under action 3. -/
def Sys2Proof.Claims.Conversions : Prop :=
  Converts .cvtF32I32 32 (fun t rm x => toFloat fp32 t 7 rm (.fin (decide (x.toInt < 0)) x.toInt.natAbs 0)) ∧
    Converts .cvtF32Ui32 32 (fun t rm x => toFloat fp32 t 7 rm (.fin false x.toNat 0)) ∧
    Converts .cvtI32F32 32 (fun t rm x => toInt t 11 rm (fv x)) ∧ Converts .cvtUi32F32 32 (fun t rm x => toInt t 12 rm (fv x)) ∧
    Converts .cvtBf16F32 16 (fun t rm x => toFloat bf16 t 5 rm (fv x)) ∧
    Converts .cvtFp16F32 16 (fun t rm x => toFloat fp16 t 6 rm (fv x)) ∧
    Converts .cvtE4m3F32 8 (fun t rm x => toFloat e4m3 t 3 rm (fv x)) ∧
    Converts .cvtE5m2F32 8 (fun t rm x => toFloat e5m2 t 4 rm (fv x)) ∧
    Converts .cvtE2m1F32 4 (fun t rm x => toFloat e2m1 t 10 rm (fv x))

/-- The widening conversions, and INT8 with its clamp, which never draws. -/
def Sys2Proof.Claims.WideningConversions : Prop :=
  LaneA .cvtF32Bf16 (fun x => x <<< 16) ∧ LaneA .cvtF32Fp16 (widened fp16 16 nanFp16) ∧
    LaneA .cvtF32E4m3 (widened e4m3 8 nanE4m3) ∧ LaneA .cvtF32E5m2 (widened e5m2 8 nanE5m2) ∧
    LaneA .cvtF32E2m1 (widened e2m1 4 fun _ => 0#32) ∧
    LaneA .cvtF32Int8 (fun x => (FV.fin (decide ((x.setWidth 8).toInt < 0)) (x.setWidth 8).toInt.natAbs 0).toF32) ∧
    ∀ h d a r s, laneClean (.cvtInt8I32 h d a r) h s → ∃ t, exec (.cvtInt8I32 h d a r) s = .next t ∧
      ConvertStep h d 0
        (fun l => s.v d l <<< 8 ||| (BitVec.ofInt 8 (max (-128) (min 127 (s.v a l).toInt))).setWidth 32)
        (fun l => s.vp a l || s.vp d l)
        (fun l => if (s.v a l).toInt < -128 ∨ 127 < (s.v a l).toInt then [cvtSat] else []) s t

/-- A conversion of some lanes that overflows under action 3, MX.RD among them, has no effect but that its split stands at it
with OVF, of the lowest such lane, to be raised; the OVF event raises it once every plane issue has been made, 4 cycles after
the last, and no other split of the group is between plane issues.
A choice of the model and not a rule of the spec stands in it: log entry 37. -/
def Obligations.ConversionOverflow : Prop :=
  Overflows .cvtF32I32 (fun t rm x => toFloat fp32 t 7 rm (.fin (decide (x.toInt < 0)) x.toInt.natAbs 0)) ∧
    Overflows .cvtF32Ui32 (fun t rm x => toFloat fp32 t 7 rm (.fin false x.toNat 0)) ∧
    Overflows .cvtI32F32 (fun t rm x => toInt t 11 rm (fv x)) ∧ Overflows .cvtUi32F32 (fun t rm x => toInt t 12 rm (fv x)) ∧
    Overflows .cvtBf16F32 (fun t rm x => toFloat bf16 t 5 rm (fv x)) ∧
    Overflows .cvtFp16F32 (fun t rm x => toFloat fp16 t 6 rm (fv x)) ∧
    Overflows .cvtE4m3F32 (fun t rm x => toFloat e4m3 t 3 rm (fv x)) ∧
    Overflows .cvtE5m2F32 (fun t rm x => toFloat e5m2 t 4 rm (fv x)) ∧
    Overflows .cvtE2m1F32 (fun t rm x => toFloat e2m1 t 10 rm (fv x)) ∧
    (∀ h m sl k ix v s l, laneClean (.mxRd h m sl k ix v) h s → holds s k → (s.s ix).toNat + m ≤ 63 →
      lowestLane s h (fun l => (elementOut s k (sliceAt sl ((s.s ix).toNat + m) l)).ovf ||
        (elementOut s k (sliceAt sl ((s.s ix).toNat + m) (l + 32))).ovf) l →
      ∃ t, exec (.mxRd h m sl k ix v) s = .next t ∧ OverflowStep l s t) ∧
    (∀ gid k tr s, k < 4 → (s.g gid).live = true → (s.g gid).stop = .running →
      (let x := (s.g gid).splits.get k
       x.valid = true ∧ x.ovf = some tr ∧ x.more = [] ∧ x.heldTo ≤ s.cycle) →
      (∀ j, j < 4 → j ≠ k → ((s.g gid).splits.get j).more = []) →
      (∀ j, j < k → ((s.g gid).splits.get j).ovf = none) →
      exec (.ovf gid) s = .next ((s.setG gid { s.g gid with
        splits := (s.g gid).splits.upd k fun x => { x with ovf := none } }).trap gid tr)) ∧
    ∀ gid s, (∀ k, k < 4 → ((s.g gid).splits.get k).ovf = none) → exec (.ovf gid) s = .next s

/-- R109, R121, R122 and R147: the state in which a block's groups are bound, by the block's coordinates. -/
def Obligations.EntryState : Prop :=
  ∀ p h x y z bid index core slot persist trig, x < p.gridx → y < p.gridy →
    let blk := (z * p.gridy + y) * p.gridx + x
    let g := entryGroup p h blk bid index core core slot persist trig
    (g.sr.get 0 = BitVec.ofNat 32 p.args ∧ g.sr.get 1 = BitVec.ofNat 32 (p.args / 2 ^ 32) ∧ g.sr.get 2 = BitVec.ofNat 32 x ∧
      g.sr.get 3 = BitVec.ofNat 32 y ∧ g.sr.get 4 = BitVec.ofNat 32 z ∧ g.sr.get 5 = BitVec.ofNat 32 index ∧
      g.sr.get 6 = BitVec.ofNat 32 core ∧ g.sr.get 7 = BitVec.ofNat 32 h ∧ g.sr.get 8 = BitVec.ofNat 32 persist ∧
      ∀ r, 9 ≤ r → g.sr.get r = 0#32) ∧
    (∀ l, l < 32 → g.vr.get l = BitVec.ofNat 32 (index * 32 + l)) ∧ (∀ r l, 1 ≤ r → l < 32 → g.vr.get (32 * r + l) = 0#32) ∧
    (∀ q, g.pr.get q = 0#32) ∧ (∀ l, g.plane.get l = 0 ∧ g.holdoff.get l = 0) ∧ g.held = 0#32 ∧ g.exited = 0#32 ∧ g.dead = 0#32 ∧
    (g.splits.get 0).valid = true ∧ (g.splits.get 0).offset = p.entry ∧ (g.splits.get 0).mask = 0xFFFFFFFF#32 ∧
    (∀ k, k ≠ 0 → (g.splits.get k).valid = false) ∧ g.mmask = 0xFFFFFFFF#32 ∧ g.xstat = 0#32 ∧ g.clockHi = 0#32 ∧
    g.ovf = 0x5400#32 ∧
    ∀ l, l < 32 →
      let glane := BitVec.ofNat 32 (blk * p.groups * 32 + index * 32 + l)
      let seed := (glane + 1#32) * 0x9E3779B9#32
      g.lfsr.get l = (if seed = 0#32 then 1#32 else seed) ∧ (seed = 0#32 ↔ glane = 0xFFFFFFFF#32)

/-- The sixteen kinds of CVT. -/
def Obligations.AllConversions : Prop := Conversions ∧ WideningConversions

/-- LD: each active lane loads its bytes, extended by the size, and no byte of memory changes; a translation fault of a lane
is only counted. A read never misses a write that reaches the lane.
A choice of the model and not a rule of the spec stands in it: log entries 40 and 114. -/
def Obligations.GlobalLoads : Prop :=
  (∀ h o c z a v, AddressChecks (.ld h o c z a v) h a (sizeBytes z)
      (fun x => decide (x / 32 = (x + sizeBytes z - 1) / 32)) fun _ => True) ∧
  ∀ h o c z a v s, laneClean (.ld h o c z a v) h s → cleanLanes h [2 * a, 2 * a + 1] s → globalCheck h z a s = none →
    Room 0 s →
    let r := (s.beginIssue.advance.resolve .load (sizeBytes z) (s.gaddrs h a)).1
    ∃ t, exec (.ld h o c z a v) s = .next t ∧
      (∀ ps, r = .ok ps → ∃ bytes : Nat → List Byte,
        (∀ l p, (l, p) ∈ ps → sees s (laneBit l) p (sizeBytes z) (bytes l)) ∧ LoadStep h 0 z v ps bytes s t) ∧
      ∀ tr, r = .error tr → FaultCounted 0 tr s t

/-- ST: of a group that stores at once only the bytes of the lanes' places change.
A choice of the model and not a rule of the spec stands in it: log entries 40 and 114. -/
def Obligations.GlobalStores : Prop :=
  (∀ h o c z a v, AddressChecks (.st h o c z a v) h a (sizeBytes z)
      (fun x => decide (x / 32 = (x + sizeBytes z - 1) / 32)) fun _ => True) ∧
  ∀ h o c z a v s, laneClean (.st h o c z a v) h s → cleanLanes h [2 * a, 2 * a + 1] s → globalCheck h z a s = none →
    Room 1 s →
    let r := (s.beginIssue.advance.resolve .store (sizeBytes z) (s.gaddrs h a)).1
    ∃ t, exec (.st h o c z a v) s = .next t ∧ (Direct s →
      (∀ ps, r = .ok ps → StoreStep 1 (sizeBytes z) ps laneBit (fun l k => laneByte s v l k) s t) ∧
      ∀ tr, r = .error tr → FaultCounted 1 tr s t)

/-- LDS, LDS.BCAST and STS: scratchpad bytes, counted on path 2; a broadcast reads once, at the lowest active lane's address.
A choice of the model and not a rule of the spec stands in it: log entry 114. -/
def Obligations.ScratchpadAccess : Prop :=
  (∀ h o z a v s, laneClean (.lds h o z a v) h s → cleanLanes h [a] s → s.spadTrap (sizeBytes z) (s.saddrs h a) = none →
      Room 2 s → ∃ t, exec (.lds h o z a v) s = .next t ∧
        (let ps := placesOf (s.splaces (sizeBytes z) (s.saddrs h a))
         ∃ bytes : Nat → List Byte, (∀ l p, (l, p) ∈ ps → sees s (laneBit l) p (sizeBytes z) (bytes l)) ∧
          LoadStep h 2 z v ps bytes s t)) ∧
    (∀ h o z a v s l p, laneClean (.ldsBcast h o z a v) h s → l < 32 → inMask (s.laneActive h) l = true →
      (∀ k, k < l → inMask (s.laneActive h) k = false) → s.vp a l = false →
      s.spadTrap (sizeBytes z) [(l, (s.v a l).toNat)] = none → s.scratchPlace s.cg (s.v a l).toNat (sizeBytes z) = some p →
      Room 2 s → ∃ t bs, exec (.ldsBcast h o z a v) s = .next t ∧ sees s (s.laneActive h) p (sizeBytes z) bs ∧
        LoadStep h 2 z v ((lanesOf (s.laneActive h)).map fun k => (k, p)) (fun _ => bs) s t) ∧
    (∀ h o z a v, ScratchChecks (.lds h o z a v) h a (sizeBytes z) fun _ _ => true) ∧
    (∀ h o z a v, ScratchChecks (.ldsBcast h o z a v) h a (sizeBytes z) fun s k =>
      (List.range k).all fun j => !inMask (s.laneActive h) j) ∧
    (∀ h o z a v, ScratchChecks (.sts h o z a v) h a (sizeBytes z) fun _ _ => true) ∧
    ∀ h o z a v s, laneClean (.sts h o z a v) h s → cleanLanes h [a] s → s.spadTrap (sizeBytes z) (s.saddrs h a) = none →
      Room 2 s → ∃ t, exec (.sts h o z a v) s = .next t ∧ (Direct s →
        StoreStep 2 (sizeBytes z) (placesOf (s.splaces (sizeBytes z) (s.saddrs h a))) laneBit (fun l k => laneByte s v l k) s t)

/-- The operand checks of an atomic of the lanes, in their order (R227, R228). -/
def Sys2Proof.Claims.AtomicCheck (mk : Hdr → Nat → Nat → Nat → Nat → Instr) (op : AtomOp) (size : Nat) : Prop :=
  (∀ h o c a d, AddressChecks (mk h o c a d) h a size (fun x => decide (x % size = 0)) fun s =>
      ∀ l, l < 32 → inMask (s.laneActive h) l = true → s.scopeNarrow c (laneAddr s a l) op.size = false) ∧
    ∀ h o c a d s l, laneClean (mk h o c a d) h s → cleanLanes h [2 * a, 2 * a + 1] s → s.cur.checked = false → l < 32 →
      inMask (s.laneActive h) l = true → s.scopeNarrow c (laneAddr s a l) op.size = true →
      exec (mk h o c a d) s = .next (s.beginIssue.trapCur s.beginIssue.illegal)

/-- The atomics of the lanes, each by one lane: the old value, the new one, and what stays. -/
def Sys2Proof.Claims.SingleAtomics : Prop :=
  LaneAtomic .atomAdd .add 4 (fun o x => some ((o + (x 0).toNat) % 2 ^ 32)) ∧
    LaneAtomic .atomAnd .and 4 (fun o x => some (o &&& (x 0).toNat)) ∧
    LaneAtomic .atomOr .or 4 (fun o x => some (o ||| (x 0).toNat)) ∧
    LaneAtomic .atomXor .xor 4 (fun o x => some (o ^^^ (x 0).toNat)) ∧
    LaneAtomic .atomSmin .smin 4 (fun o x => some (if (BitVec.ofNat 32 o).sle (x 0) then o else (x 0).toNat)) ∧
    LaneAtomic .atomSmax .smax 4 (fun o x => some (if (x 0).sle (BitVec.ofNat 32 o) then o else (x 0).toNat)) ∧
    LaneAtomic .atomUmin .umin 4 (fun o x => some (min o (x 0).toNat)) ∧
    LaneAtomic .atomUmax .umax 4 (fun o x => some (max o (x 0).toNat)) ∧
    LaneAtomic .atomExch .exch 4 (fun _ x => some (x 0).toNat) ∧
    LaneAtomic .atomCas .cas 4 (fun o x => if o = (x 0).toNat then some (x 1).toNat else none) ∧
    LaneAtomic .atomFadd .fadd 4 (fun o x => some (fp2 FV.add (BitVec.ofNat 32 o) (x 0)).toNat) ∧
    LaneAtomic .atomFmin .fmin 4 (fun o x => some (fminRule (BitVec.ofNat 32 o) (x 0)).toNat) ∧
    LaneAtomic .atomFmax .fmax 4 (fun o x => some (fmaxRule (BitVec.ofNat 32 o) (x 0)).toNat) ∧
    LaneAtomic .atomAdd64 .add64 8 (fun o x => some ((o + (x 1 ++ x 0).toNat) % 2 ^ 64)) ∧
    LaneAtomic .atomExch64 .exch64 8 (fun _ x => some (x 1 ++ x 0).toNat) ∧
    LaneAtomic .atomCas64 .cas64 8 (fun o x => if o = (x 1 ++ x 0).toNat then some (x 3 ++ x 2).toNat else none)

/-- The atomics of several lanes: in ascending order of the lanes (R225). -/
def Sys2Proof.Claims.AtomicsInTurn : Prop :=
  LanesInTurn .atomAdd .add 4 (fun o x => some ((o + (x 0).toNat) % 2 ^ 32)) ∧
    LanesInTurn .atomAnd .and 4 (fun o x => some (o &&& (x 0).toNat)) ∧
    LanesInTurn .atomOr .or 4 (fun o x => some (o ||| (x 0).toNat)) ∧
    LanesInTurn .atomXor .xor 4 (fun o x => some (o ^^^ (x 0).toNat)) ∧
    LanesInTurn .atomSmin .smin 4 (fun o x => some (if (BitVec.ofNat 32 o).sle (x 0) then o else (x 0).toNat)) ∧
    LanesInTurn .atomSmax .smax 4 (fun o x => some (if (x 0).sle (BitVec.ofNat 32 o) then o else (x 0).toNat)) ∧
    LanesInTurn .atomUmin .umin 4 (fun o x => some (min o (x 0).toNat)) ∧
    LanesInTurn .atomUmax .umax 4 (fun o x => some (max o (x 0).toNat)) ∧
    LanesInTurn .atomExch .exch 4 (fun _ x => some (x 0).toNat) ∧
    LanesInTurn .atomCas .cas 4 (fun o x => if o = (x 0).toNat then some (x 1).toNat else none) ∧
    LanesInTurn .atomFadd .fadd 4 (fun o x => some (fp2 FV.add (BitVec.ofNat 32 o) (x 0)).toNat) ∧
    LanesInTurn .atomFmin .fmin 4 (fun o x => some (fminRule (BitVec.ofNat 32 o) (x 0)).toNat) ∧
    LanesInTurn .atomFmax .fmax 4 (fun o x => some (fmaxRule (BitVec.ofNat 32 o) (x 0)).toNat) ∧
    LanesInTurn .atomAdd64 .add64 8 (fun o x => some ((o + (x 1 ++ x 0).toNat) % 2 ^ 64)) ∧
    LanesInTurn .atomExch64 .exch64 8 (fun _ x => some (x 1 ++ x 0).toNat) ∧
    LanesInTurn .atomCas64 .cas64 8 (fun o x => if o = (x 1 ++ x 0).toNat then some (x 3 ++ x 2).toNat else none)

/-- The checks of the atomics (R227, R228): a scope too narrow for a host or peer page is ILLEGAL, and comes first. -/
def Sys2Proof.Claims.AtomicChecks : Prop :=
  AtomicCheck .atomAdd .add 4 ∧
    AtomicCheck .atomAnd .and 4 ∧
    AtomicCheck .atomOr .or 4 ∧
    AtomicCheck .atomXor .xor 4 ∧
    AtomicCheck .atomSmin .smin 4 ∧
    AtomicCheck .atomSmax .smax 4 ∧
    AtomicCheck .atomUmin .umin 4 ∧
    AtomicCheck .atomUmax .umax 4 ∧
    AtomicCheck .atomExch .exch 4 ∧
    AtomicCheck .atomCas .cas 4 ∧
    AtomicCheck .atomFadd .fadd 4 ∧
    AtomicCheck .atomFmin .fmin 4 ∧
    AtomicCheck .atomFmax .fmax 4 ∧
    AtomicCheck .atomAdd64 .add64 8 ∧
    AtomicCheck .atomExch64 .exch64 8 ∧
    AtomicCheck .atomCas64 .cas64 8

/-- The atomics of the lanes: by one lane, by several in turn, their checks, and the exact-reducing lines.
A choice of the model and not a rule of the spec stands in it: log entry 114. -/
def Obligations.LaneAtomics : Prop := SingleAtomics ∧ AtomicsInTurn ∧ AtomicChecks ∧ ExactReducing

/-- S.LD.W, S.LD.D, S.LD.Q, S.LD.O, S.LD.ACQ.W, S.ST.W, S.ST.D, S.ST.Q, S.ST.REL.W, S.ATOM.ADD and S.ATOM.CAS.
A choice of the model and not a rule of the spec stands in it: log entries 40 and 114. -/
def Obligations.ScalarMemory : Prop :=
  ScalarLoad .sLdW 4 ∧ ScalarLoad .sLdD 8 ∧ ScalarLoad .sLdQ 16 ∧ ScalarLoad .sLdO 32 ∧ ScalarLoad .sLdAcqW 4 ∧
    ScalarStore .sStW 4 ∧ ScalarStore .sStD 8 ∧ ScalarStore .sStQ 16 ∧ ScalarStore .sStRelW 4 ∧
    ScalarAtomic .sAtomAdd (fun o x => some ((o + (x 0).toNat) % 2 ^ 32)) ∧
    ScalarAtomic .sAtomCas (fun o x => if o = (x 0).toNat then some (x 1).toNat else none)

/-- PREF changes no register and no byte of memory, and ACCESS_COMPLETE takes the oldest access off its path; an answer comes to
the scratchpad then (log entry 134), and a load whose lanes have neither synchronised nor touched its bytes since may come to
return a later write (log entry 133).
A choice of the model and not a rule of the spec stands in it: log entries 133 and 134. -/
def Obligations.PrefetchAndCompletion : Prop :=
  (∀ h x s, ctlClean (.pref h x) h State.liveNamed s → ∃ t, exec (.pref h x) s = .next t ∧ MemoryKept s t ∧
      t.blocks = s.blocks ∧ OthersKept s t ∧ Advanced s t ∧ { t.cg with splits := s.cg.splits } = s.cg) ∧
    (∀ gid s a rest b key bs, dropOldest 4 (s.g gid).inflight = some (a, rest) → s.mayComplete gid a = true → a.fault = none →
      (∀ tr, (s.g gid).stop ≠ .faulted tr) → a.binds = [] → a.answer = some (.scratch b key, bs) → bs ≠ [] →
      ∃ t, exec (.accessComplete gid 4) s = .next t ∧ MemoryKept s t ∧ (t.g gid).inflight = rest ∧
        (∀ k, k ≠ gid → t.g k = s.g k) ∧ (∀ k, k < bs.length → (t.b b).scratch.get (key + k) = bs.getD k 0#8) ∧
        ∀ q i, (q ≠ b ∨ i < key ∨ key + bs.length ≤ i) → (t.b q).scratch.get i = (s.b q).scratch.get i) ∧
    (∀ gid path s a rest b, dropOldest path (s.g gid).inflight = some (a, rest) → s.mayComplete gid a = true → a.fault = none →
      (∀ tr, (s.g gid).stop ≠ .faulted tr) → a.answer = none → a.binds = [b] → s.mayLand gid b = true → b.file = .v →
      b.n = sizeBytes b.size →
      ∃ t j, exec (.accessComplete gid path) s = .next t ∧ MemoryKept s t ∧ (t.g gid).inflight = rest ∧
        (∀ k, k ≠ gid → t.g k = s.g k) ∧ j ≤ s.missable (s.lanesAt gid b.lanes) [] b.place b.n ∧
        (let bs := s.forwarded gid b.place (s.without b.place b.n j).1
         let takes := fun l => inMask b.lanes l && !inMask (s.g gid).dead l
         (∀ l k, l < 32 → k < sizeRegs b.size → takes l = true →
           (t.g gid).vr.get (32 * (b.reg + k) + l) = loadedWord b.size bs k) ∧
         ∀ r l, l < 32 → (r < b.reg ∨ b.reg + sizeRegs b.size ≤ r ∨ takes l = false) →
           (t.g gid).vr.get (32 * r + l) = (s.g gid).vr.get (32 * r + l))) ∧
    ∀ gid path s a rest, dropOldest path (s.g gid).inflight = some (a, rest) → s.mayComplete gid a = true → a.fault = none →
      (∀ tr, (s.g gid).stop ≠ .faulted tr) → a.answer = none → (∀ b, b ∈ a.binds → s.mayLand gid b = false) →
      ∃ t, exec (.accessComplete gid path) s = .next t ∧ MemoryKept s t ∧ (t.g gid).inflight = rest ∧
        (∀ k, k ≠ gid → t.g k = s.g k) ∧
        { t.g gid with inflight := (s.g gid).inflight, pend := (s.g gid).pend } = s.g gid

/-- S.GETSR by the number of the special register, S.SETSR and S.PSET. -/
def Sys2Proof.Claims.SpecialRegisters : Prop :=
  (∀ h d n s, scalarClean (.sGetsr h d n) h s → n ≠ 6 → ∃ t x, exec (.sGetsr h d n) s = .next t ∧ ScalarStep [(d, x)] s t ∧
      (let p := s.paramsOf s.cg
       (n = 0 → x = BitVec.ofNat 32 s.cg.index) ∧
       (0 < p.gridx → 0 < p.gridy → ∃ bx by_ bz, s.cb.blk = (bz * p.gridy + by_) * p.gridx + bx ∧ bx < p.gridx ∧ by_ < p.gridy ∧
         (n = 1 → x = BitVec.ofNat 32 bx) ∧ (n = 2 → x = BitVec.ofNat 32 by_) ∧ (n = 3 → x = BitVec.ofNat 32 bz)) ∧
       (n = 4 → x = BitVec.ofNat 32 s.cg.core) ∧
       (n = 5 → x = BitVec.ofNat 32 ((List.range s.ncores).countP s.inService)) ∧
       (n = 7 → x = s.cg.clockHi) ∧ (n = 8 → x = s.cs.mask) ∧ (n = 9 → x = s.cg.dead) ∧
       (n = 10 → ∀ k, k < 32 → x.getLsbD k = (decide (k < 4) &&
         (List.range 32).any fun l => inMask s.cs.mask l && decide (s.cg.plane.get l = k))) ∧
       (n = 11 → x = s.cg.mmask) ∧ (n = 12 → x = s.cg.recno) ∧ (n = 13 → x = ~~~ s.cs.sig) ∧
       (n = 14 → ∀ k, k < 5 → s.cg.count 0 < 64 → s.cg.count 1 < 64 → s.cg.count 2 < 64 → s.cg.count 3 < 64 →
         s.cg.count 4 < 64 → x.toNat / 64 ^ k % 64 = s.cg.count k) ∧
       (n = 15 → x = BitVec.ofNat 32 s.cb.grid) ∧ (n = 16 → x = BitVec.ofNat 32 (s.persistIdx s.cg)) ∧
       (n = 17 → x = s.cg.xstat) ∧ (17 < n → x = 0#32))) ∧
    (∀ h d n s, s.hasIssuer = true → n ≠ 11 → n ≠ 17 →
      exec (.sSetsr h d n) s = .next (s.beginIssue.trapCur (s.mkTrap 0x01 0 (BitVec.ofNat 32 s.cur.word)))) ∧
    (∀ h d s, scalarClean (.sGetsr h d 6) h s → ∃ t, exec (.sGetsr h d 6) s = .next t ∧ OutsideKept s t ∧ Advanced s t ∧
      t.cg.sr.get d = BitVec.ofNat 32 s.cycle ∧ t.cg.spo.get d = false ∧ t.cg.clockHi = BitVec.ofNat 32 (s.cycle / 2 ^ 32) ∧
      (∀ r, r ≠ d → t.cg.sr.get r = s.cg.sr.get r ∧ t.cg.spo.get r = s.cg.spo.get r) ∧
      { t.cg with sr := s.cg.sr, spo := s.cg.spo, clockHi := s.cg.clockHi, splits := s.cg.splits } = s.cg) ∧
    (∀ h d s, scalarClean (.sSetsr h d 11) h s → ∃ t, exec (.sSetsr h d 11) s = .next t ∧ MaskStep (s.s d) s t) ∧
    (∀ h d s, scalarClean (.sSetsr h d 17) h s → ∃ t, exec (.sSetsr h d 17) s = .next t ∧ OutsideKept s t ∧ Advanced s t ∧
      t.cg.xstat = s.s d &&& 0x1F#32 ∧ { t.cg with xstat := s.cg.xstat, splits := s.cg.splits } = s.cg) ∧
    ∀ h d q s, scalarClean (.sPset h d q) h s → ∃ t, exec (.sPset h d q) s = .next t ∧
      CtlPredStep s.cs.mask q (fun _ => s.s d != 0#32) s t

/-- S.RDSYS and S.WRSYS: what is stored reads back, and a write leaves the other registers alone. -/
def Sys2Proof.Claims.SystemRegisters : Prop :=
  (∀ h d n s, scalarClean (.sRdsys h d n) h s → n ≠ 50 → ∃ t, exec (.sRdsys h d n) s = .next t ∧
      ScalarStep [(d, s.sysReg s.cg.core n)] s t) ∧
    (∀ h d s, scalarClean (.sRdsys h d 50) h s → ∃ t, exec (.sRdsys h d 50) s = .next t ∧
      t.cg.sr.get d = BitVec.ofNat 32 s.tick ∧ t.tickHi = BitVec.ofNat 32 (s.tick / 2 ^ 32) ∧
      ScalarStep [(d, BitVec.ofNat 32 s.tick)] s { t with tickHi := s.tickHi }) ∧
    (∀ h d n w s, scalarClean (.sWrsys h d n) h s → storedBits n = some w → ∃ t, exec (.sWrsys h d n) s = .next t ∧
      MachineWriteStep s t ∧ t.sysReg s.cg.core n = s.s d &&& w ∧ ∀ m, m ≠ n → t.sysReg s.cg.core m = s.sysReg s.cg.core m) ∧
    (∀ h d n s, scalarClean (.sWrsys h d n) h s → sysAssigned n = true → s.wrsysReady s.cg.core n (s.s d) = true →
      exec (.sWrsys h d n) s = .next (s.beginIssue.advance.sysWrite s.cg.core n (s.s d))) ∧
    (∀ h d n s, s.hasIssuer = true → s.cg.priv = true → sysAssigned n = false →
      exec (.sWrsys h d n) s = .next (s.beginIssue.trapCur (s.mkTrap 0x01 0 (BitVec.ofNat 32 s.cur.word)))) ∧
    ∀ h d n s, s.hasIssuer = true → s.wordIllegal (.sWrsys h d n) = false → s.cg.priv = false →
      exec (.sWrsys h d n) s = .next (s.beginIssue.trapCur s.beginIssue.privTrap)

/-- BRA, CALL, BRX, CALLX, RET and MBR (R85, R86, R95 to R100). That a target at or above 2^20 is kept whole is the model's
choice (log entry 108).
A choice of the model and not a rule of the spec stands in it: log entry 108. -/
def Obligations.ControlTransfers : Prop :=
  RelativeTransfer .bra TransferOnly ∧ RelativeTransfer .call TransferLink ∧
    (∀ a, RegisterTransfer (fun h => .brx h a) a TransferOnly) ∧
    (∀ a, RegisterTransfer (fun h => .callx h a) a TransferLink) ∧
    RegisterTransfer .ret 63 TransferOnly ∧
    ∀ h arms s, ctlClean (.mbr h arms) h State.liveS s → hasLanes s →
      (∀ l, l < 32 → takesIt s h l = true → armsClean s l arms) →
      ((∀ l, l < 32 → inMask s.cs.mask l = true → 0 ≤ armGoal s h arms l) →
        ∃ t, exec (.mbr h arms) s = .next t ∧ TransferOnly h (fun l => (armGoal s h arms l).toNat) s t) ∧
      ∀ l, l < 32 → inMask s.cs.mask l = true → armGoal s h arms l < 0 → raisesIllegal (.mbr h arms) s

/-- JOIN, EXIT, YIELD and NOP. -/
def Obligations.JoinExitYieldNop : Prop :=
  (∀ h s, scalarClean (.join h) h s →
      (∀ k, k < 4 → k ≠ s.cur.slot → (s.cg.splits.get k).valid = true → s.cs.offset ≤ (s.cg.splits.get k).offset) →
      (∀ l, l < 32 → inMask s.cg.held l = true → s.cs.offset ≤ s.cg.holdoff.get l) →
      ∃ t, exec (.join h) s = .next t ∧ OutsideKept s t ∧
        t.cs = { s.cs with offset := s.cur.next, waitOn := none, joinw := false, sig := 0xFFFFFFFF#32 } ∧
        (∀ k, k ≠ s.cur.slot → t.cg.splits.get k = s.cg.splits.get k) ∧ { t.cg with splits := s.cg.splits } = s.cg) ∧
    (∀ h s k, scalarClean (.join h) h s → k < 4 → k ≠ s.cur.slot → (s.cg.splits.get k).valid = true →
      (s.cg.splits.get k).offset < s.cs.offset →
      ∃ t, exec (.join h) s = .next t ∧ t.cur.issued = false ∧ t.cs = { s.cs with joinw := true } ∧ OutsideKept s t ∧
        { t.cg with splits := s.cg.splits } = s.cg) ∧
    (∀ h s l, scalarClean (.join h) h s → l < 32 → inMask s.cg.held l = true → s.cg.holdoff.get l < s.cs.offset →
      ∃ t, exec (.join h) s = .next t ∧ t.cur.issued = false ∧ t.cs = { s.cs with joinw := true } ∧ OutsideKept s t ∧
        { t.cg with splits := s.cg.splits } = s.cg) ∧
    (∀ h s, guardFails (.join h) h s → ∃ t, exec (.join h) s = .next t ∧ t.cs.joinw = false ∧ SkippedReset s t) ∧
    (∀ h s, guardFails (.yield h) h s → exec (.yield h) s = .next s.beginIssue.advance) ∧
    (∀ h s, guardFails (.nop h) h s → exec (.nop h) s = .next s.beginIssue.advance) ∧
    (∀ h s, ctlClean (.exit h) h State.liveS s → Plain s →
      (let out := s.beginIssue.ctlLanes h
       (out = 0#32 → exec (.exit h) s = .next s.beginIssue.advance) ∧
       (out ≠ 0#32 → s.cg.alive &&& ~~~ out ≠ 0#32 → ∃ t, exec (.exit h) s = .next t ∧ MemoryKept s t ∧ OthersKept s t ∧
         t.cg.exited = s.cg.exited ||| out ∧ t.cg.held = s.cg.held &&& ~~~ out ∧
         (∀ k, k < 4 → t.cg.splits.get k = splitWithout (s.beginIssue.advance.cg.splits.get k) out) ∧
         { t.cg with exited := s.cg.exited, held := s.cg.held, splits := s.cg.splits, compared := s.cg.compared } = s.cg) ∧
       (out ≠ 0#32 → s.cg.alive &&& ~~~ out = 0#32 → ¬ (1 < (s.paramsOf s.cg).clust ∧ s.cg.cbarPast = false) →
         ∃ t, exec (.exit h) s = .next t ∧ MemoryKept s t ∧ OthersKept s t ∧ t.cg.stop = .ended ∧
           t.cg.exited = s.cg.exited ||| out ∧ t.cg.splits = [] ∧ t.cg.triggered = true ∧
           t.cg.vr = s.cg.vr ∧ t.cg.sr = s.cg.sr ∧ t.cg.pr = s.cg.pr ∧
           (t.gr s.cgrid).triggers = (s.gr s.cgrid).triggers + if s.cg.triggered then 0 else 1) ∧
       (out ≠ 0#32 → s.cg.alive &&& ~~~ out = 0#32 → 1 < (s.paramsOf s.cg).clust → s.cg.cbarPast = false →
         exec (.exit h) s = .next ((s.beginIssue.pairFlush s.cur.gid).trapCur (s.beginIssue.mkTrap 0x17 0 0#32))))) ∧
    (∀ h s, scalarClean (.yield h) h s → ∃ t, exec (.yield h) s = .next t ∧ OutsideKept s t ∧
      t.cs = { s.cs with offset := s.cur.next, waitOn := none, age := 0, yielded := true } ∧
      (∀ k, k ≠ s.cur.slot → t.cg.splits.get k = s.cg.splits.get k) ∧ { t.cg with splits := s.cg.splits } = s.cg) ∧
    ∀ h s, scalarClean (.nop h) h s → exec (.nop h) s = .next s.beginIssue.advance

/-- PSET, PSETI, PGET, PMASK, PCHK, SRSEED, SRGET and OVTLD. -/
def Obligations.PlanesAndLaneState : Prop :=
  (∀ h a s, ctlClean (.pset h a) h State.liveS s →
      (∀ l, l < 32 → takesIt s h l = true → s.vp a l = false ∧ (s.v a l).toNat % 4 < (s.codeOf s.cg).planes) →
      ∃ t, exec (.pset h a) s = .next t ∧ OutsideKept s t ∧ Advanced s t ∧
        (∀ l, l < 32 → t.cg.plane.get l = if takesIt s h l then (s.v a l).toNat % 4 else s.cg.plane.get l) ∧
        { t.cg with plane := s.cg.plane, splits := s.cg.splits } = s.cg) ∧
    (∀ h x s, ctlClean (.pseti h x) h State.liveS s → x < (s.codeOf s.cg).planes →
      ∃ t, exec (.pseti h x) s = .next t ∧ OutsideKept s t ∧ Advanced s t ∧
        (∀ l, l < 32 → t.cg.plane.get l = if takesIt s h l then x else s.cg.plane.get l) ∧
        { t.cg with plane := s.cg.plane, splits := s.cg.splits } = s.cg) ∧
    (∀ h x s l, ctlClean (.pseti h x) h State.liveS s → l < 32 → takesIt s h l = true → (s.codeOf s.cg).planes ≤ x →
      exec (.pseti h x) s = .next (s.beginIssue.trapCur (s.beginIssue.mkTrap 0x04 2 (BitVec.ofNat 32 x)))) ∧
    (∀ h d s, ctlClean (.pget h d) h State.liveS s → ∃ t, exec (.pget h d) s = .next t ∧
      CtlLaneStep (s.ctlLanes h) d (fun l => BitVec.ofNat 32 (s.cg.plane.get l)) (fun _ => false) s t) ∧
    (∀ h y x s, ctlClean (.pmask h y x) h State.liveS s → ∃ t, exec (.pmask h y x) s = .next t ∧
      CtlPredStep (s.ctlLanes h) y (fun l => s.cg.plane.get l == x) s t) ∧
    (∀ h y a s, ctlClean (.pchk h y a) h State.liveS s → ∃ t, exec (.pchk h y a) s = .next t ∧
      CtlPredStep (s.ctlLanes h) y (fun l => s.vp a l) s t) ∧
    (∀ h a s, ctlClean (.srseed h a) h State.liveS s → ∃ t, exec (.srseed h a) s = .next t ∧ OutsideKept s t ∧ Advanced s t ∧
      (∀ l, l < 32 → t.cg.lfsr.get l =
        if takesIt s h l then (if s.v a l = 0#32 then 1#32 else s.v a l) else s.cg.lfsr.get l) ∧
      { t.cg with lfsr := s.cg.lfsr, splits := s.cg.splits } = s.cg) ∧
    (∀ h d s, ctlClean (.srget h d) h State.liveS s → ∃ t, exec (.srget h d) s = .next t ∧
      CtlLaneStep (s.ctlLanes h) d (fun l => s.lfsr l) (fun _ => false) s t) ∧
    (∀ h x s, scalarClean (.ovtld h x) h s → (s.s x).toNat < 2 ^ 26 → ∃ t, exec (.ovtld h x) s = .next t ∧
      OutsideKept s t ∧ Advanced s t ∧ t.cg.ovfNext = some (s.s x) ∧
      { t.cg with ovfNext := s.cg.ovfNext, splits := s.cg.splits } = s.cg) ∧
    (∀ s g, (State.groupTick s g).ovf = g.ovfNext.getD g.ovf ∧ (State.groupTick s g).ovfNext = none) ∧
    ∀ h x s, scalarClean (.ovtld h x) h s → 2 ^ 26 ≤ (s.s x).toNat →
      exec (.ovtld h x) s = .next (s.beginIssue.trapCur s.beginIssue.illegal)

/-- SPLIT_MERGE moves no lane and leaves no two splits of one offset apart, but for one that is between the plane issues of an
instruction; HELD_LANE_RETURN lets held lanes join the split at their branch, or form one. -/
def Obligations.MergingAndHeldLanes : Prop :=
  (∀ gid s, (s.g gid).stop = .running → ∃ t, exec (.splitMerge gid) s = .next t ∧
      (∀ k, k ≠ gid → t.g k = s.g k) ∧ { t with groups := s.groups } = s ∧
      { t.g gid with splits := (s.g gid).splits } = s.g gid ∧
      (∀ l o, standsAt (t.g gid) l o ↔ standsAt (s.g gid) l o) ∧
      ∀ i j, i < j → j < 4 → ((t.g gid).splits.get i).valid = true → ((t.g gid).splits.get j).valid = true →
        ((t.g gid).splits.get i).whole = true → ((t.g gid).splits.get j).whole = true →
        ((t.g gid).splits.get i).offset ≠ ((t.g gid).splits.get j).offset) ∧
    ∀ gid s, (s.g gid).stop = .running → ∃ t, exec (.heldLaneReturn gid) s = .next t ∧
      (∀ k, k ≠ gid → t.g k = s.g k) ∧ { t with groups := s.groups } = s ∧
      { t.g gid with splits := (s.g gid).splits, held := (s.g gid).held } = s.g gid ∧
      (∀ l o, l < 32 → standsAt (s.g gid) l o → standsAt (t.g gid) l o) ∧
      (∀ l, l < 32 → inMask (s.g gid).held l = true →
        (inMask (t.g gid).held l = false → standsAt (t.g gid) l ((s.g gid).holdoff.get l)) ∧
        (inMask (t.g gid).held l = true ↔ ¬ offsetLive (s.g gid) ((s.g gid).holdoff.get l) ∧
          ((∀ k, k < 4 → ((s.g gid).splits.get k).valid = true) ∨
            ∃ j, j < 32 ∧ inMask (s.g gid).held j = true ∧ ¬ offsetLive (s.g gid) ((s.g gid).holdoff.get j) ∧
              (s.g gid).holdoff.get j < (s.g gid).holdoff.get l))) ∧
      ∀ l, l < 32 → inMask (s.g gid).held l = false → inMask (t.g gid).held l = false

/-- S.GETSR, S.SETSR, S.RDSYS and S.WRSYS of every register.
A choice of the model and not a rule of the spec stands in it: log entry 38. -/
def Obligations.SpecialAndSystemRegisters : Prop := SpecialRegisters ∧ SystemRegisters

/-- BAR, BAR.ARV and CBAR. -/
def Sys2Proof.Claims.BlockAndClusterBarriers : Prop :=
  (∀ h y x s, scalarClean (.bar h y x) h s → Plain s → barFresh s x (s.s y).toNat →
      (s.s y).toNat ≤ (s.paramsOf s.cg).groups → ∃ t, exec (.bar h y x) s = .next t ∧ MeetStep x (s.s y).toNat s t) ∧
    (∀ h y x s, scalarClean (.barArv h y x) h s → Plain s → barFresh s x (s.s y).toNat →
      (s.s y).toNat ≤ (s.paramsOf s.cg).groups →
      ∃ t, exec (.barArv h y x) s = .next t ∧ Advanced s t ∧ ArriveStep x (s.s y).toNat s t ∧
        t.cg.cbarPast = s.cg.cbarPast) ∧
    (∀ h s, scalarClean (.cbar h) h s → Plain s → barFresh s 16 0 → ∃ t, exec (.cbar h) s = .next t ∧ MeetStep 16 0 s t) ∧
    (∀ h y x, x < 16 → Departs (.bar h y x) h x) ∧ (∀ h, Departs (.cbar h) h 16) ∧
    ∀ h y x s, scalarClean (.bar h y x) h s → s.cs.waitOn = none →
      ((s.barOf x).isOpen = true → (s.barOf x).marks.get s.cur.gid &&& s.cs.mask = 0#32) →
      ((s.paramsOf s.cg).groups < (s.s y).toNat ∨ ((s.barOf x).isOpen = true ∧ (s.barOf x).count ≠ (s.s y).toNat)) →
      exec (.bar h y x) s = .next (s.beginIssue.trapCur s.beginIssue.illegal)

/-- SB.INIT, SB.ARV, SB.WAIT and SB.TEST. -/
def Sys2Proof.Claims.StageBarriers : Prop :=
  (∀ h y x s b key, scalarClean (.sbInit h y x) h s → Direct s → stageAt s x b key → 0 < (s.s y).toNat →
      (s.s y).toNat ≤ 65536 → ∃ t, exec (.sbInit h y x) s = .next t ∧ ScratchStep b key 16 s t ∧
        (reached s s.cs.mask (.scratch b key) 16 → scratchWord t b key = s.s y ∧ scratchWord t b (key + 4) = s.s y ∧
          scratchWord t b (key + 8) = 0#32 ∧ scratchWord t b (key + 12) = 0#32)) ∧
    (∀ h x s b key, scalarClean (.sbArv h x) h s → Direct s → stageAt s x b key →
      let expect := scratchWord s b key
      let pend := scratchWord s b (key + 4)
      ∃ t, exec (.sbArv h x) s = .next t ∧ ScratchStep b (key + 4) 8 s t ∧
        if pend = 0#32 ∨ pend = 1#32 ∨ expect < pend then
          scratchWord t b (key + 4) = expect ∧ scratchWord t b (key + 8) = scratchWord s b (key + 8) + 1#32
        else scratchWord t b (key + 4) = pend - 1#32 ∧ scratchWord t b (key + 8) = scratchWord s b (key + 8)) ∧
    (∀ h y x s b key, scalarClean (.sbWait h y x) h s → Direct s → stageAt s x b key →
      let d := (scratchWord s b (key + 8) - s.s y).toNat
      (1 ≤ d → d ≤ 2 ^ 31 - 1 → ∃ t, exec (.sbWait h y x) s = .next t ∧ OnlyAdvanced s t) ∧
        (¬ (1 ≤ d ∧ d ≤ 2 ^ 31 - 1) → exec (.sbWait h y x) s = .next s.beginIssue.wait)) ∧
    (∀ h y x s b key, scalarClean (.sbTest h y x) h s → Direct s → stageAt s x b key → Room 2 s →
      ∃ t bs, exec (.sbTest h y x) s = .next t ∧ MemoryKept s t ∧ t.blocks = s.blocks ∧ OthersKept s t ∧ Advanced s t ∧
        sees s s.cs.mask (.scratch b (key + 8)) 4 bs ∧ t.cg.sr.get y = loadedWord 4 bs 0 ∧
        (∀ r, r ≠ y → t.cg.sr.get r = s.cg.sr.get r ∧ t.cg.spo.get r = s.cg.spo.get r) ∧
        t.cg.count 2 = s.cg.count 2 + 1 ∧
        { t.cg with sr := s.cg.sr, spo := s.cg.spo, splits := s.cg.splits, inflight := s.cg.inflight, accs := s.cg.accs }
          = s.cg) ∧
    (∀ h y x s, scalarClean (.sbInit h y x) h s → (s.s y = 0#32 ∨ 65536 < (s.s y).toNat) →
      exec (.sbInit h y x) s = .next (s.beginIssue.trapCur s.beginIssue.illegal)) ∧
    ∀ h x s, scalarClean (.sbArv h x) h s → (s.scratchPlace s.cg (s.s x).toNat 16).isSome = true → (s.s x).toNat % 16 ≠ 0 →
      exec (.sbArv h x) s = .next (s.beginIssue.trapCur (s.beginIssue.alignTrap 0 (s.s x).toNat))

/-- TAG.L, TAG.I and TAG.E. That the lowest way counts where several match is the model's reading (log entry 50), and that a
poisoned key or input acts by its bits is its choice (log entry 115).
A choice of the model and not a rule of the spec stands in it: log entries 50 and 115. -/
def Obligations.TagTable : Prop :=
  TagOne .tagL false (fun c bid k _ r c' => c' = c ∧
      ((∀ e, ¬ tagHit c bid k e) → r = 0#32) ∧
      ∀ e, lowestWay k (tagHit c bid k) e → r = BitVec.ofNat 32 ((c.tags.get e).st * 2 ^ 30 + (c.tags.get e).data)) ∧
    TagOne .tagE false (fun c bid k _ r c' =>
      ((∀ e, ¬ tagHit c bid k e) → r = 0#32 ∧ c' = c) ∧
      ∀ e, lowestWay k (tagHit c bid k) e →
        r = BitVec.ofNat 32 ((c.tags.get e).st * 2 ^ 30 + (c.tags.get e).data) ∧ (c'.tags.get e).st = 0 ∧
          (∀ f, f ≠ e → c'.tags.get f = c.tags.get f) ∧ { c' with tags := c.tags } = c) ∧
    TagOne .tagI true (fun c bid k x r c' =>
      let data := x.toNat % 2 ^ 21
      { c' with tags := c.tags } = c ∧
        (∀ e, lowestWay k (tagHit c bid k) e →
          if (c.tags.get e).st = 1 ∧ x.msb = true then
            r = BitVec.ofNat 32 data ∧ c'.tags.get e = { c.tags.get e with data := data, st := 2 } ∧
              ∀ f, f ≠ e → c'.tags.get f = c.tags.get f
          else r = BitVec.ofNat 32 ((c.tags.get e).st * 2 ^ 30 + (c.tags.get e).data) ∧ c' = c) ∧
        ((∀ e, ¬ tagHit c bid k e) →
          (∀ e, lowestWay k (fun e => (c.tags.get e).st = 0) e →
            r = BitVec.ofNat 32 data ∧
              c'.tags.get e = { st := if x.msb then 2 else 1, key := k, data := data, owner := bid } ∧
              ∀ f, f ≠ e → c'.tags.get f = c.tags.get f) ∧
          ((∀ e, ¬ lowestWay k (fun e => (c.tags.get e).st = 0) e) → r = 0xC0000000#32 ∧ c' = c)))

/-- A context's counter, WAITC, TLWAIT and TLREAD. -/
def Sys2Proof.Claims.TimelinesAndWaits : Prop :=
  (∀ c : Ctx, (∀ k, k ∈ c.open_ → 1 ≤ k ∧ k ≤ c.accepted) →
      (∀ k, 1 ≤ k → k ≤ c.counter → k ∉ c.open_) ∧ c.counter ≤ c.accepted ∧
        (c.counter < c.accepted → c.counter + 1 ∈ c.open_)) ∧
    (∀ h y x s, scalarClean (.waitc h y x) h s → s.cg.count x ≤ (s.s y).toNat →
      ∃ t, exec (.waitc h y x) s = .next t ∧ OutsideNoted s t ∧ (x ≠ 4 → OutsideKept s t) ∧ Advanced s t ∧
        (t.log = s.log ∨ ∃ e, t.log = e :: s.log ∧ e.acq = true ∧ e.rel = false ∧ e.scope = 1 ∧
          e.by_ = s.lanesAt s.cur.gid allLanes) ∧
        t.cg.covered.get x = max (s.cg.covered.get x) (s.cg.accs.get x - (s.s y).toNat) ∧
        (∀ q, q ≠ x → t.cg.covered.get q = s.cg.covered.get q) ∧
        (∀ p, p ∈ t.cg.pend ↔ p ∈ s.cg.pend ∧
          ¬ (p.onPath = true ∧ p.path = x ∧ p.landed = true ∧ p.seq ≤ t.cg.covered.get x)) ∧
        { t.cg with covered := s.cg.covered, pend := s.cg.pend, splits := s.cg.splits } = s.cg) ∧
    (∀ h y x s, scalarClean (.waitc h y x) h s → (s.s y).toNat < s.cg.count x →
      exec (.waitc h y x) s = .next s.beginIssue.wait) ∧
    (∀ h y x s, scalarClean (.tlwait h y x) h s → s.cs.waitOn = none → s.s (x + 1) = 0#32 → ctxNamed s (s.s x) →
      let n := (s.s (x + 3) ++ s.s (x + 2)).toNat
      (doneTo (ctxAt s (s.s x)) n → (∀ k tr, (k, tr) ∈ (ctxAt s (s.s x)).traps → n < k) →
        ∃ t, exec (.tlwait h y x) s = .next t ∧ MemoryKept s t ∧ OthersKept s t ∧ Advanced s t ∧
          t.cg.xstat = (if ∃ k, k ∈ (ctxAt s (s.s x)).clamped ∧ k ≤ n then s.cg.xstat ||| 8#32 else s.cg.xstat) ∧
          { t.cg with xstat := s.cg.xstat, splits := s.cg.splits } = s.cg) ∧
      (doneTo (ctxAt s (s.s x)) n → ∀ k tr, (k, tr) ∈ (ctxAt s (s.s x)).traps → k ≤ n →
        (∀ j u, (j, u) ∈ (ctxAt s (s.s x)).traps → (j, u) = (k, tr) ∨ k < j) →
        ∃ u, exec (.tlwait h y x) s = .next (u.trapCur { tr with tpc := s.cur.tpc }) ∧
          { u with groups := s.groups, blocks := s.blocks, log := s.log, cur := s.cur } = s ∧
          u.cur = { s.beginIssue.cur with completed := true } ∧
          u.cs = { s.cs with waitOn := none, age := 0 } ∧
          (∀ j v, (j, v) ∈ (ctxAt u (s.s x)).traps → k < j)) ∧
      (∀ k, k ∈ (ctxAt s (s.s x)).open_ → 1 ≤ n → k ≤ n →
        ∃ t, exec (.tlwait h y x) s = .next t ∧ OutsideKept s t ∧ t.cur.issued = false ∧
          t.cs = { s.cs with waitOn := some (.timeline (s.s x).toNat n s.ns) } ∧
          { t.cg with splits := s.cg.splits } = s.cg)) ∧
    ∀ h y x s, scalarClean (.tlread h y x) h s → ctxNamed s (s.s x) → ∃ t, exec (.tlread h y x) s = .next t ∧
      ScalarStep [(y, BitVec.ofNat 32 (ctxAt s (s.s x)).counter),
        (y + 1, BitVec.ofNat 32 ((ctxAt s (s.s x)).counter / 2 ^ 32))] s t

/-- FENCE is an event of the memory model and goes on; FENCE.MIR waits for the mirror, and reports one that is lost. -/
def Sys2Proof.Claims.Fences : Prop :=
  (∀ h y x s, scalarClean (.fence h y x) h s → Plain s → ∃ t, exec (.fence h y x) s = .next t ∧
      FenceStep y x s.cg.xstat s t) ∧
    ∀ h x s, scalarClean (.fenceMir h x) h s → Plain s →
      (s.mirstat = 0 → ∃ t, exec (.fenceMir h x) s = .next t ∧ FenceStep 3 x s.cg.xstat s t) ∧
      (s.mirstat = 1 → s.mirOwed (s.lanesAt s.cur.gid s.cs.mask) = false →
        ∃ t, exec (.fenceMir h x) s = .next t ∧ FenceStep 3 x s.cg.xstat s t) ∧
      (s.mirstat = 1 → (∃ w q, w ∈ s.mirror ∧ q ∈ w.who ∧ q.same (s.lanesAt s.cur.gid s.cs.mask) = true) →
        exec (.fenceMir h x) s = .next s.beginIssue.wait) ∧
      (s.mirstat = 3 → exec (.fenceMir h x) s = .next s.beginIssue.wait) ∧
      (s.mirstat = 2 → ∃ t, exec (.fenceMir h x) s = .next t ∧ FenceStep 3 x (s.cg.xstat ||| 16#32) s t)

/-- Block, cluster and stage barriers.
A choice of the model and not a rule of the spec stands in it: log entries 47 and 114. -/
def Obligations.Barriers : Prop := BlockAndClusterBarriers ∧ StageBarriers

/-- WAITC, TLWAIT, TLREAD and the fences. That FENCE.MIR completes while the mirror is off is the model's choice (log entry
116).
A choice of the model and not a rule of the spec stands in it: log entries 48, 113, 114, 116, 134 and 135. -/
def Obligations.WaitsAndFences : Prop := TimelinesAndWaits ∧ Fences

/-- MX.ACQ, MX.REL, MX.ZERO and MX.STAT.
A choice of the model and not a rule of the spec stands in it: log entry 48. -/
def Obligations.TileTokens : Prop :=
  (∀ h k s, scalarClean (.mxAcq h k) h s → holds s k → exec (.mxAcq h k) s = .next s.beginIssue.advance) ∧
    (∀ h k s, scalarClean (.mxAcq h k) h s → (s.tile s.cg.core k).tok = none →
      ((s.tile s.cg.core k).blk = none ∨ (s.tile s.cg.core k).blk = some s.cg.bid) →
      s.tileCmds s.cg.core k = [] → (s.tile s.cg.core k).faulted = [] → ∃ t, exec (.mxAcq h k) s = .next t ∧
        TileStep k { s.tile s.cg.core k with blk := some s.cg.bid, tok := some s.cur.gid, done := [] } s t) ∧
    (∀ h k s i n r tr, scalarClean (.mxAcq h k) h s → (s.tile s.cg.core k).tok = none →
      ((s.tile s.cg.core k).blk = none ∨ (s.tile s.cg.core k).blk = some s.cg.bid) → s.tileCmds s.cg.core k = [] →
      (s.tile s.cg.core k).faulted = (i, n) :: r → (s.cb.mx.get i).traps.find? (fun y => decide (y.1 = n)) = some (n, tr) →
      ∃ u : State, exec (.mxAcq h k) s = .next (u.trapCur { tr with tpc := s.cur.tpc }) ∧
        u.cs = { s.cs with waitOn := none, age := 0 } ∧ (u.tile s.cg.core k).tok = some s.cur.gid ∧
        (u.tile s.cg.core k).blk = some s.cg.bid ∧ ∀ y, y ∈ (u.cb.mx.get i).traps → y.1 ≠ n) ∧
    (∀ h k s gid, scalarClean (.mxAcq h k) h s → (s.tile s.cg.core k).tok = some gid → gid ≠ s.cur.gid →
      exec (.mxAcq h k) s = .next s.beginIssue.wait) ∧
    (∀ h k s, scalarClean (.mxRel h k) h s → holds s k →
      (∀ p, p ∈ s.cg.pend → p.file = .tile → p.reg = k → p.ready ≤ s.cycle) →
      (∀ j x, j < 4 → x ∈ (s.cg.splits.get j).more → x.writesTile k = false) → ∃ t, exec (.mxRel h k) s = .next t ∧
      TileStep k { s.tile s.cg.core k with tok := none } s t) ∧
    (∀ h k s p, scalarClean (.mxRel h k) h s → holds s k → p ∈ s.cg.pend → p.file = .tile → p.reg = k → s.cycle < p.ready →
      exec (.mxRel h k) s = .next s.beginIssue.wait) ∧
    (∀ h k s j x, scalarClean (.mxRel h k) h s → holds s k → j < 4 → x ∈ (s.cg.splits.get j).more → x.writesTile k = true →
      exec (.mxRel h k) s = .next s.beginIssue.wait) ∧
    (∀ h k s, scalarClean (.mxRel h k) h s → ¬ holds s k →
      exec (.mxRel h k) s = .next (s.beginIssue.trapCur (s.beginIssue.mkTrap 0x06 0 (BitVec.ofNat 32 k)))) ∧
    (∀ h y k s, scalarClean (.mxZero h y k) h s → holds s k → -128 ≤ (s.s (2 * y)).toInt → (s.s (2 * y)).toInt ≤ 127 →
      ∃ t x, exec (.mxZero h y k) s = .next t ∧ TileWrite k x s t ∧
        (∀ p, p ∈ t.cg.pend ↔ p ∈ s.cg.pend ∧ ¬ (p.file = .tile ∧ p.reg = k)) ∧
        { t.cg with splits := s.cg.splits, pend := s.cg.pend } = s.cg ∧
        (∀ e, x.elems.get e = 0#64 ∧ x.wovf.get e = false ∧ x.pois.get e = false) ∧ x.acnt = 0 ∧ x.guard = false ∧
        x.mtmask = 0 ∧ x.apend = 0 ∧ x.amis = false ∧ x.anchor = (s.s (2 * y)).toNat % 256 ∧ x.tok = some s.cur.gid) ∧
    (∀ h y k s, scalarClean (.mxZero h y k) h s → holds s k → (127 < (s.s (2 * y)).toInt ∨ (s.s (2 * y)).toInt < -128) →
      exec (.mxZero h y k) s = .next (s.beginIssue.trapCur s.beginIssue.illegal)) ∧
    ∀ h y k s, scalarClean (.mxStat h y k) h s → holds s k → (s.tile s.cg.core k).anchor < 256 →
      SMap.canon (s.tile s.cg.core k).wovf = true → SMap.canon (s.tile s.cg.core k).pois = true →
      ∃ t w, exec (.mxStat h y k) s = .next t ∧
        (let x := s.tile s.cg.core k
         ScalarStep [(2 * y, w), (2 * y + 1, BitVec.ofNat 32 x.acnt), (2 * y + 2, BitVec.ofNat 32 x.mtmask),
           (2 * y + 3, BitVec.ofNat 32 (x.mtmask / 2 ^ 32))] s t ∧
         w.toNat % 256 = x.anchor ∧ w.toNat / 4096 = 0 ∧ w.getLsbD 8 = x.guard ∧
         (w.getLsbD 9 = true ↔ ∃ e, x.wovf.get e = true) ∧ w.getLsbD 10 = x.amis ∧
         (w.getLsbD 11 = true ↔ ∃ e, x.pois.get e = true))

/-- MX.RD and MX.WR of the token's holder; without the token they raise TOKEN, and with an index above 63 ILLEGAL, before any
lane acts. -/
def Obligations.TileSlices : Prop :=
  (∀ h m sl k ix v s, laneClean (.mxRd h m sl k ix v) h s → holds s k → (s.s ix).toNat + m ≤ 63 →
      (∀ l j, l < 32 → j < 2 → inMask (s.laneActive h) l = true →
        (elementOut s k (sliceAt sl ((s.s ix).toNat + m) (l + 32 * j))).ovf = false) →
      (let out := fun l j => elementOut s k (sliceAt sl ((s.s ix).toNat + m) (l + 32 * j))
       ∃ t, exec (.mxRd h m sl k ix v) s = .next t ∧ OutsideKept s t ∧ Advanced s t ∧
        (∀ l j, l < 32 → j < 2 → inMask (s.laneActive h) l = true →
          t.cg.vr.get (32 * (v + j) + l) = BitVec.ofNat 32 (out l j).code ∧
            inMask (t.cg.vpo.get (v + j)) l = (s.elem k (sliceAt sl ((s.s ix).toNat + m) (l + 32 * j))).2.2) ∧
        (∀ r l, l < 32 → ((r ≠ v ∧ r ≠ v + 1) ∨ inMask (s.laneActive h) l = false) →
          t.cg.vr.get (32 * r + l) = s.cg.vr.get (32 * r + l) ∧ inMask (t.cg.vpo.get r) l = inMask (s.cg.vpo.get r) l) ∧
        (∀ b, b < 32 → t.cg.xstat.getLsbD b = (s.cg.xstat.getLsbD b ||
          (List.range 32).any fun l => inMask (s.laneActive h) l && ((out l 0).stick ++ (out l 1).stick).contains b)) ∧
        { t.cg with vr := s.cg.vr, vpo := s.cg.vpo, xstat := s.cg.xstat, splits := s.cg.splits } = s.cg)) ∧
    (∀ h m sl k ix v s, laneClean (.mxWr h m sl k ix v) h s → holds s k → (s.s ix).toNat + m ≤ 63 →
      ∃ t x, exec (.mxWr h m sl k ix v) s = .next t ∧ TileStep k x s t ∧
        (let y := s.tile s.cg.core k
         let at_ := fun l j => sliceAt sl ((s.s ix).toNat + m) (l + 32 * j)
         (∀ l j, l < 32 → j < 2 → inMask (s.laneActive h) l = true →
           x.elems.get (at_ l j) = (elementIn y.anchor (s.v (v + j) l)).1 ∧
             x.wovf.get (at_ l j) = (elementIn y.anchor (s.v (v + j) l)).2 ∧ x.pois.get (at_ l j) = s.vp (v + j) l) ∧
         (∀ e, (∀ l j, l < 32 → j < 2 → inMask (s.laneActive h) l = true → e ≠ at_ l j) →
           x.elems.get e = y.elems.get e ∧ x.wovf.get e = y.wovf.get e ∧ x.pois.get e = y.pois.get e) ∧
         { x with elems := y.elems, wovf := y.wovf, pois := y.pois } = y)) ∧
    ∀ mk, mk = Instr.mxRd ∨ mk = Instr.mxWr → ∀ h m sl k ix v s, laneClean (mk h m sl k ix v) h s → s.laneActive h ≠ 0#32 →
      s.cur.checked = false →
      (¬ holds s k →
        exec (mk h m sl k ix v) s = .next (s.beginIssue.trapCur (s.beginIssue.mkTrap 0x06 0 (BitVec.ofNat 32 k)))) ∧
      (holds s k → 63 < (s.s ix).toNat + m →
        exec (mk h m sl k ix v) s = .next (s.beginIssue.trapCur s.beginIssue.illegal))

/-- The raw image of a tile, MX.STRAW and MX.ADDRAW.
A choice of the model and not a rule of the spec stands in it: log entries 52, 114 and 129. -/
def Obligations.RawTileImages : Prop :=
  (∀ x : Tile, x.anchor < 256 → x.acnt < 2 ^ 32 → x.image.length = 33344 ∧ field32 x.image 0 = 0x4152584D ∧
      x.image.getD 4 0#8 = BitVec.ofNat 8 x.anchor ∧ (x.image.getD 5 0#8).getLsbD 0 = x.guard ∧
      (x.image.getD 5 0#8).getLsbD 1 = x.amis ∧ field32 x.image 8 = x.acnt ∧
      (∀ e, e < 4096 → imageWord x.image e = x.elems.get e ∧ (x.image.getD (0x40 + e / 8) 0#8).getLsbD (e % 8) = x.wovf.get e)) ∧
    (∀ h y k s, scalarClean (.mxStraw h y k) h s → imageCheck .store y k s = none → Room 5 s →
      ∃ t, exec (.mxStraw h y k) s = .next t ∧ OthersKept s t ∧ Advanced s t ∧ t.cg.count 5 = s.cg.count 5 + 1 ∧
        (∀ c j, t.tile c j = s.tile c j) ∧ (s.cur.stale = [] → s.seenTile k = s.tile s.cg.core k) ∧
        ∀ pa mir, Direct s → (s.beginIssue.advance.imagePlaces .store (s.s2 (2 * y))).1 =
            .ok ((List.range 521).map fun j => (j, Place.dev (pa + 64 * j) mir)) →
          (∀ i j, i < 4168 → j < 8 → storedByte s s.cs.mask (.dev (pa + 8 * i) mir) 8 (s.devByte (pa + 8 * i + j))
            (t.devByte (pa + 8 * i + j)) ((s.seenTile k).image.getD (8 * i + j) 0#8)) ∧ BytesOutside pa 33344 s t) ∧
    (∀ h y k s, scalarClean (.mxAddraw h y k) h s → imageCheck .load y k s = none → Room 5 s →
      ∃ t, exec (.mxAddraw h y k) s = .next t ∧ MemoryKept s t ∧ OthersKept s t ∧ Advanced s t ∧
        t.cg.count 5 = s.cg.count 5 + 1 ∧
        ∀ ps, (s.beginIssue.advance.imagePlaces .load (s.s2 (2 * y))).1 = .ok ps →
          ∃ (po : Nat → Bool) (piece : Nat → Nat → List Byte),
            (∀ q i, q ∈ ps → i < 8 → sees s s.cs.mask (q.2.plus (8 * i)) 8 (piece q.1 i)) ∧
            t.tile s.cg.core k =
              (s.tile s.cg.core k).addImage (ps.flatMap fun q => (List.range 8).flatMap (piece q.1)) po) ∧
    ∀ (x : Tile) img po,
      (imageBad x img = false →
        (∀ e, e < 4096 → (x.addImage img po).elems.get e = x.elems.get e + imageWord img e ∧
          (x.addImage img po).wovf.get e = (x.wovf.get e || (img.getD (0x40 + e / 8) 0#8).getLsbD (e % 8)) ∧
          (x.addImage img po).pois.get e = (x.pois.get e || po e)) ∧
        (x.addImage img po).acnt = min (x.acnt + field32 img 8) (2 ^ 32 - 1)) ∧
      (imageBad x img = true → (x.addImage img po).amis = true ∧ (x.addImage img po).elems = x.elems ∧
        ∀ e, e < 4096 → (x.addImage img po).wovf.get e = true)

/-- MX.MMA, MX.APF, MX.AINV and MX.AQRY. That MX.AINV makes a key absent which a fill in progress would bring is the model's
reading (log entry 55).
A choice of the model and not a rule of the spec stands in it: log entry 55. -/
def Obligations.MatrixCommands : Prop :=
  (∀ h y a s, scalarClean (.mxMma h y a) h s → Plain s → mmaCheck h (2 * y) a s = none →
      (s.cb.mx.get (s.s (2 * y + 6)).toNat).open_.length < 16 →
      (s.cc.mmas.countP fun m => m.part == partOf s.cg.slot) < 4 →
      ∃ t m l, exec (.mxMma h y a) s = .next t ∧ Accepted 1 (s.s (2 * y + 6)).toNat (2 * y + 7) s t ∧
        t.cc.mmas = s.cc.mmas ++ [m] ∧ m.num = (s.cb.mx.get (s.s (2 * y + 6)).toNat).accepted + 1 ∧ m.started = false ∧
        m.tile = (s.s (2 * y)).toNat ∧ m.a = (s.s (2 * y + 1)).toNat ∧ m.b = (s.s (2 * y + 2)).toNat ∧
        m.k = (s.s (2 * y + 3)).toNat ∧ m.ctx = (s.s (2 * y + 6)).toNat ∧ inMask (s.active h) l = true ∧
        m.wa = (s.v a l).toNat / 256 % 16 + 1 ∧ m.wb = (s.v a l).toNat / 4096 % 16 + 1 ∧
        m.adpt = (s.v a l).getLsbD 16 ∧ m.layer = (s.s (2 * y + 5)).toNat % 4096) ∧
    (∀ h y a s, scalarClean (.mxMma h y a) h s → mmaCheck h (2 * y) a s = none →
      (16 ≤ (s.cb.mx.get (s.s (2 * y + 6)).toNat).open_.length ∨
        4 ≤ (s.cc.mmas.countP fun m => m.part == partOf s.cg.slot)) → exec (.mxMma h y a) s = .next s.beginIssue.wait) ∧
    (∀ h x s, scalarClean (.mxApf h x) h s → (s.s (2 * x)).toNat < 2 ^ 28 → ∃ t, exec (.mxApf h x) s = .next t ∧
      MachineWriteStep s t ∧ OtherKeysKept (dieOf s.cg.core) (s.s (2 * x)).toNat s t ∧
      t.adKey (dieOf s.cg.core) (s.s (2 * x)).toNat =
        if (s.adKey (dieOf s.cg.core) (s.s (2 * x)).toNat).st = 0 then { st := 1 }
        else s.adKey (dieOf s.cg.core) (s.s (2 * x)).toNat) ∧
    (∀ h x s, scalarClean (.mxAinv h x) h s → Plain s → (s.s (2 * x) = 0xFFFFFFFF#32 ∨ (s.s (2 * x)).toNat < 2 ^ 28) →
      (∀ d, SMap.canon (s.di d).adapters = true) → ∃ t, exec (.mxAinv h x) s = .next t ∧ MemoryKept s t ∧ OthersKept s t ∧
        Advanced s t ∧ { t.cg with splits := s.cg.splits, compared := s.cg.compared } = s.cg ∧
        ∀ d k, d < s.part.dies → t.adKey d k =
          if s.s (2 * x) = 0xFFFFFFFF#32 ∨ k = (s.s (2 * x)).toNat then {} else s.adKey d k) ∧
    ∀ h y x s, scalarClean (.mxAqry h y x) h s → (s.s (2 * x)).toNat < 2 ^ 28 → ∃ t, exec (.mxAqry h y x) s = .next t ∧
      (let k := s.adKey (dieOf s.cg.core) (s.s (2 * x)).toNat
       ScalarStep [(2 * y, BitVec.ofNat 32 k.st)] s t)

/-- What the matrix arrays do between the instructions: a command starts, performs its K-steps, and completes, on its own tile
and no other.
A choice of the model and not a rule of the spec stands in it: log entry 114. -/
def Obligations.MatrixArrayEvents : Prop :=
  (∀ core part s m, s.mayStart core part = some m → ∃ t, exec (.mmaCommandStart core part) s = .next t ∧
      t.mem = s.mem ∧ t.groups = s.groups ∧ OtherTilesKept core m.tile s t ∧
      (tileOf t core m).mtmask = 0 ∧ (tileOf t core m).apend = 0 ∧
      (tileOf t core m).elems = (tileOf s core m).elems ∧
      (t.co core).mmas = (s.co core).mmas.map fun x => if x.seq = m.seq then { m with started := true } else x) ∧
    (∀ core part s m k, s.running core part = some m → m.nextStep (tileOf s core m) = some k →
      ∃ t, exec (.kStep core part) s = .next t ∧ t.mem = s.mem ∧ t.groups = s.groups ∧ OtherTilesKept core m.tile s t ∧
        (let x := tileOf s core m
         let y := tileOf t core m
         let row := fun a w i => s.planeRow (s.mmaReader m) (s.operandPlace core m a w) w k i
         let d := fun e => stepAddend x.anchor (row m.a m.wa (e / 64)) (row m.b m.wb (e % 64))
         (∀ e, e < 4096 → y.elems.get e = x.elems.get e + BitVec.ofInt 64 (d e).1 ∧
           y.wovf.get e = (x.wovf.get e || (d e).2) ∧
           y.pois.get e = (x.pois.get e || (row m.a m.wa (e / 64)).po || (row m.b m.wb (e % 64)).po || m.marked)) ∧
         y.acnt = min (x.acnt + 1) (2 ^ 32 - 1) ∧ y.guard = (x.guard || decide (32767 < y.acnt)) ∧
         y.mtmask = x.mtmask + 2 ^ k ∧ y.anchor = x.anchor ∧ y.tok = x.tok)) ∧
    (∀ core part s m, s.running core part = some m → m.finished (tileOf s core m) = true →
      ∃ t, exec (.mmaCommandComplete core part) s = .next t ∧ t.mem = s.mem ∧ t.groups = s.groups ∧
        OtherTilesKept core m.tile s t ∧
        (t.co core).mmas = (s.co core).mmas.filter (fun x => decide (x.seq ≠ m.seq)) ∧
        ((t.b m.bid).ctx 1 m.ctx).open_ = ((s.b m.bid).ctx 1 m.ctx).open_.filter (fun n => decide (n ≠ m.num)) ∧
        ((t.b m.bid).ctx 1 m.ctx).traps = ((s.b m.bid).ctx 1 m.ctx).traps ++ match m.trap with
          | some tr => [(m.num, tr)]
          | none => []) ∧
    ∀ core k s bid, (s.tile core k).blk = some bid → (s.b bid).gone = true → s.tileCmds core k = [] →
      ∃ t, exec (.tileUnbind core k) s = .next t ∧ t.tile core k = {} ∧
        OtherTilesKept core k s t ∧ t.groups = s.groups ∧ t.mem = s.mem

/-- The adapter stage and the adapter cache: rows whose keys are present get their terms and no other element changes, the others
are owed; a fill lands,
and other keys may leave to make room (log entry 57), or fails; a key may leave. No record that keeps R286 is larger than
the cache.
A choice of the model and not a rule of the spec stands in it: log entries 57, 128 and 138. -/
def Obligations.AdapterEvents : Prop :=
  (∀ core part s m, s.running core part = some m → m.adpt = true → m.nextStep (tileOf s core m) = none →
      ∃ t, exec (.adapterStage core part) s = .next t ∧ t.mem = s.mem ∧ t.groups = s.groups ∧
        (tileOf t core m).acnt =
          (if m.staged then (tileOf s core m).acnt else min ((tileOf s core m).acnt + 1) (2 ^ 32 - 1)) ∧
        (tileOf t core m).guard = ((tileOf s core m).guard || (!m.staged && decide (32767 < (tileOf t core m).acnt))) ∧
        OtherTilesKept core m.tile s t ∧
        (let takes := fun i => (m.staged = true → bit (tileOf s core m).apend i = true) ∧
           ∃ key, m.rowKey i = some key ∧ (s.adKey (dieOf core) key).st = 2
         (∀ i key, i < 64 → takes i → m.rowKey i = some key → ∃ u : State,
            { u with cores := s.cores, dies := s.dies, log := s.log, free := s.free } = s ∧
            RowStaged m i ((List.range m.steps).map fun k =>
                u.planeRow (u.mmaReader m) (u.operandPlace core m m.a m.wa) m.wa k i)
              (s.adKey (dieOf core) key) (tileOf s core m) (tileOf t core m)) ∧
         ∀ i j, i < 64 → j < 64 → ¬ takes i →
           (tileOf t core m).elems.get (64 * i + j) = (tileOf s core m).elems.get (64 * i + j) ∧
             (tileOf t core m).wovf.get (64 * i + j) = (tileOf s core m).wovf.get (64 * i + j) ∧
             (tileOf t core m).pois.get (64 * i + j) = (tileOf s core m).pois.get (64 * i + j)) ∧
        ∀ i key, i < 64 → m.rowKey i = some key → (m.staged = true → bit (tileOf s core m).apend i = true) →
          bit (tileOf t core m).apend i = !decide ((s.adKey (dieOf core) key).st = 2) ∧
            (t.adKey (dieOf core) key).st = if (s.adKey (dieOf core) key).st = 0 then 1 else (s.adKey (dieOf core) key).st) ∧
    (∀ die key s x, (s.adKey die key).st = 1 → s.fetchRecord die key = .got x →
      ∃ t, exec (.adapterFillLand die key) s = .next t ∧ t.adKey die key = x ∧ t.groups = s.groups ∧ t.mem = s.mem ∧
        t.cores = s.cores ∧ (∀ j, j ≠ key → t.adKey die j = s.adKey die j ∨ t.adKey die j = {}) ∧
        ∀ d, d ≠ die → t.di d = s.di d) ∧
    (∀ (s : State) die key, s.fetchRecord die key ≠ .tooLarge) ∧
    (∀ die key s c sub a, (s.adKey die key).st = 1 → s.fetchRecord die key = .failed c sub a →
      ∃ t, exec (.adapterFillFail die key) s = .next t ∧ RowsGivenUp die key s t ∧
        ∀ core m i, (core, m, i) ∈ s.waiters die key → (s.co core).mmas.Pairwise (fun x y => x.seq ≠ y.seq) →
          ∃ n tr, n ∈ (t.co core).mmas ∧ n.seq = m.seq ∧ n.trap = some tr ∧ (m.trap = none → tr.code = c) ∧
            (m.trap ≠ none → n.trap = m.trap)) ∧
    ∀ die key s, (s.adKey die key).st = 2 → ∃ t, exec (.adapterKeyEvict die key) s = .next t ∧ t.adKey die key = {} ∧
      OtherKeysKept die key s t ∧ t.groups = s.groups ∧ t.mem = s.mem

/-- CP.TENSOR, CP.LIN, CP.GATHER, CP.SCATTER, CP.FOLLOW and CP.CANCEL. What of its moves a cancelled command has made is the
model's free choice (log entry 54); where none of them was still to run, CP.CANCEL leaves memory as it was.
A choice of the model and not a rule of the spec stands in it: log entry 54. -/
def Obligations.SluiceCommands : Prop :=
  (∀ h y x, CopyCommand (.cpTensor h y x) h (tensorCheck x y) (fun s => (s.s (2 * y + 14)).toNat % 256) (2 * y + 15)
      (fun s => (s.s (2 * y + 14)).getLsbD 9)
      fun s => .tensor (operandBlock s (2 * x) 24) (operandBlock s (2 * y) 16)) ∧
    (∀ h x, CopyCommand (.cpLin h x) h (linCheck x) (fun s => (s.s (2 * x + 4)).toNat % 256) (2 * x + 7)
      (fun s => (s.s (2 * x + 4)).getLsbD 10) fun s => .lin (operandBlock s (2 * x) 7)) ∧
    (∀ h y x, CopyCommand (.cpGather h y x) h (rowsCheck true y x) (fun s => (s.s (2 * x + 6)).toNat % 256) (2 * x + 7)
      (fun s => (s.s (2 * x + 6)).getLsbD 8) fun s => .gather (operandBlock s (2 * x) 7) (s.s (2 * y)).toNat) ∧
    (∀ h y x, CopyCommand (.cpScatter h y x) h (rowsCheck false y x) (fun s => (s.s (2 * x + 6)).toNat % 256) (2 * x + 7)
      (fun _ => false) fun s => .scatter (operandBlock s (2 * x) 7) (s.s (2 * y)).toNat) ∧
    (∀ h a x s, scalarClean (.cpFollow h a x) h s → Plain s → followCheck h a x s = none →
      (s.cb.mx.get (s.s (2 * x + 6)).toNat).open_.length < 16 →
      ∃ t m, exec (.cpFollow h a x) s = .next t ∧ Accepted 1 (s.s (2 * x + 6)).toNat (2 * x + 7) s t ∧
        (t.cb.copy.get (s.s (2 * x + 7)).toNat).armed = some m ∧
        m.num = (s.cb.mx.get (s.s (2 * x + 6)).toNat).accepted + 1 ∧ m.tile = (s.s (2 * x)).toNat ∧
        m.a = (s.s (2 * x + 1)).toNat ∧ m.b = (s.s (2 * x + 2)).toNat ∧ m.k = (s.s (2 * x + 3)).toNat) ∧
    (∀ h x s, scalarClean (.cpCancel h x) h s → Plain s → (s.s (2 * x)).toNat < 32 → ∃ t, exec (.cpCancel h x) s = .next t ∧
      (let ctx := (s.s (2 * x)).toNat
       OthersKept s t ∧ Advanced s t ∧ { t.cg with splits := s.cg.splits, compared := s.cg.compared } = s.cg ∧
       ((∀ c, c ∈ (s.cb.copy.get ctx).queue → c.ran = true) →
         t.mem = s.mem ∧ ∀ q, (t.b q).scratch = (s.b q).scratch) ∧
       (t.cb.copy.get ctx).queue = [] ∧
       (t.cb.copy.get ctx).armed = none ∧ (t.cb.copy.get ctx).landed = (s.cb.copy.get ctx).landed ∧
       (t.cb.copy.get ctx).c.accepted = (s.cb.copy.get ctx).c.accepted ∧
       ∀ n, n ∈ (t.cb.copy.get ctx).c.open_ ↔ n ∈ (s.cb.copy.get ctx).c.open_ ∧
         ∀ c, c ∈ (s.cb.copy.get ctx).queue → c.num ≠ n)) ∧
    ∀ h x s, scalarClean (.cpCancel h x) h s → 32 ≤ (s.s (2 * x)).toNat →
      exec (.cpCancel h x) s = .next (s.beginIssue.trapCur s.beginIssue.illegal)

/-- The ten instructions of the sampling arrays, and COL.RED, COL.BCAST and COL.GATH. -/
def Obligations.SamplingAndCollectiveCommands : Prop :=
  (∀ h x s, scalarClean (.smCfg h x) h s → Plain s → smCheck true (cfgForm (2 * x)) s = none →
      s.smReady (s.s (2 * x + 5)).toNat = true →
      s.smReserved (s.s (2 * x + 5)).toNat + (s.s (2 * x)).toNat + (s.s (2 * x + 4)).toNat ≤ 2048 →
      ∃ t, exec (.smCfg h x) s = .next t ∧
        SampleAccepted 20 0 (s.s (2 * x + 5)).toNat (2 * x + 7) (operandBlock s (2 * x) 7) s t ∧
        (t.cb.sm.get (s.s (2 * x + 5)).toNat).cfgN = (s.s (2 * x)).toNat ∧
        (t.cb.sm.get (s.s (2 * x + 5)).toNat).cfgG = (s.s (2 * x + 4)).toNat ∧
        (t.cb.sm.get (s.s (2 * x + 5)).toNat).cfgC = (s.s (2 * x + 1)).toNat) ∧
    (∀ h x s, scalarClean (.smCfg h x) h s → Plain s → smCheck true (cfgForm (2 * x)) s = none →
      2048 < s.smReserved (s.s (2 * x + 5)).toNat + (s.s (2 * x)).toNat + (s.s (2 * x + 4)).toNat →
      exec (.smCfg h x) s = .next s.beginIssue.wait) ∧
    SampleCommand .smLdc 21 2 ldcForm ∧ SampleCommand .smLdb 22 1 ldbForm ∧ SampleCommand .smClamp 23 2 clampForm ∧
    SampleCommand .smInit 24 1 initForm ∧
    (∀ h y m s, scalarClean (.smKey h y m) h s → Plain s → smCheck false (keyForm (2 * y)) s = none →
      s.smReady (s.s (2 * y + 1)).toNat = true → ∃ t, exec (.smKey h y m) s = .next t ∧
        SampleAccepted 25 m (s.s (2 * y + 1)).toNat (2 * y + 2) (operandBlock s (2 * y) 1) s t) ∧
    SampleCommand .smSweep 26 3 sweepForm ∧ SampleCommand .smRead 27 2 readForm ∧ SampleCommand .smHlth 28 0 hlthForm ∧
    SampleCommand .smBx 29 3 bxForm ∧ CollectiveCommand .colRed 32 ∧ CollectiveCommand .colBcast 33 ∧
    CollectiveCommand .colGath 34

/-- A copy command that meets no fault moves every byte of its plan, from the bytes as they stood: as an access of its
context it takes a place in the order of writes, and where no earlier write is in play it is the last. It completes, and its
follow-on goes to the array.
A choice of the model and not a rule of the spec stands in it: log entries 18 and 114. -/
def Obligations.SluiceEvents : Prop :=
  (∀ bid ctx (s : State), runnable s bid ctx ≠ [] → ∃ (c : CopyCmd) (u : State), c ∈ runnable s bid ctx ∧
      { u with free := s.free } = s ∧ CopyRuns bid ctx c u s) ∧
    (∀ bid ctx (s : State), runnable s bid ctx = [] → exec (.sluiceCommandRun bid ctx) s = .next s) ∧
    RowsPlan .gather false ∧ RowsPlan .scatter true ∧ TensorPlan ∧ PlaneForm ∧
    (∀ bid ctx (s : State) (c : CopyCmd) blk (src dst : Nat → Place), c.op = .lin blk →
      (∀ k, k < (blk.getD 5 0#32).toNat →
        s.linSide (c.who bid) (ctxWord 0 ctx) ((blk.getD 4 0#32).getLsbD 8) false (blk.getD 0 0#32) (blk.getD 1 0#32)
            (blk.getD 5 0#32).toNat k = .ok (src k) ∧
          s.linSide (c.who bid) (ctxWord 0 ctx) ((blk.getD 4 0#32).getLsbD 9) true (blk.getD 2 0#32) (blk.getD 3 0#32)
            (blk.getD 5 0#32).toNat k = .ok (dst k)) →
      (s.planOf bid ctx c).elems =
          (List.range (blk.getD 5 0#32).toNat).map (fun k => [{ dst := dst k, src := .mem (src k) }]) ∧
        (s.planOf bid ctx c).faults = [] ∧ (s.planOf bid ctx c).index = none) ∧
    (∀ bid ctx (s : State) (c : CopyCmd), ((s.b bid).copy.get ctx).queue.find? (fun d => decide (d.num = c.num)) = some c →
      s.copyLanded c = true → ∃ t, exec (.copyCommandComplete bid ctx c.num) s = .next t ∧
        Finished bid 0 ctx c.num c.fault s t ∧ t.groups = s.groups ∧ t.mem = s.mem ∧
        ((t.b bid).copy.get ctx).queue = ((s.b bid).copy.get ctx).queue.filter (fun d => decide (d.num ≠ c.num)) ∧
        ((t.b bid).copy.get ctx).landed = ((s.b bid).copy.get ctx).landed ++
          if c.fault.isNone = true then c.follow.toList.map fun m => { m with after := s.tagged (engTag 0 bid ctx c.num) }
          else []) ∧
    ∀ bid ctx s m r, ((s.b bid).copy.get ctx).landed = m :: r → s.arrayRoom ((s.b bid).coreOf m.member) m.part = true →
      ∃ t, exec (.followOnIssue bid ctx) s = .next t ∧ ((t.b bid).copy.get ctx).landed = r ∧ t.groups = s.groups ∧
        t.mem = s.mem ∧
        (t.co ((s.b bid).coreOf m.member)).mmas = (s.co ((s.b bid).coreOf m.member)).mmas ++ [m]

/-- The oldest command of a context that comes next on its block's free array (R300). -/
def Sys2Proof.Claims.Serves (bid ctx : Nat) (c : SmCmd) (s : State) : Prop :=
  (∃ r, ((s.b bid).sm.get ctx).queue = c :: r) ∧ (s.array (s.b bid).arrayCore).bound = some bid ∧
    (s.array (s.b bid).arrayCore).busy = none ∧ s.smNext bid = some ctx

/-- What a context holds beside the numbers and the commands it has accepted and those that run. -/
def Sys2Proof.Claims.bare (x : SmCtx) : SmCtx := { x with c := {}, queue := [], running := none, bx := none }

/-- The words of a command's list, as it reads them, applied in order: a poisoned one is skipped as a bad entry (R325). -/
def Sys2Proof.Claims.listApplied (x : SmCtx) (f : SmCtx → Nat → Nat → SmCtx) (ws : List (Option Nat)) : SmCtx :=
  ws.zipIdx.foldl (fun y e => match e.1 with
    | some w => f y e.2 w
    | none => { y with badent := true, poison := true }) x

/-- The run of a command that reads a list of words from the scratchpad: its entries are applied in order to the context
prepared so, and a poisoned word makes it record POISON. -/
def Sys2Proof.Claims.ListRuns (fn : Nat) (count : SmCtx → SmCmd → Nat) (pre : SmCtx → SmCtx) (f : SmCtx → Nat → Nat → SmCtx) :
    Prop :=
  ∀ bid ctx c s, Serves bid ctx c s → c.fn = fn → ∃ t, exec (.samplingCommandRun bid ctx) s = .next t ∧
    t.groups = s.groups ∧ t.mem = s.mem ∧
    (let x := (s.b bid).sm.get ctx
     let ws := s.smWords bid ctx c.num (c.blk.getD 0 0#32).toNat (count x c)
     bare ((t.b bid).sm.get ctx) = bare (listApplied (pre x) f ws) ∧
       Finished bid 2 ctx c.num (if ws.any Option.isNone then
         some { code := 0x0D, sub := 4, tval := BitVec.ofNat 32 (2 * 2 ^ 28 + ctx), taddr := c.num } else none) s t)

/-- One entry of SM.LDC: skipped, or a coupling removed, changed or added, in both directions (R312). -/
def Sys2Proof.Claims.CouplingEntry : Prop :=
  ∀ (x : SmCtx) k w, (
    let i := bits w 10 0
    let j := bits w 21 11
    let jw := bits w 31 24
    let y := x.ldcEntry k w
    let full := fun e => decide (e < x.n ∧ 64 ≤ (x.couplings e).length)
    (bits w 23 22 ≠ 0 ∨ i = j ∨ x.n + x.g ≤ i ∨ x.n + x.g ≤ j ∨ (x.n ≤ i ∧ x.n ≤ j) → y = { x with badent := true }) ∧
    (bits w 23 22 = 0 → i ≠ j → i < x.n + x.g → j < x.n + x.g → (i < x.n ∨ j < x.n) →
      (jw = 0 ∨ x.j.get (coupling i j) ≠ 0 ∨ (full i = false ∧ full j = false) →
        { y with j := x.j } = x ∧ coupling i j = coupling j i ∧
          ∀ e, y.j.get e = if e = coupling i j then jw else x.j.get e) ∧
      (jw ≠ 0 → x.j.get (coupling i j) = 0 → (full i = true ∨ full j = true) → y = { x with badent := true })))

/-- One word of SM.LDB and one entry of SM.CLAMP: skipped, or the node's bias and colour, or its clamp and its state
(R313, R314). -/
def Sys2Proof.Claims.NodeEntries : Prop :=
  (∀ (x : SmCtx) k w, (bits w 31 19 ≠ 0 ∨ x.colours ≤ bits w 18 16 → x.ldbWord k w = { x with badent := true }) ∧
    (bits w 31 19 = 0 → bits w 18 16 < x.colours →
      { x.ldbWord k w with h := x.h, colour := x.colour } = x ∧
      ∀ n, (x.ldbWord k w).h.get n = (if n = k then w % 65536 else x.h.get n) ∧
        (x.ldbWord k w).colour.get n = if n = k then bits w 18 16 else x.colour.get n)) ∧
  ∀ (x : SmCtx) k w,
    (bits w 31 17 ≠ 0 ∨ bits w 15 11 ≠ 0 ∨ x.n ≤ bits w 10 0 → x.clampEntry k w = { x with badent := true }) ∧
    (bits w 31 17 = 0 → bits w 15 11 = 0 → bits w 10 0 < x.n →
      { x.clampEntry k w with clamp := x.clamp, st := x.st } = x ∧
      ∀ n, (x.clampEntry k w).clamp.get n = (if n = bits w 10 0 then (if bit w 16 then 2 else 1) else x.clamp.get n) ∧
        (x.clampEntry k w).st.get n = if n = bits w 10 0 then bit w 16 else x.st.get n)

/-- SM.CFG: every field of the context stands as after a configuration (R299, R311). -/
def Sys2Proof.Claims.ConfigRuns : Prop :=
  ∀ bid ctx c s, Serves bid ctx c s → c.fn = 20 → ∃ t, exec (.samplingCommandRun bid ctx) s = .next t ∧
    t.groups = s.groups ∧ t.mem = s.mem ∧ Finished bid 2 ctx c.num none s t ∧
    (let w := fun k => (c.blk.getD k 0#32).toNat
     let x := (s.b bid).sm.get ctx
     let y := (t.b bid).sm.get ctx
     bare { y with pos := [], x := [] } = bare { ({} : SmCtx) with
         cfgN := x.cfgN, cfgG := x.cfgG, cfgC := x.cfgC, configured := decide (w 0 ≠ 0), n := w 0, g := w 4
         colours := if w 0 = 0 then 0 else w 1, beta := if w 0 = 0 then 0 else w 2, bsh := if w 0 = 0 then 0 else w 3 } ∧
       ∀ n, n < w 0 → y.x.get n = if n * 40503 % 65536 = 0 then 0xACE1 else n * 40503 % 65536)

/-- SM.READ, where no earlier write is in play: the counts, the bitmap of the states or the health record stand in the
scratchpad, and no other byte there has changed (R318). PROPCNT is a free value while the monitor that MON names has had no
whole window. -/
def Sys2Proof.Claims.ReadRuns : Prop :=
  ∀ bid ctx c s b0 key, Serves bid ctx c s → c.fn = 27 → s.writes = [] →
    (let x := (s.b bid).sm.get ctx
     let a := s.array (s.b bid).arrayCore
     let map := fun k => ((List.range 32).map fun i =>
       if 32 * k + i < x.n ∧ x.st.get (32 * k + i) = true then 2 ^ i else 0).foldl (· + ·) 0
     let propcnt := if a.mon < 32 then (match a.propcnt.get a.mon with
       | 0 => (Config.freeWord s.free).toNat
       | n + 1 => n) else 0
     let out : List Byte := match (c.blk.getD 1 0#32).toNat with
       | 0 => (List.range x.n).flatMap fun n => leBytes 4 (x.count.get n)
       | 1 => (List.range ((x.n + 31) / 32)).flatMap fun k => leBytes 4 (map k)
       | _ => leBytes 4 (x.poison.toNat * 16 + x.mode * 8 + x.bxdrop.toNat * 4 + x.badent.toNat * 2 + a.failed.toNat) ++
           leBytes 4 propcnt ++ leBytes 4 a.mon ++ leBytes 4 x.sweeps ++ leBytes 8 x.updates ++ List.replicate 8 0#8
     s.smPlace bid (c.blk.getD 0 0#32).toNat out.length = .scratch b0 key →
     ∃ t, exec (.samplingCommandRun bid ctx) s = .next t ∧ t.groups = s.groups ∧ t.mem = s.mem ∧
       bare ((t.b bid).sm.get ctx) = bare x ∧ Finished bid 2 ctx c.num none s t ∧
       ∀ k, (t.b b0).scratch.get k = if key ≤ k ∧ k < key + out.length then out.getD (k - key) 0#8 else (s.b b0).scratch.get k)

/-- SM.BX starts: it reads its entries and the states they name, and its landings follow (R308, R320). -/
def Sys2Proof.Claims.ExchangeRuns : Prop :=
  ∀ bid ctx c s, Serves bid ctx c s → c.fn = 29 → ∃ t, exec (.samplingCommandRun bid ctx) s = .next t ∧
    t.groups = s.groups ∧ t.mem = s.mem ∧ (t.array (s.b bid).arrayCore).busy = some ctx ∧
    (let x := (s.b bid).sm.get ctx
     let y := (t.b bid).sm.get ctx
     let ws := s.smWords bid ctx c.num (c.blk.getD 0 0#32).toNat (c.blk.getD 1 0#32).toNat
     let good := fun w => bits w 31 22 == 0 && decide (bits w 10 0 < x.n)
     y.bx = some ((ws.filterMap id).filter good |>.map fun w => (bits w 21 11, x.st.get (bits w 10 0))) ∧
       y.c = x.c ∧ y.st = x.st ∧
       (y.badent = true ↔ x.badent = true ∨ ∃ w, w ∈ ws ∧ ∀ v, w = some v → good v = false) ∧
       (y.poison = true ↔ x.poison = true ∨ none ∈ ws))

/-- One monitored draw: the repetition test at its position, the proportion test where its monitor's window is whole
(R322). -/
def Sys2Proof.Claims.MonitorTests : Prop :=
  ∀ (a : SmArray) pos v, (
    let k := pos / 64
    let r := a.count pos v
    let below := a.below.get k + if v < 32768 then 1 else 0
    (r.2 = some k ↔ (a.last.get pos = v + 1 ∧ 5 ≤ a.run.get pos) ∨
      (a.draws.get k = 65535 ∧ (below < 31488 ∨ 34048 < below))) ∧
    (r.2 = none ∨ r.2 = some k) ∧
    r.1.draws.get k = (if a.draws.get k = 65535 then 0 else a.draws.get k + 1) ∧
    r.1.below.get k = (if a.draws.get k = 65535 then 0 else below) ∧
    (a.draws.get k = 65535 → r.1.propcnt.get k = below + 1) ∧
    r.1.failed = a.failed ∧ r.1.mon = a.mon)

/-- SM.HLTH: each monitor makes its draws from cleared state; with no failing test FAILED is 0, else it is 1, MON names a
failing monitor, and the command records SAMPLER_HEALTH (R319). -/
def Sys2Proof.Claims.HealthRuns : Prop :=
  ∀ bid ctx c s, Serves bid ctx c s → c.fn = 28 → ∃ t, exec (.samplingCommandRun bid ctx) s = .next t ∧
    t.groups = s.groups ∧ t.mem = s.mem ∧ bare ((t.b bid).sm.get ctx) = bare ((s.b bid).sm.get ctx) ∧
    (let a := t.array (s.b bid).arrayCore
     a.draws = [] ∧ a.below = [] ∧ a.last = [] ∧ a.run = [] ∧
     ((∀ k, k < 32 → (monitorRun s.free k).2 = none) →
       a.failed = false ∧ a.mon = 0xFFFFFFFF ∧ Finished bid 2 ctx c.num none s t) ∧
     ((∃ k, k < 32 ∧ (monitorRun s.free k).2 ≠ none) →
       a.failed = true ∧ a.mon < 32 ∧ (monitorRun s.free a.mon).2 ≠ none ∧
         Finished bid 2 ctx c.num (some { code := 0x12, tval := BitVec.ofNat 32 a.mon, taddr := c.num }) s t))

/-- The nodes that the running colour step of a context updates, in their order. -/
def Sys2Proof.Claims.stepNodes (x : SmCtx) (c : SmCmd) (w : Sweep) : List Nat :=
  (List.range x.n).filter fun n => x.clamp.get n == 0 && x.colour.get n == (c.slot w.slot).getD 8

/-- The monitored draws of a colour step: draw k, a fresh free value, is that of the k-th node. -/
def Sys2Proof.Claims.monitored (a : SmArray) (x : SmCtx) (free : Nat) (nodes : List Nat) : SmArray × Option Nat :=
  nodes.zipIdx.foldl (fun r e =>
    ((r.1.draw (x.pos.get e.1) (Config.noise (free + e.2)).toNat).1,
      r.2.or (r.1.draw (x.pos.get e.1) (Config.noise (free + e.2)).toNat).2)) (a, none)

/-- A colour step runs on an array: its context, its command, and where its sweep stands. -/
def Sys2Proof.Claims.Sweeps (core bid ctx : Nat) (c : SmCmd) (w : Sweep) (s : State) : Prop :=
  (s.array core).bound = some bid ∧ (s.array core).busy = some ctx ∧ (s.b bid).arrayCore = core ∧
    (∃ r, ((s.b bid).sm.get ctx).queue = c :: r) ∧ ((s.b bid).sm.get ctx).running = some w

/-- A colour step in physical mode: each node of the colour takes a fresh draw against its table entry, from the states and
the ghosts as they stood (R302, R304, R308). With MONEN set, a failing test ends the command: FAILED is 1, MON names the
monitor, and the sweep counts nothing (R306, R322). -/
def Sys2Proof.Claims.PhysicalStep : Prop :=
  ∀ core bid ctx c w s, Sweeps core bid ctx c w s → ((s.b bid).sm.get ctx).mode = 0 →
    ∃ t, exec (.colourStep core) s = .next t ∧ t.groups = s.groups ∧ t.mem = s.mem ∧
    (let x := { (s.b bid).sm.get ctx with latched := ((s.b bid).sm.get ctx).ghosts }
     let y := (t.b bid).sm.get ctx
     let nodes := stepNodes x c w
     (∀ g, g < x.g → x.latched.get g = x.st.get (x.n + g)) ∧ y.latched = x.latched ∧ y.x = x.x ∧
     (∀ k, k < nodes.length → y.st.get (nodes.getD k 0) =
       decide ((Config.noise (s.free + k)).toNat < probOf (x.activation (nodes.getD k 0)))) ∧
     (∀ n, n ∉ nodes → y.st.get n = x.st.get n) ∧ y.updates = (x.updates + nodes.length) % 2 ^ 64 ∧
     ∀ k, (s.co core).smctl.getLsbD 0 = true → (monitored (s.array core) x s.free nodes).2 = some k →
       (t.array core).failed = true ∧ (t.array core).mon = k ∧ (t.array core).busy = none ∧ y.running = none ∧
       y.count = x.count ∧ y.sweeps = x.sweeps ∧
       Finished bid 2 ctx c.num (some { code := 0x12, tval := BitVec.ofNat 32 k, taddr := c.num }) s t)

/-- What follows a colour step at which no test fails: the next slot; or the sweep ends, counted from START on, and the next
sweep or the command's completion follows (R306, R317). -/
def Sys2Proof.Claims.SweepGoesOn : Prop :=
  ∀ core bid ctx c w s, Sweeps core bid ctx c w s →
    (((s.b bid).sm.get ctx).mode = 1 ∨ ((s.b bid).sm.get ctx).mode = 0 ∧ ((s.co core).smctl.getLsbD 0 = false ∨
      (monitored (s.array core) ((s.b bid).sm.get ctx) s.free (stepNodes ((s.b bid).sm.get ctx) c w)).2 = none)) →
    ∃ t, exec (.colourStep core) s = .next t ∧ (t.array core).failed = (s.array core).failed ∧
    (let x := (s.b bid).sm.get ctx
     let y := (t.b bid).sm.get ctx
     let ended := (c.slot (w.slot + 1)).isNone
     let last := ended && decide ((c.blk.getD 0 0#32).toNat ≤ w.t + 1)
     (∀ n, n < x.n → y.count.get n =
       if ended = true ∧ (c.blk.getD 2 0#32).toNat % 2 ^ 31 ≤ w.t ∧ y.st.get n = true then min (x.count.get n + 1) (2 ^ 32 - 1)
       else x.count.get n) ∧
     y.sweeps = (if ended = true then min (x.sweeps + 1) (2 ^ 32 - 1) else x.sweeps) ∧
     y.running = (if last = true then none else if ended = true then some { t := w.t + 1, slot := 0 }
       else some { t := w.t, slot := w.slot + 1 }) ∧
     (last = true → (t.array core).busy = none ∧ Finished bid 2 ctx c.num none s t) ∧
     (last = false → (t.array core).busy = some ctx ∧ y.c = x.c ∧ y.queue = x.queue))

/-- The runs of the sampling commands, and the colour step of either mode. -/
def Sys2Proof.Claims.SamplingRuns : Prop :=
  ConfigRuns ∧ ListRuns 21 (fun _ c => (c.blk.getD 1 0#32).toNat) id SmCtx.ldcEntry ∧ CouplingEntry ∧
    ListRuns 22 (fun x _ => x.n) id SmCtx.ldbWord ∧
    ListRuns 23 (fun _ c => (c.blk.getD 1 0#32).toNat) (fun x => { x with clamp := [] }) SmCtx.clampEntry ∧ NodeEntries ∧
    ReadRuns ∧ HealthRuns ∧ MonitorTests ∧ ExchangeRuns ∧ PhysicalStep ∧ SweepGoesOn

/-- A sampling command runs; a colour step of replay mode; the landing of a boundary exchange; an array that is given up. -/
def Sys2Proof.Claims.SamplingEvents : Prop :=
  (∀ bid ctx s c r, ((s.b bid).sm.get ctx).queue = c :: r → (s.array (s.b bid).arrayCore).bound = some bid →
      (s.array (s.b bid).arrayCore).busy = none → s.smNext bid = some ctx → ∃ t, exec (.samplingCommandRun bid ctx) s = .next t ∧
        (t.array (s.b bid).arrayCore).turn = (ctx + 1) % 4 ∧
        t.groups = s.groups ∧
        (let x := (s.b bid).sm.get ctx
         let y := (t.b bid).sm.get ctx
         (c.fn = 25 → y.mode = c.mode ∧ Finished bid 2 ctx c.num none s t ∧
           (c.mode = 1 → ∀ n, n < x.n → y.x.get n =
             (let v := (c.blk.getD 0 0#32).toNat % 65536 ^^^ (n * 40503 % 65536)
              if v = 0 then 0xACE1 else v)) ∧
           (c.mode ≠ 1 → y.x = x.x)) ∧
         (c.fn = 24 → (∀ w, w ∈ s.smWords bid ctx c.num (c.blk.getD 0 0#32).toNat ((x.n + 31) / 32) → w.isSome = true) →
           Finished bid 2 ctx c.num none s t ∧ ∀ n, n < x.n → y.st.get n =
             if x.clamp.get n = 0 then
               (match (s.smWords bid ctx c.num (c.blk.getD 0 0#32).toNat ((x.n + 31) / 32)).getD (n / 32) none with
                | some w => bit w (n % 32)
                | none => false)
             else x.st.get n) ∧
         (c.fn = 26 → (x.mode = 1 ∨ (s.array (s.b bid).arrayCore).failed = false) →
           y.running = some {} ∧ (t.array (s.b bid).arrayCore).busy = some ctx ∧
             y.count = if (c.blk.getD 2 0#32).msb then x.count else []))) ∧
    (∀ core s bid ctx c r w, (s.array core).bound = some bid → (s.array core).busy = some ctx → (s.b bid).arrayCore = core →
      ((s.b bid).sm.get ctx).queue = c :: r → ((s.b bid).sm.get ctx).running = some w → ((s.b bid).sm.get ctx).mode = 1 →
      ∃ t, exec (.colourStep core) s = .next t ∧ t.groups = s.groups ∧ t.mem = s.mem ∧
        (let x := (s.b bid).sm.get ctx
         let y := (t.b bid).sm.get ctx
         let hit := fun n => decide (n < x.n) && x.clamp.get n == 0 && x.colour.get n == (c.slot w.slot).getD 8
         let next := fun n => if x.x.get n % 2 = 1 then x.x.get n / 2 ^^^ 0xB400 else x.x.get n / 2
         (∀ n, n < x.n → y.st.get n = if hit n then decide (next n < probOf (x.activation n)) else x.st.get n) ∧
         (∀ n, n < x.n → y.x.get n = if hit n then next n else x.x.get n) ∧
         y.updates = (x.updates + (List.range x.n).countP hit) % 2 ^ 64)) ∧
    (∀ bid ctx s c r e, ((s.b bid).sm.get ctx).bx = some [e] → ((s.b bid).sm.get ctx).queue = c :: r →
      ∃ t, exec (.bxLanding bid ctx) s = .next t ∧ t.groups = s.groups ∧ t.mem = s.mem ∧
        ((t.b bid).sm.get ctx).bx = none ∧
        (let tcore := (c.blk.getD 2 0#32).toNat % 256
         let tctx := (c.blk.getD 2 0#32).toNat / 256 % 4
         (∀ tb, s.landingBlock (s.b bid).grid tcore = some tb → ((s.b tb).sm.get tctx).configured = true →
           e.1 < ((s.b tb).sm.get tctx).g → ((t.b tb).sm.get tctx).st.get (((s.b tb).sm.get tctx).n + e.1) = e.2) ∧
         (s.landingBlock (s.b bid).grid tcore = none → ((t.b bid).sm.get ctx).bxdrop = true))) ∧
    ∀ core s bid, (s.array core).bound = some bid → (s.b bid).gone = true → (s.b bid).smLoad = 0 →
      ∃ t, exec (.arrayUnbind core) s = .next t ∧ t.array core = {} ∧ t.groups = s.groups ∧ t.mem = s.mem ∧
        ∀ k, k < 4 → ((t.b bid).sm.get k).configured = false ∧ ((t.b bid).sm.get k).n = 0 ∧
          ((t.b bid).sm.get k).cfgN = 0 ∧ ((t.b bid).sm.get k).c = ((s.b bid).sm.get k).c

/-- A collective that the k-th command of its COMM on every other member has reached writes its result to the destination and
completes; where one of them differs it writes nothing and records POISON. -/
def Sys2Proof.Claims.CollectiveCompletion : Prop :=
  (∀ bid ctx num peers s c pa mir, ((s.b bid).col.get ctx).queue.find? (fun d => decide (d.num = num)) = some c →
      s.colLost c = false → s.colMatched c (c.parts peers) = true →
      (∀ p, p ∈ c.parts peers → c.differs p = false ∧ p.lost = false) → c.marked = false →
      (let own := s.colSource c (ctxWord 3 ctx)
       let out := c.result (s.colData (s.engReader bid 3 ctx c.num) c own (c.parts peers))
       (∀ p, p ∈ own → ∃ q, p = .ok q ∧ s.placePo q 1 = false) →
       (∀ k, k < out.length → s.colPlace c (ctxWord 3 ctx) true ((c.dst + k) % 2 ^ 64) = .ok (.dev (pa + k) mir)) →
       ∃ t, exec (.collectiveComplete bid ctx num peers) s = .next t ∧ t.groups = s.groups ∧
         Finished bid 3 ctx num none s t ∧
         (∀ k, k < out.length → t.devByte (pa + k) = out.getD k 0#8 ∨
           (t.devByte (pa + k) = s.devByte (pa + k) ∧ s.writes ≠ [])) ∧
         ∀ a, (a < pa ∨ pa + out.length ≤ a) → t.devByte a = s.devByte a)) ∧
    (∀ bid ctx num peers s c p, ((s.b bid).col.get ctx).queue.find? (fun d => decide (d.num = num)) = some c →
      s.colLost c = false → s.colMatched c (c.parts peers) = true → p ∈ c.parts peers → c.differs p = true →
      ∃ t, exec (.collectiveComplete bid ctx num peers) s = .next t ∧ t.groups = s.groups ∧ t.mem = s.mem ∧
        Finished bid 3 ctx num (some { code := 0x0D, sub := 4, tval := BitVec.ofNat 32 (3 * 2 ^ 28 + ctx), taddr := num }) s t) ∧
    (∀ (c : ColCmd) data, c.fn = 33 → c.result data = data c.root) ∧
    (∀ (c : ColCmd) data, c.fn = 34 → c.result data = ((List.range 32).filter (bit c.mask)).flatMap data) ∧
    (∀ x y : Nat, x < 2 ^ 32 → y < 2 ^ 32 → colElem 0 0 [x, y] = leBytes 4 ((x + y) % 2 ^ 32) ∧
      colElem 0 1 [x, y] = leBytes 4 (fp2 FV.add (BitVec.ofNat 32 x) (BitVec.ofNat 32 y)).toNat) ∧
    ∀ (f : Word → Word → Word) a b c d, combineAll f 6 [a, b, c] = f (f a b) c ∧ combineAll f 6 [a, b, c, d] = f (f a b) (f c d)

/-- The events of the sampling arrays, and the completion of a collective command.
A choice of the model and not a rule of the spec stands in it: log entries 59, 60, 63, 65, 114, 141, 142 and 143. -/
def Obligations.SamplingAndCollectiveEvents : Prop := SamplingEvents ∧ SamplingRuns ∧ CollectiveCompletion

/-- LAUNCH takes a grid into its queue, refuses it with a reason, or waits for room. -/
def Sys2Proof.Claims.LaunchOutcomes : Prop :=
  (∀ h y x s r, scalarClean (.launch h y x) h s → Plain s → Room 5 s → s.examine s.cg (s.s2 x) = .error r →
      ∃ t, exec (.launch h y x) s = .next t ∧ ReplyStep 5 [(y, BitVec.ofNat 32 (2 ^ 31 + r))] s t ∧ t.grids = s.grids ∧
        t.queues = s.queues) ∧
    (∀ h y x s p obj, scalarClean (.launch h y x) h s → Plain s → Room 5 s → s.examine s.cg (s.s2 x) = .ok (p, obj) →
      (s.queues.get p.prio).length < 1024 → ∃ t k, exec (.launch h y x) s = .next t ∧ 0 < k ∧ k < 2 ^ 31 ∧
        (s.gr k).live = false ∧ ReplyStep 5 [(y, BitVec.ofNat 32 k)] s t ∧ (t.gr k).live = true ∧
        ((∀ d, d ∈ p.deps → (s.gr d).meets = false ∧ (s.gr d).doomed = false) →
          t.gr k = { live := true, p := p, obj := obj, queuedAt := s.cycle, after := [s.log.length] } ∧
          (∀ j, j ≠ k → t.gr j = s.gr j) ∧
          t.queues.get p.prio = s.queues.get p.prio ++ [k] ∧ ∀ q, q ≠ p.prio → t.queues.get q = s.queues.get q) ∧
        ∀ d, d ∈ p.deps → (s.gr d).doomed = true → (t.gr k).state = .killed) ∧
    (∀ h y x s p obj, scalarClean (.launch h y x) h s → s.examine s.cg (s.s2 x) = .ok (p, obj) →
      1024 ≤ (s.queues.get p.prio).length → exec (.launch h y x) s = .next s.beginIssue.wait) ∧
    ∀ s g va, va % 8 ≠ 0 → State.examine s g va = .error (if s.grids.length < 4096 then 12 else 10)

/-- TRIG, JOINW, WQ.NEXT, RECV and SEND. -/
def Sys2Proof.Claims.GridAndHostMessages : Prop :=
  (∀ h s, scalarClean (.trig h) h s → Plain s → ∃ t, exec (.trig h) s = .next t ∧ MemoryKept s t ∧ OthersKept s t ∧
      Advanced s t ∧ t.cg.triggered = true ∧ (∃ e, t.log = e :: s.log ∧ e.rel = true ∧ e.scope = 6) ∧
      { t.cg with triggered := s.cg.triggered, splits := s.cg.splits, compared := s.cg.compared } = s.cg ∧
      (t.gr s.cgrid).triggers = (s.gr s.cgrid).triggers + if s.cg.triggered then 0 else 1) ∧
    (∀ h y x s b key, scalarClean (.joinw h y x) h s → Direct s → joinCheck x y s = none → SMap.canon s.grids = true →
      (s.paramsOf s.cg).scratch ≤ 1572864 → spadAt s x (8 * (s.s y).toNat) b key →
      (let handle := fun j => (scratchWord s b (key + 8 * j)).toNat
       let n := (s.s y).toNat
       ((∀ j, j < n → (s.gr (handle j)).live = false ∨ (s.gr (handle j)).terminal = true) →
        ∃ t, exec (.joinw h y x) s = .next t ∧ ScratchStep b key (8 * n) s t ∧
          (∀ j, j < n → scratchWord t b (key + 8 * j) = scratchWord s b (key + 8 * j) ∧
            (reached s s.cs.mask (.scratch b key) (8 * n) → scratchWord t b (key + 8 * j + 4) =
              if 0 < handle j ∧ handle j < 2 ^ 31 ∧ (s.gr (handle j)).live = true then (s.gr (handle j)).status else 5#32)) ∧
          ∀ k, (t.gr k).live = true ↔ (s.gr k).live = true ∧
            ¬ (k < 2 ^ 31 ∧ (s.gr k).terminal = true ∧ ∃ j, j < n ∧ handle j = k)) ∧
       ∀ j, j < n → s.cs.waitOn = none → (s.gr (handle j)).live = true → (s.gr (handle j)).terminal = false →
        ∃ t, exec (.joinw h y x) s = .next t ∧ OutsideKept s t ∧ t.cur.issued = false ∧
          t.cs = { s.cs with waitOn := some .joinw })) ∧
    (∀ h x s b key, scalarClean (.wqNext h x) h s → Direct s → wqCheck x s = none → Room 4 s → spadAt s x 8 b key →
      0 < (s.gr s.cgrid).p.wqx → (s.gr s.cgrid).next < 2 ^ 32 →
      (let i := (s.gr s.cgrid).next
       let p := (s.gr s.cgrid).p
       ∃ t, exec (.wqNext h x) s = .next t ∧ (t.gr s.cgrid).next = (if i < p.wqCount then i + 1 else i) ∧
        AnswerStep b key
          (if i < p.wqCount then leBytes 4 i ++ leBytes 4 (i / p.wqx % 65536 * 65536 + i % p.wqx)
           else leBytes 4 0xFFFFFFFF ++ leBytes 4 0) s t)) ∧
    (∀ h y x s b key, scalarClean (.recv h y x) h s → Direct s → msgCheck x y s = none → Room 4 s → spadAt s x 64 b key →
      (∀ m r, s.inlets.get (s.s y).toNat = m :: r → m.length = 64 → s.inletHeld.get (s.s y).toNat = [] →
        ∃ t, exec (.recv h y x) s = .next t ∧ AnswerStep b key m s t ∧ t.inlets.get (s.s y).toNat = r) ∧
      (s.inlets.get (s.s y).toNat = [] → ∃ t, exec (.recv h y x) s = .next t ∧ AnswerStep b key (leBytes 4 0) s t)) ∧
    (∀ h y x s b key, scalarClean (.send h y x) h s → Direct s → msgCheck x y s = none → Room 2 s → spadAt s x 64 b key →
      s.outletFull (s.s y).toNat = false → ∃ t m, exec (.send h y x) s = .next t ∧ CountedScratchStep 2 b key 0 s t ∧
        m.length = 64 ∧ sees s s.cs.mask (.scratch b key) 64 m ∧
        t.outlets.get (s.s y).toNat = s.outlets.get (s.s y).toNat ++ [m]) ∧
    ∀ h y x s, scalarClean (.send h y x) h s → msgCheck x y s = none → s.outletFull (s.s y).toNat = true →
      s.cs.waitOn = none → ∃ t, exec (.send h y x) s = .next t ∧ OutsideKept s t ∧ t.cur.issued = false ∧
        t.cs = { s.cs with waitOn := some .outlet }

/-- LAUNCH and what it refuses, triggers, joins, the furrow and host messages. That a record table which is full gives reason
10 before the reason 12 of a misaligned block is the model's reading (log entry 66).
A choice of the model and not a rule of the spec stands in it: log entries 66, 68, 114 and 134. -/
def Obligations.LaunchesAndMessages : Prop := LaunchOutcomes ∧ GridAndHostMessages

/-- The frame of a group lies in device memory, whole, and its handler's header can be read (R363, R364). -/
def Sys2Proof.Claims.EntryWays (gid : Nat) (tr : Trap) (pa : Nat) (mir : Bool) (hb : List Byte) (s : State) : Prop :=
  let g := s.g gid
  let c := s.co g.core
  (s.translate g.core true .store (c.tfbase + 512 * g.slot)).1 = .ok (.dev pa mir) ∧
    (((s.translate g.core true .store (c.tfbase + 512 * g.slot)).2).headerBytes g true c.tvec).1 = some hb ∧
    g.framePoison = false ∧ pa % 512 = 0 ∧ reachedBy s (s.lanesAt gid allLanes) (.dev pa mir) 512 ∧ tr.code < 4096 ∧
    tr.sub < 256 ∧ tr.taddr < 2 ^ 64 ∧ tr.tpc < 2 ^ 32

/-- A group has entered its handler (R363): its table, its masks and its registers, and the frame of R364 at pa. -/
def Sys2Proof.Claims.HandlerEntered (gid : Nat) (tr : Trap) (pa : Nat) (hb : List Byte) (s t : State) : Prop :=
  let g := s.g gid
  let c := s.co g.core
  (∀ k, k ≠ gid → t.g k = s.g k) ∧
    (let g' := t.g gid
     g'.handler = true ∧ g'.priv = true ∧ g'.stop = .running ∧ g'.held = 0#32 ∧ g'.mmask = 0xFFFFFFFF#32 ∧
     (∀ l, g'.plane.get l = 0) ∧ g'.frameVa = c.tfbase + 512 * g.slot ∧
     (∀ k, (g'.splits.get k).valid = decide (k = 0)) ∧ (g'.splits.get 0).offset = field32 hb 0x300 ∧
     (g'.splits.get 0).mask = g.alive ∧
     g'.sr.get 48 = BitVec.ofNat 32 (c.tfbase + 512 * g.slot) ∧
     g'.sr.get 49 = BitVec.ofNat 32 ((c.tfbase + 512 * g.slot) / 2 ^ 32) ∧
     g'.sr.get 50 = BitVec.ofNat 32 (tr.code * 65536 + tr.sub * 256 + if g.priv then 128 else 0) ∧ g'.sr.get 51 = tr.tval ∧
     (∀ r, (r < 48 ∨ 52 ≤ r) → g'.sr.get r = g.sr.get r) ∧ g'.vr = g.vr ∧ g'.pr = g.pr ∧ g'.lfsr = g.lfsr ∧
     g'.exited = g.exited ∧ g'.dead = g.dead) ∧
    devWord t pa = BitVec.ofNat 32 (tr.code * 65536 + tr.sub * 256 + if g.priv then 128 else 0) ∧
    devWord t (pa + 4) = tr.tval ∧ devWord t (pa + 0x10) = BitVec.ofNat 32 tr.tpc ∧ devWord t (pa + 0x14) = g.recno ∧
    devWord t (pa + 0x18) = g.mmask ∧ devWord t (pa + 0x1C) = g.xstat ∧ devWord t (pa + 0x68) = g.held ∧
    devWord t (pa + 0x6C) = g.exited ∧ devWord t (pa + 0x70) = g.dead ∧ devWord t (pa + 0x74) = g.clockHi ∧
    devWord t (pa + 0x78) = g.ovf ∧
    (∀ k, k < 16 → devWord t (pa + 0x100 + 4 * k) = g.sr.get (48 + k)) ∧
    (∀ l, l < 32 → devWord t (pa + 0x140 + 4 * l) = g.vr.get (32 * 63 + l)) ∧
    ∀ a, (a < pa ∨ pa + 512 ≤ a) → t.devByte a = s.devByte a

/-- A drained group enters its handler at its trap, where the trap is delegated; SIGNATURE sub-code 0 queues a report, or
counts as dropped, and restarts the region, at once or when the accesses have completed (R362, R372, R374). -/
def Sys2Proof.Claims.DelegatedAndReported : Prop :=
  (∀ (s : State) (gid : Nat) (tr : Trap) pa mir hb, (s.g gid).poisonPass = none → (s.g gid).handler = false →
      tr.precise = true → (s.co (s.g gid).core).tctl.getLsbD 0 = true →
      (s.co (s.g gid).core).tdeleg.getLsbD tr.code = true → (s.g gid).drained = true → (s.g gid).mmaskNext = none →
      (s.g gid).ovfNext = none → (s.g gid).live = true → EntryWays gid tr pa mir hb s →
      HandlerEntered gid tr pa hb s (s.trap gid tr)) ∧
    ∀ (s : State) (gid : Nat) (tr : Trap), (s.g gid).poisonPass = none → (s.g gid).handler = false → tr.code = 0x0C →
      tr.sub = 0 → noneEnters s gid →
      (let die := dieOf (s.g gid).core
       let t := s.trap gid tr
       (∀ k, k ≠ gid → t.g k = s.g k) ∧ t.mem = s.mem ∧
       ((s.di die).unreserved < 248 → (t.di die).drop = (s.di die).drop ∧
         ∃ r, (t.di die).queue = (s.di die).queue ++ [r] ∧ r.report = true ∧ r.fatal = false ∧ r.replay = false ∧
           r.token = 0 ∧ r.t = tr ∧ r.grid = s.gridOf (s.g gid)) ∧
       (248 ≤ (s.di die).unreserved → (t.di die).queue = (s.di die).queue ∧
         (t.di die).drop = min ((s.di die).drop + 1) 255) ∧
       ((s.g gid).drained = true → RegionRestarted (s.g gid).settleMask (t.g gid)) ∧
       ((s.g gid).drained = false → t.g gid = { (s.g gid).settleMask with stop := .restart }))

/-- The poison pass (R372): a second mismatch in a region begins it and restarts the region; its stores carry the mark, it
queues no report, and whatever ends it the group ends with the fatal SIGNATURE sub-code 1. -/
def Sys2Proof.Claims.PoisonPasses : Prop :=
  (∀ h lit s, scalarClean (.sigchk h lit) h s → Plain s → s.paired s.cur.gid = false → ~~~ s.cs.sig ≠ BitVec.ofNat 32 lit →
      s.cg.region.sigtry ≠ 0 → s.cg.handler = false → ∃ t u, exec (.sigchk h lit) s = .next t ∧ OthersKept s t ∧
        t.mem = s.mem ∧ t.dies = s.dies ∧
        u = { s.cg with poisonPass := some (0, { s.mkTrap 0x0C 1 (~~~ s.cs.sig) lit with }) } ∧
        t.cg.poisonPass = u.poisonPass ∧ (s.cg.drained = true → RegionRestarted u t.cg) ∧
        (s.cg.drained = false → t.cg = { u with stop := .restart })) ∧
    (∀ s n tr, s.cg.poisonPass = some (n, tr) → slotFree s s.cur.gid →
      (let die := dieOf s.cg.core
       let ends := fun t => FatalStep s.cur.gid tr false s t ∧ (t.di die).uncorr = min ((s.di die).uncorr + 1) 65535
       (∀ h lit, scalarClean (.sigchk h lit) h s → ∃ t, exec (.sigchk h lit) s = .next t ∧ ends t) ∧
       (∀ h, scalarClean (.region h) h s → ∃ t, exec (.region h) s = .next t ∧ ends t) ∧
       (∀ e, ends (s.trap s.cur.gid e)) ∧
       (n + 1 < 2 ^ 20 → (s.countPass s.cur.gid).cg = { s.cg with poisonPass := some (n + 1, tr) }) ∧
       (2 ^ 20 ≤ n + 1 → ends (s.countPass s.cur.gid)))) ∧
    (∀ (s : State) gid tr, (s.g gid).poisonPass ≠ none → s.report gid tr = s) ∧
    ∀ (s : State) p bytes po lanes scope rel va, s.cg.poisonPass ≠ none →
      (s.storeOf p bytes po lanes scope rel va).poison = true

/-- TRET that does not resume at the faulting instruction (R366): past it, at the region's start, or fatal. -/
def Sys2Proof.Claims.HandlerReturns : Prop :=
  ∀ h s f, scalarClean (.tret h) h s → s.cg.handler = true → s.tretReady = true → (s.readFrame s.cur.gid).1 = .ok f →
    (let priv := (s.paramsOf s.cg).privileged
     let g := f.restore s.cg priv
     let fatal := fun tr => ∃ t, exec (.tret h) s = .next t ∧ FatalStep s.cur.gid tr true s t
     (Plain s → slotFree s s.cur.gid →
       (f.poisoned = true → fatal (s.mkTrap 0x0D 2 0#32)) ∧
       (f.poisoned = false → f.misuse = true → fatal (s.mkTrap 0x10 1 (BitVec.ofNat 32 (f.w 0)))) ∧
       (f.poisoned = false → f.misuse = false → g.inconsistent = true →
         fatal (s.mkTrap 0x10 2 (BitVec.ofNat 32 (f.w 0))))) ∧
     (f.poisoned = false → f.misuse = false → g.inconsistent = false →
       (∀ n, f.w 0 / 16 % 4 = 1 →
         (((s.readFrame s.cur.gid).2.setG s.cur.gid g).codeLength g (f.w 0x10 / 2 ^ 22 % 4) (f.w 0x10 % 2 ^ 20)).1 = .ok n →
         ∃ t g', exec (.tret h) s = .next t ∧ MemoryKept s t ∧ OthersKept s t ∧ FrameRestored f priv s.cg g' ∧
           t.cg = { g' with splits := g'.splits.upd (f.w 0x10 / 2 ^ 20 % 4) fun x =>
             if x.valid = true then { x with offset := (f.w 0x10 + n) % 2 ^ 20, waitOn := none } else x }) ∧
       (f.w 0 / 16 % 4 = 2 → ∃ t g', exec (.tret h) s = .next t ∧ MemoryKept s t ∧ OthersKept s t ∧
         FrameRestored f priv s.cg g' ∧ RegionRestarted g' t.cg)))

/-- What taking a trap does, by the first rule that applies. A member mask or an overflow table that was written in the cycle
takes effect first.
That a group which stops for the supervisor absorbs a further fault is the model's reading (log entry 40).
A choice of the model and not a rule of the spec stands in it: log entries 40, 49 and 114. -/
def Obligations.TrapDelivery : Prop :=
  (∀ (s : State) (gid : Nat) (tr : Trap), (s.g gid).poisonPass = none → (s.g gid).handler = true → slotFree s gid →
      FatalStep gid tr true s (s.trap gid tr)) ∧
    (∀ (s : State) (gid : Nat) (tr : Trap), (s.g gid).poisonPass = none → (s.g gid).handler = false → tr.precise = true →
      (s.co (s.g gid).core).tctl.getLsbD 0 = true → (s.co (s.g gid).core).tdeleg.getLsbD tr.code = true →
      (s.g gid).drained = false → (s.trap gid tr).g gid = { (s.g gid).settleMask with stop := .enter tr } ∧
        (s.trap gid tr).mem = s.mem) ∧
    (∀ (s : State) (gid : Nat) (tr : Trap), (s.g gid).poisonPass = none → (s.g gid).handler = false →
      s.groups.length < 2 ^ 31 →
      (tr.precise = false ∨ (s.co (s.g gid).core).tctl.getLsbD 0 = false ∨
        (s.co (s.g gid).core).tdeleg.getLsbD tr.code = false) →
      (tr.code = 0x08 ∨ tr.code = 0x0D ∧ tr.sub = 0 ∧ (s.co (s.g gid).core).tctl.getLsbD 1 = true) →
      ((s.g gid).drained = false → (s.trap gid tr).g gid = { (s.g gid).settleMask with stop := .faulted tr } ∧
        (s.trap gid tr).dies = s.dies ∧ (s.trap gid tr).mem = s.mem) ∧
      ((s.g gid).drained = true → noneEnters s gid → ∃ token, 0 < token ∧ token < 2 ^ 32 ∧
        (∀ k, k ≠ gid → (s.g k).holdsToken token = false) ∧ (s.trap gid tr).tokens = token ∧
        ((s.trap gid tr).g gid).stop =
            .replay tr token (decide ((s.di (dieOf (s.g gid).core)).unreserved < 248)) ∧
          ((s.di (dieOf (s.g gid).core)).unreserved < 248 → ∃ r,
            ((s.trap gid tr).di (dieOf (s.g gid).core)).queue = (s.di (dieOf (s.g gid).core)).queue ++ [r] ∧
              r.replay = true ∧ r.token = token ∧ r.t = tr))) ∧
    DelegatedAndReported ∧
    ∀ (s : State) (gid : Nat) (tr : Trap), (s.g gid).poisonPass = none → (s.g gid).handler = false →
      (tr.precise = false ∨ (s.co (s.g gid).core).tctl.getLsbD 0 = false ∨
        (s.co (s.g gid).core).tdeleg.getLsbD tr.code = false) →
      tr.code ≠ 0x08 → ¬ (tr.code = 0x0D ∧ tr.sub = 0 ∧ (s.co (s.g gid).core).tctl.getLsbD 1 = true) →
      ¬ (tr.code = 0x0C ∧ tr.sub = 0) → slotFree s gid → FatalStep gid tr false s (s.trap gid tr)

/-- HANDLER_ENTRY of a group whose frame lies in device memory and whose handler can be read; with poison in a register
that the frame saves, the trap is fatal with NEST (the model's reading of R363, log entry 76).
A choice of the model and not a rule of the spec stands in it: log entries 76 and 114. -/
def Obligations.HandlerEntry : Prop :=
  (∀ (s : State) (gid : Nat) (tr : Trap), (s.g gid).stop = .enter tr → (s.g gid).drained = true →
      (s.g gid).framePoison = true → slotFree s gid → (s.b (s.g gid).bid).resident = true →
      ∃ t, exec (.handlerEntry gid) s = .next t ∧ FatalStep gid tr true s t) ∧
  (∀ (s : State) (gid : Nat), (s.b (s.g gid).bid).state = .saved → exec (.handlerEntry gid) s = .next s) ∧
  ∀ (s : State) (gid : Nat) (tr : Trap) pa mir hb, (s.g gid).stop = .enter tr → (s.g gid).drained = true → (s.g gid).live = true →
    (s.b (s.g gid).bid).resident = true → EntryWays gid tr pa mir hb s →
    ∃ t, exec (.handlerEntry gid) s = .next t ∧ HandlerEntered gid tr pa hb s t

/-- TRAP, BRK, TRET, REGION, SIGCHK and TQ.POP. That poison in the frame's control state is fatal with POISON sub-code 2 is the
model's reading (log entry 78).
A choice of the model and not a rule of the spec stands in it: log entries 78, 79, 114 and 134. -/
def Obligations.TrapInstructions : Prop :=
  PoisonPasses ∧ HandlerReturns ∧
  (∀ h c s, scalarClean (.trap h c) h s →
      exec (.trap h c) s = .next (s.beginIssue.trapCur (s.beginIssue.mkTrap 0x0F 0 (BitVec.ofNat 32 c)))) ∧
    (∀ h s, scalarClean (.brk h) h s → exec (.brk h) s = .next (s.beginIssue.trapCur (s.beginIssue.mkTrap 0x0F 1 0#32))) ∧
    (∀ h s, scalarClean (.tret h) h s → s.cg.handler = false →
      exec (.tret h) s = .next (s.beginIssue.trapCur (s.beginIssue.mkTrap 0x10 0 0#32))) ∧
    (∀ h s f, scalarClean (.tret h) h s → s.cg.handler = true → s.tretReady = true → (s.readFrame s.cur.gid).1 = .ok f →
      f.poisoned = false → f.misuse = false → (f.restore s.cg (s.paramsOf s.cg).privileged).inconsistent = false →
      f.action = 0 → ∃ t, exec (.tret h) s = .next t ∧ MemoryKept s t ∧ OthersKept s t ∧
        FrameRestored f (s.paramsOf s.cg).privileged s.cg t.cg) ∧
    (∀ h s, scalarClean (.tret h) h s → s.cg.handler = true → s.tretReady = false →
      exec (.tret h) s = .next s.beginIssue.wait) ∧
    (∀ h s, scalarClean (.region h) h s → Plain s → s.regionReady = true → ∃ t, exec (.region h) s = .next t ∧ OutsideKept s t ∧
      t.cg.region = { entry := s.cur.here + 4, rmask := s.cs.mask, plane := s.cg.plane, lfsr := s.cg.lfsr, mmask := s.cg.mmask } ∧
      t.cg.recno = s.cg.recno + 1#32 ∧
      t.cs = { s.cs with offset := s.cur.next, waitOn := none, sig := 0xFFFFFFFF#32 } ∧
      { t.cg with region := s.cg.region, recno := s.cg.recno, pairTry := s.cg.pairTry, splits := s.cg.splits,
                  compared := s.cg.compared } = s.cg) ∧
    (∀ h lit s, scalarClean (.sigchk h lit) h s → Plain s → s.paired s.cur.gid = false → ~~~ s.cs.sig = BitVec.ofNat 32 lit →
      exec (.sigchk h lit) s = .next s.beginIssue.advance) ∧
    (∀ h lit s, scalarClean (.sigchk h lit) h s → Plain s → s.paired s.cur.gid = false → ~~~ s.cs.sig ≠ BitVec.ofNat 32 lit →
      s.cg.region.sigtry = 0 → s.cg.handler = false → ∃ u : State, exec (.sigchk h lit) s =
          .next (u.trapCur { s.mkTrap 0x0C 0 (~~~ s.cs.sig) lit with }) ∧
        u.cg = { s.cg with region := { s.cg.region with sigtry := 1 } } ∧
        (u.di (dieOf s.cg.core)).corr = min ((s.di (dieOf s.cg.core)).corr + 1) 65535) ∧
    ∀ h y x s b key, scalarClean (.tqPop h y x) h s → Direct s → tqPopCheck x y s = none → Room 4 s → spadAt s x 64 b key →
      (∀ r rest, (s.di (s.s y).toNat).queue = r :: rest → r.bytes.length = 64 ∧ ∃ t, exec (.tqPop h y x) s = .next t ∧
        AnswerStep b key r.bytes s t ∧ (t.di (s.s y).toNat).queue = rest) ∧
      ((s.di (s.s y).toNat).queue = [] → ∃ t, exec (.tqPop h y x) s = .next t ∧ AnswerStep b key (leBytes 4 0) s t)

/-- DRAIN, SCAN.RUN, SCAN.SIG and CMAP.SET.
A choice of the model and not a rule of the spec stands in it: log entries 87, 88, 89 and 90. -/
def Obligations.DrainScanAndMap : Prop :=
  (∀ mk, mk = Instr.drain ∨ mk = Instr.drainPreempt ∨ mk = Instr.drainClear →
      DrainPreempts mk ∧ DrainRefused mk ∧ DrainReleases mk) ∧
    DrainCommand .drain ∧ DrainCommand .drainPreempt ∧ DrainCommand .drainClear ∧ ScanCommand .scanRun ∧
    ScanCommand .scanRunAbort ∧ MapCommand .cmapSet ∧ MapCommand .cmapSetRemove ∧
    ∀ h y x s, scalarClean (.scanSig h y x) h s → Room 5 s → (s.s x).toNat < s.ncores → (s.s x).toNat < 256 →
      ∃ t, exec (.scanSig h y x) s = .next t ∧
        (let r := (s.co (s.s x).toNat).scan
         ReplyStep 5 [(y, BitVec.ofNat 32 (r.pattern * 65536 + r.state)),
           (y + 1, BitVec.ofNat 32 (if r.state = 1 then (s.ns - r.since) / 1000 else r.elapsed)),
           (y + 2, BitVec.ofNat 32 r.observed), (y + 3, BitVec.ofNat 32 r.expected)] s t)

/-- Drained cores, scans that end, and the firmware's abort of one.
A choice of the model and not a rule of the spec stands in it: log entry 87. -/
def Obligations.MaintenanceEvents : Prop :=
  (∀ core s w, (s.co core).drains = [w] → s.quiescent core = true → (s.g w.gid).live = true →
      ∃ t, exec (.drainQuiescent core) s = .next t ∧ (t.g w.gid).sr.get w.reg = 0#32 ∧ (t.g w.gid).spo.get w.reg = false ∧
        (∀ r, r ≠ w.reg → (t.g w.gid).sr.get r = (s.g w.gid).sr.get r) ∧ (t.co core).drains = [] ∧
        (∀ a, a ∈ (t.g w.gid).inflight → a.regs = [(.s, w.reg, 1#32)] → a.hold = false) ∧ t.mem = s.mem) ∧
    (∀ core observed s, (s.co core).scan.state = 1 → 100 * (s.co core).scan.pattern ≤ (s.ns - (s.co core).scan.since) / 1000 →
      ∃ t, exec (.scanEnd core observed) s = .next t ∧ t.groups = s.groups ∧ t.mem = s.mem ∧
        (t.co core).scan.state = (if observed % 2 ^ 32 = (s.co core).scan.expected then 2 else 3) ∧
        (t.co core).scan.observed = observed % 2 ^ 32 ∧ (t.co core).tiles = [] ∧ (t.co core).tags = [] ∧
        (t.co core).icache = [] ∧ (t.co core).tlb = []) ∧
    ∀ core s, (s.co core).scan.state = 1 → (s.co core).drained = true → (s.co core).drains = [] →
      ∃ t, exec (.firmwareScanAbort core) s = .next t ∧ (t.co core).drained = false ∧ (t.co core).scan.state = 4 ∧
        t.groups = s.groups ∧ t.mem = s.mem

/-- PAIR_COMPARE and the comparison of a pair at an instruction, REGION_RESTART, DEFERRED_RECORD_ENQUEUE and the two answers
of the supervisor. That a difference counts from the next comparison on, and what undoes its instruction, are the model's
reading (log entries 42 and 83).
A choice of the model and not a rule of the spec stands in it: log entries 42, 81, 83 and 114. -/
def Obligations.PairsAndRecords : Prop :=
  (∀ gid s, s.paired gid = true → (s.g gid).live = true → (s.g gid).stop = .running →
      ∃ t, exec (.pairCompare gid true) s = .next t ∧ t.g gid = { s.g gid with pairBad := true } ∧ AllBut gid s t ∧
        { t with groups := s.groups } = s) ∧
    (∀ gid s, s.paired gid = true → (s.g gid).live = true → (s.g gid).stop = .running → 64 ≤ (s.g gid).pairBuf.length →
      (s.g gid).pairBad = false →
      ∃ t, exec (.pairCompare gid false) s = .next t ∧ (t.g gid).pairBuf = [] ∧ AllBut gid s t ∧
        (∀ a, (∀ p, p ∈ (s.g gid).pairBuf → p.kind = 1 → a < p.addr ∨ p.addr + p.bytes.length ≤ a) →
          t.devByte a = s.devByte a) ∧
        (s.writes = [] → (∀ p q, p ∈ (s.g gid).pairBuf → q ∈ (s.g gid).pairBuf → p.lanes &&& q.lanes ≠ 0#32) →
          ∀ a, t.devByte a = afterStores (s.g gid).pairBuf a (s.devByte a))) ∧
    (∀ s t : State, t.cg.compared = true → s.cg.pairBad = false →
      (s.compare t).cg = { t.cg with compared := false } ∧ AllBut t.cur.gid t (s.compare t) ∧ (s.compare t).mem = t.mem) ∧
    (∀ s t : State, t.cg.compared = true → s.cg.pairBad = true → s.cg.pairTry = 0 → s.cg.drained = true →
      RegionRestarted s.cg (s.compare t).cg ∧ (s.compare t).cg.pairBuf = [] ∧ (s.compare t).cg.pairTry = 1 ∧
        (s.compare t).cg.pairBad = false ∧ AllBut s.cur.gid s (s.compare t) ∧ (s.compare t).mem = s.mem) ∧
    (∀ s t : State, t.cg.compared = true → s.cg.pairBad = true → s.cg.pairTry ≠ 0 → s.cg.poisonPass = none →
      s.cg.handler = false → slotFree s s.cur.gid →
      ∃ tr, FatalStep s.cur.gid tr false s (s.compare t) ∧ tr.code = 0x18) ∧
    (∀ gid s, (s.g gid).stop = .restart → (s.g gid).drained = true → (s.b (s.g gid).bid).state ≠ .saved →
      ∃ t, exec (.regionRestart gid) s = .next t ∧ RegionRestarted (s.g gid) (t.g gid) ∧ AllBut gid s t ∧
        { t with groups := s.groups } = s) ∧
    (∀ gid rest tr nest s, (let die := dieOf (s.g gid).core
      (s.di die).waiting = gid :: rest → (s.di die).unreserved < 248 → (s.g gid).stop = .reserve tr nest →
      ∃ t, exec (.deferredRecordEnqueue die) s = .next t ∧ FatalStep gid tr nest s t ∧ (t.di die).waiting = rest)) ∧
    (∀ die gid rest tr token s, (s.di die).waiting = [] → (s.di die).deferred = gid :: rest → (s.di die).unreserved < 248 →
      die = dieOf (s.g gid).core → (s.g gid).stop = .replay tr token false → ∃ t r, exec (.deferredRecordEnqueue die) s = .next t ∧
        (t.di die).queue = (s.di die).queue ++ [r] ∧ r.replay = true ∧ r.token = token ∧ r.t = tr ∧
        (t.di die).deferred = rest ∧ (t.g gid).stop = .replay tr token true ∧ AllBut gid s t ∧ t.mem = s.mem) ∧
    (∀ gid tr s, s.tokenGroup s.tqrtok.toNat = some (gid, tr) → ∃ t, exec .tqractResume s = .next t ∧
        t.g gid = { s.g gid with stop := .restart } ∧ AllBut gid s t ∧ t.mem = s.mem) ∧
    (∀ gid tr s, s.tokenGroup s.tqrtok.toNat = some (gid, tr) → ∃ t, exec .tqractKill s = .next t ∧
        (t.g gid).stop = .ended ∧ (t.g gid).splits = [] ∧ (t.gr (s.gridOf (s.g gid))).anyFault = true ∧ AllBut gid s t ∧
        t.mem = s.mem) ∧
    ∀ s, s.tokenGroup s.tqrtok.toNat = none → ∃ t, exec .tqractResume s = .next t ∧ exec .tqractKill s = .next t ∧
      (t.di (dieOf s.cg.core)).badtok = true ∧ t.groups = s.groups ∧ t.mem = s.mem

/-- WATCHDOG, REMOTE_TIMEOUT, errors, containment resets and the alarm.
A choice of the model and not a rule of the spec stands in it: log entries 80, 85 and 86. -/
def Obligations.ErrorsAndContainment : Prop :=
  (∀ gid s, s.watchdogDue gid = true →
      exec (.watchdog gid) s = .next (s.trap gid { code := 0x14, tval := (s.co (s.g gid).core).wdlimit })) ∧
    (∀ gid s, (s.co (s.g gid).core).wdlimit = 0#32 → exec (.watchdog gid) s = .next s) ∧
    (∀ gid slot c s, s.remoteDue gid slot = some c → ∃ tr, exec (.remoteTimeout gid slot) s = .next (s.trap gid tr) ∧
      tr.code = 0x13 ∧ tr.tval = BitVec.ofNat 32 c) ∧
    (∀ die s, die < s.part.dies → ∃ t, exec (.correctableError die) s = .next t ∧
      (t.di die).corr = min ((s.di die).corr + 1) 65535 ∧ { t with dies := s.dies } = s) ∧
    (∀ die gid r lane s, die < s.part.dies → (s.g gid).here = true → lane < 32 →
      ∃ t, exec (.uncorrectableError die (.vreg gid r lane)) s = .next t ∧
        (t.di die).uncorr = min ((s.di die).uncorr + 1) 65535 ∧ inMask ((t.g gid).vpo.get r) lane = true ∧
        (t.g gid).vr = (s.g gid).vr ∧ AllBut gid s t ∧ t.mem = s.mem) ∧
    (∀ die gid r s, die < s.part.dies → (s.g gid).here = true → ∃ t, exec (.uncorrectableError die (.scalar gid r)) s = .next t ∧
        (t.di die).uncorr = min ((s.di die).uncorr + 1) 65535 ∧ (t.g gid).spo.get r = true ∧ (t.g gid).sr = (s.g gid).sr ∧
        AllBut gid s t ∧ t.mem = s.mem) ∧
    (∀ die pa s, die < s.part.dies → ∃ t, exec (.uncorrectableError die (.sector pa)) s = .next t ∧ t.devPo pa = true ∧
        (∀ a, a / 32 ≠ pa / 32 → t.devPo a = s.devPo a) ∧ t.groups = s.groups ∧ t.mem = s.mem) ∧
    (∀ die bid key s, die < s.part.dies → (s.b bid).live = true → ∃ t,
        exec (.uncorrectableError die (.scratchWord bid key)) s = .next t ∧ (t.b bid).scratchPo.get (key / 4) = true ∧
        (t.b bid).scratch = (s.b bid).scratch ∧ t.groups = s.groups ∧ t.mem = s.mem) ∧
    (∀ die core tl e s, die < s.part.dies → ∃ t, exec (.uncorrectableError die (.tileElem core tl e)) s = .next t ∧
        (t.tile core tl).pois.get e = true ∧ t.groups = s.groups ∧ t.mem = s.mem) ∧
    (∀ die gid s, die < s.part.dies → (s.g gid).here = true →
        exec (.uncorrectableError die (.splitTable gid)) s = .next ((s.countUncorr die).trap gid { code := 0x0D, sub := 2 }) ∧
        exec (.uncorrectableError die (.regionRecord gid)) s = .next ((s.countUncorr die).trap gid { code := 0x0D, sub := 2 })) ∧
    (∀ die gid lane s, die < s.part.dies → (s.g gid).here = true → noneEnters s gid → lane < 32 →
      inMask (s.g gid).alive lane = true →
      (s.g gid).alive &&& ~~~ (laneBit lane) ≠ 0#32 → ∃ t, exec (.uncorrectableError die (.laneControl gid lane)) s = .next t ∧
        (t.g gid).dead = (s.g gid).dead ||| laneBit lane ∧ (t.g gid).exited = (s.g gid).exited ∧ AllBut gid s t ∧ t.mem = s.mem) ∧
    (∀ core part, ContainReset (.containPartition core part) 1 core part) ∧
    (∀ die k, ContainReset (.containSluice die k) 2 die k) ∧
    (∀ core part, ContainReset (.containMatrixArray core part) 3 core part) ∧
    (∀ core, ContainReset (.containSamplingArray core) 4 core 0) ∧
    (∀ die, ContainReset (.containCollectiveEngine die) 5 die 0) ∧
    (∀ die other, ContainReset (.containDieLink die other) 6 die other) ∧
    (∀ port, ContainReset (.containShagalPort port) 7 0 port) ∧
    ContainEffects ∧
    (∀ core part bid gid s, (bid, s.b bid) ∈ s.blocks → (s.b bid).live = true → gid ∈ (s.b bid).groups →
      s.onPartition core part gid = true → (s.g gid).bid = bid → s.containBusy = none → s.unitExists 1 core part = true →
      ∃ t, exec (.containPartition core part) s = .next t ∧
        ((t.g gid).stop = .ended ∨ ∃ tr nest, (t.g gid).stop = .reserve tr nest)) ∧
    (∀ s, exec .containResetEnd s = .next { s with containBusy := none }) ∧
    (∀ source s, s.powered = false → exec (.securityAlarm source) s = .next s) ∧
    (∀ source s, s.powered = true → source < 5 → ∃ t, exec (.securityAlarm source) s = .next t ∧ t.alarmed = true ∧ t.alarmSrc.testBit source = true ∧
      t.keys = false ∧ t.provisioned = false ∧ t.hostOut = s.hostOut ++ [.alarm source] ∧ t.groups = s.groups ∧ t.mem = s.mem) ∧
    (∀ s, ∃ t, exec (.keyerase 0xE5A5) s = .next t ∧ t.alarmed = true ∧ t.alarmSrc.testBit 7 = true ∧ t.keys = false ∧
      t.groups = s.groups ∧ t.mem = s.mem) ∧
    ∀ cmd s, cmd ≠ 0xE5A5 → exec (.keyerase cmd) s = .next s

/-- GRID_ADMIT, BLOCK_BIND, GROUP_SLOT_RELEASE, GRID_COMPLETE and CONTROL_GRID_RESTART. How the supervisor's end of a grid
takes place is the model's choice (log entry 109).
A choice of the model and not a rule of the spec stands in it: log entries 70, 71, 72, 73 and 109. -/
def Obligations.GridEvents : Prop :=
  (∀ h s, s.mayAdmit h = true → ∃ t, exec (.gridAdmit h) s = .next t ∧
      t.gr h = { s.gr h with
        after := if s.depsHold (s.gr h) = true then
            (s.gr h).after ++ ((s.gr h).p.deps.filter fun d => decide (d ≠ 0)).flatMap s.metEvents else (s.gr h).after
        admitted := s.depsHold (s.gr h)
        state := if s.depsHold (s.gr h) = true ∧ (s.gr h).p.persist = false then (s.gr h).state else .waiting } ∧
      (∀ k, k < 8 → t.queues.get k = (s.queues.get k).filter fun x => decide (x ≠ h)) ∧ (∀ k, k ≠ h → t.gr k = s.gr k) ∧
      t.groups = s.groups ∧ t.mem = s.mem) ∧
    (∀ h blk cores cs s, s.mayBind h blk cores = some [(blk, cs)] → (s.di (dieOf (cores.headD 0))).binds = [] →
      s.mayCarry h [(blk, cs)] = true → (s.gr h).p.clust ≤ 1 →
      ∃ t, exec (.blockBind h blk cores) s = .next t ∧ BoundStep h blk cs s t) ∧
    (∀ h blk cores cs r s, (s.di (dieOf (cores.headD 0))).binds = ⟨h, blk, cores⟩ :: r →
      (s.gr h).unitOf blk cores = [(blk, cs)] → s.mayCarry h [(blk, cs)] = true → (s.gr h).p.clust ≤ 1 →
      ∃ t, exec (.blockBind h blk cores) s = .next t ∧ BoundStep h blk cs s t ∧ (t.di (dieOf (cores.headD 0))).binds = r) ∧
    (∀ h blk cores u s, s.mayBind h blk cores = some [u] → (s.di (dieOf (cores.headD 0))).binds.head? ≠ some ⟨h, blk, cores⟩ →
      ((s.di (dieOf (cores.headD 0))).binds ≠ [] ∨ s.mayCarry h [u] = false) →
      ∃ t, exec (.blockBind h blk cores) s = .next t ∧ t.groups = s.groups ∧ t.blocks = s.blocks ∧ t.mem = s.mem ∧
        (t.di (dieOf (cores.headD 0))).binds = (s.di (dieOf (cores.headD 0))).binds ++ [⟨h, blk, cores⟩]) ∧
    (∀ gid s, s.mayRelease gid = true → (let b := (s.g gid).bid
      ∃ t, exec (.groupSlotRelease gid) s = .next t ∧ (t.g gid).live = false ∧ AllBut gid s t ∧ t.mem = s.mem ∧
        (1 < (s.b b).groupsLeft → (t.b b).groupsLeft = (s.b b).groupsLeft - 1 ∧ (t.b b).state = (s.b b).state) ∧
        ((s.b b).groupsLeft = 1 → (t.b b).state = .exited ∧ (t.gr (s.b b).grid).ended.get (s.b b).blk = true))) ∧
    (∀ h s, s.gridDone h = true → ∃ t, exec (.gridComplete (.done h)) s = .next t ∧ MemoryKept s t ∧ t.groups = s.groups ∧
      t.gr h = { s.gr h with state := if (s.gr h).killing = true then .killed
                                      else if (s.gr h).anyFault = true then .faulted else .completed } ∧
      (∀ b, b ∈ t.blocks → b.2.grid ≠ h)) ∧
    (∀ h s, (s.gr h).live = true → (s.gr h).terminal = false → (s.gr h).killing = false →
      ∃ t, exec (.gridComplete (.kill h)) s = .next t ∧
        ((s.gr h).state ≠ .running → (t.gr h).state = .killed ∧ t.groups = s.groups) ∧
        ((s.gr h).state = .running → (t.gr h).killing = true ∧
          ∀ gid, (s.g gid).here = true → s.gridOf (s.g gid) = h → (t.g gid).stop = .ended)) ∧
    ∀ h hdr s, s.ctlGrid = some h → (s.gr h).state = .faulted → s.usable 0 = true →
      ((s.countUncorr 0).headerBytes {} true (controlParams s.ctlParams).code).1 = some hdr →
      ∃ t h', exec .controlGridRestart s = .next t ∧ (t.di 0).uncorr = min ((s.di 0).uncorr + 1) 65535 ∧ t.ctlGrid = some h' ∧
        (t.gr h').live = true ∧ (t.gr h').p = controlParams s.ctlParams ∧ (t.gr h').p.privileged = true ∧
        (t.gr h').p.groups = 4 ∧ t.mem = s.mem ∧
        ((t.gr h').state = .running ∨ ∃ d r, r ∈ (t.di d).binds ∧ r.grid = h')

/-- Pre-emption of a block that is in no cluster launch: its request, its three modes and its restore. -/
def Obligations.PreemptionEvents : Prop :=
  (∀ bid s, (s.b bid).live = true → (s.b bid).state = .bound → (s.b bid).cluster = [] → s.ctlGrid ≠ some (s.b bid).grid →
      ∃ t, exec (.preemptRequest bid) s = .next t ∧
        t.b bid = { s.b bid with state := match s.preMode bid with
                      | .save => .saving
                      | .drain => .draining s.cycle
                      | .flush => .flushing } ∧
        (t.gr (s.b bid).grid).pre = true ∧ t.groups = s.groups ∧ t.mem = s.mem) ∧
    (∀ bid s, s.ctlGrid = some (s.b bid).grid → exec (.preemptRequest bid) s = .next s) ∧
    (∀ bid since s, (s.b bid).state = .draining since → (s.b bid).cluster = [] → 4 * s.drainMax ≤ s.cycle - since →
      ∃ t, exec (.drainToSave bid) s = .next t ∧ t.b bid = { s.b bid with state := .saving } ∧ t.groups = s.groups ∧
        t.mem = s.mem) ∧
    (∀ bid core s, (s.b bid).state = .saving → (s.b bid).cluster = [] → (s.b bid).members = [core] → s.saveReady bid = true →
      ∃ t, exec (.preemptionSave bid) s = .next t ∧ (t.b bid).state = .saved ∧ t.groups = s.groups ∧ t.mem = s.mem ∧
        (t.b bid).scratch = (s.b bid).scratch ∧ (t.b bid).bars = (s.b bid).bars ∧
        (∀ e, e ∈ (t.co core).tags → e.2.owner ≠ bid) ∧
        (t.b bid).savedTags.get 0 = (s.co core).tags.filter (fun e => decide (e.2.owner = bid)) ∧
        (t.b bid).savedTiles.get 0 = (s.co core).tiles.filter (fun e => decide (e.2.blk = some bid)) ∧
        (t.b bid).savedMmas.get 0 = (s.co core).mmas.filter (fun m => decide (m.bid = bid))) ∧
    (∀ bid s, (s.b bid).live = true → (s.b bid).state = .flushing → (s.b bid).cluster = [] →
      ∃ t, exec (.flushAndRestart bid) s = .next t ∧ (t.b bid).live = false ∧
        (∀ gid, gid ∈ (s.b bid).groups → (t.g gid).live = false) ∧ (t.gr (s.b bid).grid).flushed.get (s.b bid).blk ≠ 0) ∧
    ∀ bid cores s, (s.b bid).state = .saved → (s.b bid).cluster = [] → (s.b bid).partner = none → s.mayRestore bid cores = true →
      ∃ t, exec (.unitRestore bid cores) s = .next t ∧ (t.b bid).state = .bound ∧
        (t.b bid).members = cores.take (s.b bid).cores.length ∧ (t.b bid).scratch = (s.b bid).scratch ∧ t.mem = s.mem ∧
        ∀ gid, gid ∈ (s.b bid).groups → (t.g gid).live = true ∧
          (t.g gid).core = (cores.take (s.b bid).cores.length).getD ((s.g gid).index / 128) 0 ∧
          (t.g gid).vr = (s.g gid).vr ∧ (t.g gid).sr = (s.g gid).sr ∧ (t.g gid).splits = (s.g gid).splits

/-- The walk of the page tables for an address and a kind of access (R205-R207), from a level and its table: the physical address
with MT and MIR of the leaf, or the code of the fault. Physical addresses have 46 bits. -/
def Sys2Proof.Claims.tableWalk (s : State) (k : Acc) (priv : Bool) (a : Nat) : Nat → Nat → Nat → Except Nat (Nat × Nat × Bool)
  | 0, _, _ => .error 0x09
  | n + 1, level, t =>
    let low := [40, 29, 25, 21, 16].getD level 16
    let width := [12, 11, 4, 4, 5].getD level 5
    let at_ := (t + 8 * (a / 2 ^ low % 2 ^ width)) % 2 ^ 46
    let pte := leNat ((List.range 8).map fun j => s.devByte (at_ + j))
    let leaf := pte.testBit 1
    let addr := pte / 256 % 2 ^ 38 * 256
    if s.devPo at_ = true then .error 0x09
    else if pte.testBit 0 = false then .error 0x08
    else if pte / 2 ^ 46 % 2 ^ 18 ≠ 0 ∨ (leaf = true ∧ level = 0) ∨ (leaf = false ∧ level = 4) ∨
        (leaf = false ∧ pte / 4 % 64 ≠ 0) ∨ (leaf = true ∧ pte / 64 % 4 = 3) ∨ (leaf = true ∧ addr % 2 ^ low ≠ 0) then .error 0x09
    else if leaf = true then
      if ((k = .store ∨ k = .atomic) ∧ pte.testBit 2 = false) ∨ (k = .fetch ∧ pte.testBit 4 = false) ∨
          (priv = false ∧ pte.testBit 3 = false) then .error 0x09
      else .ok (addr + a % 2 ^ low, pte / 64 % 4, pte.testBit 5)
    else tableWalk s k priv a n (level + 1) addr

/-- What a translation answers (R206-R210, R394): outside the address space, or with translation off, PAGE_PROT; where no TLB holds
the address, what the walk from TTB gives; and what a faulting one leaves. -/
def Sys2Proof.Claims.PageWalks : Prop :=
  (∀ core priv k va (s : State), (2 ^ 52 ≤ va ∨ s.ttblo.getLsbD 0 = false) → s.translate core priv k va = (.error 0x09, s)) ∧
    (∀ core priv k va (s : State), va < 2 ^ 52 → s.ttblo.getLsbD 0 = true → tlbFind (s.co core).tlb va = none →
      tlbFind (s.di (dieOf core)).tlb va = none →
      (s.translate core priv k va).1 =
        match tableWalk s k priv va 5 0 (s.ttbhi.toNat % 2 ^ 14 * 2 ^ 32 + s.ttblo.toNat / 256 * 256) with
        | .error c => .error c
        | .ok (pa, mt, mir) =>
          if mt = 0 then .ok (Place.dev pa mir)
          else if mt = 1 then .ok (Place.host pa)
          else
            let r := pa / 2 ^ 41 % 32
            if s.fabSize ≤ r ∨ r = s.rank ∨ s.unreachable r = true then .error 0x09 else .ok (Place.peer r (pa % 2 ^ 41))) ∧
    (∀ core priv k va c (s : State), (s.translate core priv k va).1 = .error c → (s.translate core priv k va).2 = s) ∧
    (∀ core priv k va (s : State), (s.translate core priv k va).2.mem = s.mem ∧ (s.translate core priv k va).2.groups = s.groups) ∧
    (∀ k n l a (s : State), s.cc.inWindow a = false → (s.resolve k n [(l, a)]).1 =
      match (s.translate s.cg.core s.cg.priv k a).1 with
      | .ok p => .ok [(l, p)]
      | .error c => .error (s.mkTrap c 0 (BitVec.ofNat 32 k.num) a)) ∧
    (∀ k n l a r tr (s : State), (s.resolve k n [(l, a)]).1 = .error tr → (s.resolve k n ((l, a) :: r)).1 = .error tr) ∧
    ∀ k n l a p (s : State), s.cc.inWindow a = true → s.scratchPlace s.cg (a - s.cc.scrBase) n = some p →
      (s.resolve k n [(l, a)]).1 = .ok [(l, p)]

/-- Page walks and translations, and the registers of the fabric, the sampler and the adapter directory.
A choice of the model and not a rule of the spec stands in it: log entries 35, 56, 94 and 98. -/
def Obligations.FabricEvents : Prop :=
  PageWalks ∧ (∀ core s, (s.co core).inv = none → ∃ t, exec (.tlbInvalidate core) s = .next t ∧
      t.co core = { s.co core with inv := some (if (s.co core).tlbinvlo.getLsbD 1 = true then none else some (s.co core).invVa) } ∧
      (∀ k, k ≠ core → t.co k = s.co k) ∧ t.groups = s.groups ∧ t.mem = s.mem) ∧
    (∀ core va s, (s.co core).inv = some va → s.invWaits va = true → exec (.tlbInvalidateDone core) s = .next s) ∧
    (∀ core va s, (s.co core).inv = some va → s.invWaits va = false → ∃ t, exec (.tlbInvalidateDone core) s = .next t ∧
      (t.co core).inv = none ∧ (∀ c e, e ∈ (t.co c).icache → s.invHits va e.1 = false) ∧
      (∀ c e, e ∈ (t.co c).tlb → e.named va = false) ∧ (∀ d e, e ∈ (t.di d).tlb → e.named va = false) ∧ t.groups = s.groups ∧
      t.mem = s.mem) ∧
    (∀ die va s, ∃ t, exec (.tlbEntryDrop true die va) s = .next t ∧ (∀ e, e ∈ (t.di die).tlb → e.named (some va) = false) ∧
      { t with dies := s.dies } = s) ∧
    (∀ core va s, ∃ t, exec (.tlbEntryDrop false core va) s = .next t ∧ (∀ e, e ∈ (t.co core).tlb → e.named (some va) = false) ∧
      { t with cores := s.cores } = s) ∧
    (∀ v s, s.adaptersEmpty = true → v < 2 ^ 32 →
      exec (.adirWrite 64 v) s = .next { s with adirlo := BitVec.ofNat 32 v &&& 0xFFFFFFF1#32 } ∧
      exec (.adirWrite 65 v) s = .next { s with adirhi := BitVec.ofNat 32 v &&& 0x000FFFFF#32 }) ∧
    (∀ r v s, s.adaptersEmpty = false → exec (.adirWrite r v) s = .next s) ∧
    (∀ core v s, ∃ t, exec (.smctlWrite core v) s = .next t ∧ (t.co core).smctl = BitVec.ofNat 32 (v % 2) ∧
      (t.co core).array = { (s.co core).array with draws := [], below := [], last := [], run := [] } ∧ t.groups = s.groups ∧
      t.mem = s.mem) ∧
    (∀ v s, s.colBusy = false → exec (.fabidWrite v) s = .next { s with fabid := BitVec.ofNat 32 v &&& 0x00011F1F#32 }) ∧
    (∀ v s, s.colBusy = true → BitVec.ofNat 32 v &&& 0x1F1F#32 ≠ s.fabid &&& 0x1F1F#32 → exec (.fabidWrite v) s = .next s) ∧
    (∀ v s, v < 2 ^ 32 → s.rank = 0 → exec (.tickperWrite v) s =
        .next { s with tickper := BitVec.ofNat 32 (max 2000 v), tickNext := s.tickNext ++ [(max 2000 v, s.ns + 1000000)] }) ∧
    (∀ gid d s, (s.g gid).live = true → ∃ t, exec (.tickloRead gid d) s = .next t ∧
      (t.g gid).sr.get d = BitVec.ofNat 32 s.tick ∧ t.tickHi = BitVec.ofNat 32 (s.tick / 2 ^ 32) ∧
      (∀ r, r ≠ d → (t.g gid).sr.get r = (s.g gid).sr.get r) ∧ AllBut gid s t ∧ t.mem = s.mem) ∧
    (∀ p, PortMove (.portPartnerDetect p) p 0 1) ∧ (∀ p, PortMove (.portTrainPass p) p 1 2) ∧
    (∀ p, PortMove (.portRecoverEnter p) p 2 3) ∧ (∀ p, PortMove (.portRecoverDone p) p 3 2) ∧
    (∀ p, PortLoss (.portTrainTimeout p) p 1) ∧ (∀ p, PortLoss (.portRecoverFail p) p 3) ∧
    (∀ p s, exec (.flitReplay p) s = .next s) ∧ ∀ d o s, exec (.dieLinkRetry d o) s = .next s

/-- The exchange tick, accesses of other modules and the mirror.
A choice of the model and not a rule of the spec stands in it: log entries 91, 92, 94 and 114. -/
def Obligations.ExchangeAndMirror : Prop :=
  (∀ s, s.tickDue = true → s.outgoing = [] → (∀ w, w ∈ s.tickNext → s.tickAt < w.2) → exec .exchangeTick s =
      .next { s with tick := s.tick + 1, bounds := s.bounds + 1, tickAt := s.tickAt + s.tickInUse
                     sentMark := if s.detx = true then s.tick + 1 else s.sentMark }) ∧
    (∀ p since r s, s.tickDue = true → s.outgoing = [] → s.tickNext = (p, since) :: r → since ≤ s.tickAt →
      (∀ w, w ∈ r → s.tickAt < w.2) → exec .exchangeTick s =
        .next { s with tick := s.tick + 1, bounds := s.bounds + 1, tickInUse := p, tickNext := r, tickAt := s.tickAt + p
                       sentMark := if s.detx = true then s.tick + 1 else s.sentMark }) ∧
    (∀ (s : State) o x k e, s.tickDue = true → s.outgoing = [o] → o.store = some (x, k) → x.kind = 3 → s.writes = [] →
      s.log.find? (fun y => decide (y.num = k)) = some e → s.unreachable x.who = false → ∃ t, exec .exchangeTick s = .next t ∧
        t.outgoing = [] ∧ t.tick = s.tick + 1 ∧ t.groups = s.groups ∧ t.mem = s.mem ∧
        (∀ j, j < x.bytes.length → t.peerByte (x.who * 2 ^ 46 + x.addr + j) = x.bytes.getD j 0#8) ∧
        ∀ a, (a < x.who * 2 ^ 46 + x.addr ∨ x.who * 2 ^ 46 + x.addr + x.bytes.length ≤ a) → t.peerByte a = s.peerByte a) ∧
    (∀ (s : State) gid x, s.detx = true → x.kind = 3 → (let t := s.performStores gid [x]
        t.outgoing = s.outgoing ++ [{ gid := gid, store := some (x, s.log.length) }] ∧ t.peerMem = s.peerMem ∧ t.mem = s.mem)) ∧
    (∀ s, s.tickDue = false → exec .exchangeTick s = .next s) ∧
    (∀ tk s, s.locked = false → ∃ t, exec (.ptpLock tk) s = .next t ∧ t.locked = true ∧ t.tick = tk ∧ s.ns < t.tickAt ∧
      t.tickAt ≤ s.ns + max 1 s.tickInUse ∧ t.groups = s.groups ∧ t.mem = s.mem) ∧
    (∀ rank tk pa bytes po s, s.powered = true → s.detx = false → pa + bytes.length ≤ 2 ^ 41 → ∃ t,
      exec (.peerAccess rank tk (.store pa bytes po)) s = .next t ∧ t.groups = s.groups ∧
        (∀ k, k < bytes.length → t.devByte (pa + k) = bytes.getD k 0#8) ∧
        ∀ a, (a < pa ∨ pa + bytes.length ≤ a) → t.devByte a = s.devByte a) ∧
    (∀ rank tk pa n s, s.detx = false → exec (.peerAccess rank tk (.load pa n)) s = .next s) ∧
    (∀ rank tk pa bytes po s, s.powered = true → s.detx = true → exec (.peerAccess rank tk (.store pa bytes po)) s =
      .next { s with received := s.received ++ [(rank, tk, .store pa bytes po)] }) ∧
    (∀ rank tk pa bytes s, s.received = [(rank, tk, .store pa bytes false)] → s.markersIn tk = true → rank < 32 →
      pa + bytes.length ≤ 2 ^ 41 → ∃ t, exec .tickFlitsApply s = .next t ∧ t.received = [] ∧ t.groups = s.groups ∧
        (∀ k, k < bytes.length → t.devByte (pa + k) = bytes.getD k 0#8) ∧
        ∀ a, (a < pa ∨ pa + bytes.length ≤ a) → t.devByte a = s.devByte a) ∧
    (∀ s, s.mirctl.getLsbD 31 = false → ∃ t, exec .mirrorEnable s = .next t ∧ t.mirctl = s.mirctl ||| 0x80000000#32 ∧
      t.mirstat = (if s.unreachable s.mirPeer = true then 2 else 3) ∧ t.mirror = [] ∧ t.groups = s.groups ∧ t.mem = s.mem) ∧
    (∀ s, s.mirctl.getLsbD 31 = true → exec .mirrorEnable s = .next s) ∧
    (∀ s, s.mirstat = 3 → s.routeWaits s.mirPeer = false → ∃ t, exec .mirrorResyncDone s = .next t ∧ t.mirstat = 1 ∧
      t.groups = s.groups ∧ t.mem = s.mem) ∧
    ∀ w rest s, s.mirror = w :: rest → w.notBefore ≤ s.bounds → s.routeWaits s.mirPeer = false → ∃ t,
      exec .mirrorAck s = .next t ∧ t.mirror = rest ∧ t.groups = s.groups ∧ t.mem = s.mem ∧
        ∀ k, k < w.bytes.length → t.peerByte (s.mirPeer * 2 ^ 46 + s.mirPa w.pa + k) = w.bytes.getD k 0#8

/-- The host link, attestation, firmware and power.
A choice of the model and not a rule of the spec stands in it: log entries 9, 97, 100, 114, 117 and 118. -/
def Obligations.HostAndPower : Prop :=
  (∀ q bytes s, s.powered = true → q < 16 → wellFormedMsg bytes = true → (s.inlets.get q).length < 256 →
      ∃ t, exec (.inletWrite q bytes) s = .next t ∧ t.inlets.get q = s.inlets.get q ++ [bytes] ∧
        (∀ k, k ≠ q → t.inlets.get k = s.inlets.get k) ∧ t.groups = s.groups ∧ t.mem = s.mem ∧
        ∃ e, t.log = e :: s.log ∧ e.rel = true ∧ e.scope = 6) ∧
    (∀ q bytes s, s.powered = true → q < 16 → wellFormedMsg bytes = false →
      exec (.inletWrite q bytes) s = .next { s with drops := s.drops + 1 }) ∧
    (∀ q m rest s, s.outlets.get q = m :: rest → ∃ t, exec (.outletWrite q) s = .next t ∧ t.outlets.get q = rest ∧
      t.outprod.get q = (s.outprod.get q + 1) % 2 ^ 32 ∧ t.hostOut = s.hostOut ++ [.msix q] ∧ t.groups = s.groups ∧ t.mem = s.mem ∧
      ∀ k, k < m.length → t.hostByte (s.outbase + 16384 * q + 64 * (s.outprod.get q % 256) + k) = m.getD k 0#8) ∧
    (∀ q v s, q < 16 → v < 2 ^ 32 → exec (.outconsWrite q v) s = .next { s with outcons := s.outcons.put q v }) ∧
    (∀ off bytes s, s.linkUp = true → off + bytes.length ≤ 2 ^ 36 → ∃ t,
      exec (.hostApertureAccess (.store off bytes)) s = .next t ∧ t.groups = s.groups ∧
        (∀ k, k < bytes.length → t.devByte (s.winbase * 2 ^ 36 + off + k) = bytes.getD k 0#8) ∧
        ∀ a, (a < s.winbase * 2 ^ 36 + off ∨ s.winbase * 2 ^ 36 + off + bytes.length ≤ a) → t.devByte a = s.devByte a) ∧
    (∀ off n s, s.linkUp = true → off + n ≤ 2 ^ 36 → exec (.hostApertureAccess (.load off n)) s =
      .next { s with hostOut := s.hostOut ++
        [.readData ((List.range n).map fun k => s.devByte (s.winbase * 2 ^ 36 + off + k))] }) ∧
    (∀ v s, s.linkUp = true → exec (.hostApertureAccess (.winbase v)) s = .next { s with winbase := v % 1024 }) ∧
    (∀ (v : Nat × Nat) (s : State), v ∈ ([(0x00, 0x4C4D0001), (0x08, if s.linkUp = true then 3 else 0), (0x10, s.winbase),
          (0x18, s.drops % 2 ^ 64), (0x400, s.outbase)] : List (Nat × Nat)) →
      exec (.hostApertureAccess (.reg v.1)) s = .next { s with hostOut := s.hostOut ++ [.readData (leBytes 8 v.2)] }) ∧
    (∀ q s, q < 16 →
      exec (.hostApertureAccess (.reg (0x100 + 8 * q))) s =
          .next { s with hostOut := s.hostOut ++ [.readData (leBytes 8 (256 - (s.inlets.get q).length))] } ∧
        exec (.hostApertureAccess (.reg (0x200 + 8 * q))) s =
          .next { s with hostOut := s.hostOut ++ [.readData (leBytes 8 (s.outprod.get q))] } ∧
        exec (.hostApertureAccess (.reg (0x300 + 8 * q))) s =
          .next { s with hostOut := s.hostOut ++ [.readData (leBytes 8 (s.outcons.get q))] }) ∧
    (∀ nonce s, s.powered = true → nonce.length = 64 → s.keys = true → s.provisioned = true →
      ∃ m sig, exec (.attestationRequest nonce) s =
          .next { s with hostOut := s.hostOut ++ [.report nonce (s.images.map Config.sha512) m s.devcap sig] } ∧
        ∀ c, c < s.ncores → m.get c = if s.inService c = true then s.physOf c + 1 else 0) ∧
    (∀ nonce s, s.powered = true → s.keys = false →
      exec (.attestationRequest nonce) s = .next { s with hostOut := s.hostOut ++ [.refusedReport] }) ∧
    (∀ s, s.powered = true → exec (.provisioningCommand true) s = .next { s with keys := true, provisioned := true }) ∧
    (∀ s, exec (.provisioningCommand false) s = .next s) ∧
    (∀ signed s, s.powered = true → s.keys = false → exec (.firmwareUpdateRequest signed) s =
      .next { s with hostOut := s.hostOut ++ [.refusedUpdate] }) ∧
    (∀ s, s.keys = true → exec (.firmwareUpdateRequest true) s = .next s) ∧
    (∀ s, s.powered = true → s.keys = true → ∃ t, exec (.firmwareUpdateRequest false) s = .next t ∧ t.alarmed = true ∧
      t.keys = false ∧ t.groups = s.groups ∧ t.mem = s.mem) ∧
    (∀ nonce signed s, s.powered = false → exec (.attestationRequest nonce) s = .next s ∧
      exec (.provisioningCommand signed) s = .next s ∧ exec (.firmwareUpdateRequest signed) s = .next s) ∧
    (∀ s, ∃ t, exec .powerLoss s = .next t ∧ AfterLoss s t ∧ t.powered = false) ∧
    (∀ s, s.powered = true → ∃ t, exec .moduleReset s = .next t ∧ AfterLoss s t ∧ t.powered = true ∧ t.alarmed = s.alarmed ∧
      t.alarmSrc = s.alarmSrc) ∧
    (∀ d s, exec (.headgateFault d) s = .next s) ∧
    (∀ img s, s.powered = true → s.broughtUp = true → exec (.powerUp img) s = .next s) ∧
    (∀ img s, img.verified = true → (s.powered = false ∨ s.broughtUp = false) → ∃ t, exec (.powerUp img) s = .next t ∧
      t.powered = true ∧ t.broughtUp = true ∧ t.linkUp = true ∧ t.cycle = (if s.powered = true then s.cycle else 0) ∧ t.ttblo = BitVec.ofNat 32 img.ttblo &&& 0xFFFFFF01#32 ∧
      t.ttbhi = BitVec.ofNat 32 img.ttbhi &&& 0x3FFF#32 ∧ t.fabid = BitVec.ofNat 32 img.fabid &&& 0x00011F1F#32) ∧
    (∀ img s, img.verified = false → (s.powered = false ∨ s.broughtUp = false) → ∃ t, exec (.powerUp img) s = .next t ∧
      t.alarmed = true ∧ t.keys = false ∧ t.broughtUp = s.broughtUp ∧ t.groups = s.groups ∧ t.mem = s.mem) ∧
    (∀ celsius khz s, celsius < 95 → exec (.thermalThrottle celsius khz) s = .next s) ∧
    (∀ celsius khz s, s.powered = true → 95 ≤ celsius → celsius < 125 → 1 < s.khz → ∃ t,
      exec (.thermalThrottle celsius khz) s = .next t ∧ 0 < t.khz ∧ t.khz < s.khz ∧
        (0 < khz → khz < s.khz → t.khz = khz) ∧ { t with khz := s.khz, free := s.free } = s) ∧
    (∀ celsius khz s, s.powered = true → 125 ≤ celsius → ∃ t, exec (.thermalThrottle celsius khz) s = .next t ∧
      t.alarmed = true ∧ t.alarmSrc.testBit 2 = true ∧ t.keys = false ∧ t.khz ≤ s.khz ∧ t.groups = s.groups ∧ t.mem = s.mem) ∧
    ∀ khz s, s.powered = true → 0 < khz → khz ≤ 3300000 → exec (.powerLimitClock khz) s = .next { s with khz := khz }

/-- What reset leaves: the registers whose value at reset the spec gives, and an empty memory.
A choice of the model and not a rule of the spec stands in it: log entries 1, 3 and 6. -/
def Obligations.ResetState : Prop :=
  (∀ core, core < 192 → State.reset.sysReg core 0 = 0x01C0F084#32 ∧ State.reset.sysReg core 1 = 0x3333#32 ∧
      (∀ n, (2 ≤ n ∧ n ≤ 7) → State.reset.sysReg core n = 0xFFFFFFFF#32) ∧
      (∀ n, (n = 8 ∨ (9 ≤ n ∧ n ≤ 14) ∨ (18 ≤ n ∧ n ≤ 38) ∨ n = 48 ∨ (50 ≤ n ∧ n ≤ 54) ∨ (64 ≤ n ∧ n ≤ 66)) →
        State.reset.sysReg core n = 0#32) ∧
      State.reset.sysReg core 15 = 0x80000000#32 ∧ State.reset.sysReg core 16 = 0x004C4B40#32 ∧
      State.reset.sysReg core 17 = 0x00200040#32 ∧ State.reset.sysReg core 49 = 10000#32 ∧
      State.reset.sysReg core 67 = 1#32) ∧
    (State.resetPart .dx96).sysReg 0 0 = 0x0160C842#32 ∧ (State.resetPart .dx96).sysReg 0 1 = 0x0033#32 ∧
    (State.resetPart .dx96).sysReg 0 4 = 0xFFFFFFFF#32 ∧ (State.resetPart .dx96).sysReg 0 5 = 0#32 ∧
    (∀ a, State.reset.devByte a = 0#8 ∧ State.reset.devPo a = false) ∧ State.reset.MemoryCanonical ∧
    State.reset.groups = [] ∧ State.reset.cycle = 0

/-- Words that the spec writes out, each with the instruction it stands for. -/
def Obligations.ExampleWords : Prop :=
  decodeTableWord 32 0x0C22000D = some (.imad .plain 8 2 3) ∧ decodeTableWord 32 0x54710015 = some (.psetv .plain 4 7) ∧
    decodeTableWord 32 0x2C10C017 = some (.sqrt .plain 3 1) ∧ decodeTableWord 32 0x100280B7 = some (.sLdD .plain 2 10 0) ∧
    decodeTableWord 32 0x00434027 = some (.sMov .plain 13 2) ∧ decodeTableWord 32 0x5183402B = some (.sShli .plain 13 12) ∧
    decodeTableWord 32 0x21A28029 = some (.sLea .plain 10 13) ∧ decodeTableWord 32 0x0C284021 = some (.cmpF32 .plain 1 2 2 3) ∧
    decodeTableWord 32 0x34918065 = some (.inshi (Hdr.plain.withStl 1) 6 0x34) ∧
    decodeTableWord 16 0x1932 = some (.cFmul 9 3) ∧ decodeTableWord 32 0x3461401B = some (.shfl .plain 5 6) ∧
    decodeTableWord 32 0x1045001B = some (.redfadd .plain 20 4) ∧
    decodeTableWord 32 0x28120019 = some (.cvtE2m1F32 .plain 8 1 0) ∧
    decodeTableWord 32 0xD0110019 = some (.cvtBf16F32 .plain 4 1 3) ∧ decodeTableWord 32 0x9090003D = some (.ovtld .plain 9) ∧
    decodeTableWord 32 0x203580AF = some (.st .plain 2 6 5 1 8) ∧ decodeTableWord 32 0x102100B3 = some (.atomAdd .plain 2 4 1 4) ∧
    decodeTableWord 32 0x4D00C03D = some (.tlwait .plain 3 16) ∧ decodeTableWord 32 0x2430003F = some (.mxAcq .plain 3) ∧
    decodeTableWord 32 0x1102403F = some (.cpFollow .plain 9 16) ∧ decodeTableWord 32 0x14A0003F = some (.cpCancel .plain 10)

/-- Decoding the bytes of a well-formed instruction gives it back, and leaves the bytes after it. -/
def Obligations.DecodesEncodings : Prop :=
  ∀ i c r, wfError i = none → sharedWord i = false → encode i = some c → decode (c.bytes ++ r) = .ok (i, r)

/-- Every storable code that decodes to a well-formed instruction is the code of that instruction: no bit is dropped. -/
def Obligations.EncodesDecodings : Prop :=
  ∀ i c, storable c → decodeCode c = .ok i → wfError i = none → encode i = some c

/-- A split issues the instruction that stands at its offset: exec of it, the comparison of a pair, and what every issue leaves
behind. The text is one plane's, so the instruction has one plane issue.
A choice of the model and not a rule of the spec stands in it: log entries 15, 16, 37 and 122. -/
def Obligations.StepRunsInstruction : Prop :=
  (∀ (s : State) gid slot bs c i, readCode bs = some (c, []) → decodeCode c = .ok i →
      ((s.g gid).splits.get slot).more = [] →
      TextAt s gid ((s.g gid).splits.get slot).offset bs → ((s.g gid).splits.get slot).offset + bs.length ≤ 2 ^ 20 →
      ∃ u : State, { u with cores := s.cores } = s.point gid slot ∧ (∀ k, (u.co k).tlb = (s.co k).tlb) ∧
        (let v := atIssue u gid slot c
         let e : PlaneIssue := { plane := 0, code := c, instr := i }
         v.wordTrap i = none → v.held [e] = false → v.closeReads [e] = [] → v.close v.cycle (v.armsOf i) = [] →
          (formsSets i = true → v.xReady = true) → (v.cg.adding = true → followsAdds i = false) →
          (v.isSlow [e] = false → ∀ t, exec i v = .next t →
            (let w := v.compare t
             (w.cur.completed = false → s.issueSplit gid slot =
                if w.cur.issued = true ∧ w.cur.trapped = false then v.afterIssue w [e] (codeHead c) else w) ∧
             (w.cur.completed = true → ∀ t', exec i ((v.afterIssue v [e] (codeHead c)).onPlane e) = .next t' →
                s.issueSplit gid slot = { t' with cur := { t'.cur with issued := true, trapped := true, completed := true } }))) ∧
          (v.isSlow [e] = true → (let w := v.compare (v.slowIssue e true)
            w.cur.completed = false → s.issueSplit gid slot =
              if w.cur.issued = true ∧ w.cur.trapped = false then v.afterIssue w [e] (codeHead c) else w)))) ∧
    ∀ (s : State) gid slot, s.dueInput = none → s.powered = true → s.dueEvent = none → s.events = [] →
      s.groups.map Prod.fst = [gid] → ((List.range 4).filter (s.mayTry (s.g gid))) = [slot] →
      (let t := s.issueSplit gid slot
       let c : Cand := ⟨gid, slot, t.cur.pipe, t⟩
       t.cur.issued = true → t.cur.trapped = false → t.cur.completed = false → s.pipeFree (s.g gid) t.cur.pipe = true →
        step s = .next (t.passOver c [c]).rest.endIssue)

/-- A step always answers a next state: it neither faults nor refuses. -/
def Obligations.StepAnswersNext : Prop := ∀ s, ∃ t, step s = .next t

/-- A step from a state whose memory has its canonical form leaves one whose memory has it. -/
def Obligations.StepKeepsMemoryForm : Prop := ∀ s, s.MemoryCanonical → SafeStep s

/-- A lane of the issuing group dies, and others of its split go on (R377): DEAD takes it, its split loses it, and the group
queues a report. -/
structure Sys2Proof.Claims.LaneDeath (l : Nat) (s t : State) : Prop where
  dead : t.cg.dead = s.cg.dead ||| laneBit l
  split : t.cs.mask = s.cs.mask &&& ~~~ laneBit l ∧ t.cs.offset = s.cur.next
  report : ∃ r, (t.di (dieOf s.cg.core)).queue = (s.di (dieOf s.cg.core)).queue ++ [r] ∧ r.report = true ∧ r.t.code = 0x0D ∧
    r.t.sub = 5 ∧ r.t.tval = BitVec.ofNat 32 l ∧ r.dead = s.cg.dead ||| laneBit l
  others : OthersKept s t
  memory : MemoryKept s t

/-- A lane that lives may die without ending its split or its group, and its report has a slot. -/
def Sys2Proof.Claims.mayDie (l : Nat) (s : State) : Prop :=
  s.cur.slot < 4 ∧ l < 32 ∧ inMask s.cg.alive l = true ∧ s.cg.alive &&& ~~~ laneBit l ≠ 0#32 ∧
    s.cs.mask &&& ~~~ laneBit l ≠ 0#32 ∧ slotFree s s.cur.gid ∧ s.cg.poisonPass = none

/-- POISON of a poisoned scalar operand, which every class reads only where it executes (R378). -/
def Sys2Proof.Claims.PoisonedScalars : Prop :=
  (∀ i w l s r, encode i = some (.word w l) → followsScalar i w = true → s.hasIssuer = true → s.wordTrap i = none →
      guardClean (hdrOf w) (s.liveS &&& s.cg.mmask) s → s.scalarGuard (hdrOf w) = true → s.begun = false →
      (formsSets i = true → s.xReady = true) → r ∈ (uses i).rs → s.sp r = true → (∀ q, q ∈ (uses i).rs → s.sp q = true → q = r) →
      exec i s = .next (s.beginIssue.trapCur (s.mkTrap 0x0D 0 (BitVec.ofNat 32 r)))) ∧
    ∀ i w l s r, encode i = some (.word w l) → clsOfMajor (w / 2 % 32) = .lane → s.hasIssuer = true → s.wordTrap i = none →
      guardClean (hdrOf w) (s.liveS &&& s.cur.lanes &&& s.cg.mmask) s → s.laneActive (hdrOf w) ≠ 0#32 → s.cur.checked = false →
      r ∈ (uses i).rs → s.sp r = true → (∀ q, q ∈ (uses i).rs → s.sp q = true → q = r) →
      exec i s = .next (s.beginIssue.trapCur (s.mkTrap 0x0D 0 (BitVec.ofNat 32 r)))

/-- A lane dies that reads a poisoned guard predicate, of an IADD, or uses a poisoned address, of an LD (R377): the other
lanes of the IADD have their results, and the dead lane of the LD accesses nothing. -/
def Sys2Proof.Claims.LaneDeaths : Prop :=
  (∀ h d a b s l, s.hasIssuer = true → s.wordTrap (.iadd h d a b) = none → h.ge = true → mayDie l s →
      inMask (s.liveS &&& s.cur.lanes &&& s.cg.mmask) l = true → s.pp h.gp l = true →
      (∀ k, k < 32 → k ≠ l → inMask (s.liveS &&& s.cur.lanes &&& s.cg.mmask) k = true → s.pp h.gp k = false) →
      ∃ t, exec (.iadd h d a b) s = .next t ∧ LaneDeath l s t ∧
        (∀ k, k < 32 → k ≠ l → inMask (s.laneActive h) k = true → t.cg.vr.get (32 * d + k) = s.v a k + s.v b k) ∧
        ∀ r k, k < 32 → k ≠ l → (r ≠ d ∨ inMask (s.laneActive h) k = false) →
          t.cg.vr.get (32 * r + k) = s.cg.vr.get (32 * r + k)) ∧
    ∀ h o c z a v s l, laneClean (.ld h o c z a v) h s → s.laneActive h = laneBit l → mayDie l s →
      (s.vp (2 * a) l = true ∨ s.vp (2 * a + 1) l = true) → Room 0 s →
      ∃ t, exec (.ld h o c z a v) s = .next t ∧ LaneDeath l s t ∧ t.cg.count 0 = s.cg.count 0 + 1 ∧
        ∀ r k, k < 32 → k ≠ l → t.cg.vr.get (32 * r + k) = s.cg.vr.get (32 * r + k)

/-- The scoreboard (R62, R63, R65): an instruction that issues leaves its fixed-latency results to be read some cycles later,
and its split stalled; with CHKSB = 1 a read that comes too close raises STALL_CHECK, with CHKSB = 0 it finds the old value
or the new one. Which reads come too close is the model's reading (log entries 24, 26, 31 and 125), and which of several STALL_CHECK names
its choice (log entry 25). -/
def Sys2Proof.Claims.Scoreboard : Prop :=
  (∀ (v t : State) e w d, v.isSlow [e] = false → t.cur.gid = v.cur.gid → t.cur.slot = v.cur.slot → v.cur.slot < 4 →
      t.cs.valid = true → t.cg.poisonPass = none → isTret e.instr = false →
      (let u := v.afterIssue t [e] w
       u.cs.stall = codeStall e.code ∧ u.cs.age = 0 ∧ u.cg.noIssue = 0 ∧
        (0 < (uses e.instr).lat → (uses e.instr).lat < 100 → d ∈ (uses e.instr).wv → (v.onPlane e).actLanes e.code ≠ 0#32 →
          ∃ p, p ∈ u.cg.pend ∧ p.file = .v ∧ p.reg = d ∧ p.lanes = (v.onPlane e).actLanes e.code ∧ p.onPath = false ∧
            p.ready = v.cycle + (uses e.instr).lat ∧
            ∀ l, l < 32 → inMask p.lanes l = true → p.old.get l = (v.cg.vr.get (32 * d + l)).toNat) ∧
        u.cs.sig = if resetsSig e.instr = true then t.cs.sig else foldSig v.cs.sig v.cur.here w (v.cs.mask ^^^ v.cg.alive))) ∧
    (∀ (sig mask : Word) off w, foldSig sig off w mask =
      if mask = 0#32 then crcWord (crcWord sig off) w else crcWord (crcWord (crcWord sig off) w) mask.toNat) ∧
    (∀ (s : State) gid slot bs c i, readCode bs = some (c, []) → decodeCode c = .ok i →
      ((s.g gid).splits.get slot).more = [] →
      TextAt s gid ((s.g gid).splits.get slot).offset bs → ((s.g gid).splits.get slot).offset + bs.length ≤ 2 ^ 20 →
      ∃ u : State, { u with cores := s.cores } = s.point gid slot ∧ (∀ k, (u.co k).tlb = (s.co k).tlb) ∧
        (let v := atIssue u gid slot c
         let e : PlaneIssue := { plane := 0, code := c, instr := i }
         v.wordTrap i = none → v.held [e] = false → (formsSets i = true → v.xReady = true) →
          (v.cg.adding = true → followsAdds i = false) → v.closeReads [e] ≠ [] → v.isSlow [e] = false →
          ((v.co v.cg.core).execctl.getLsbD 0 = true → (∀ t, exec i v = .next t → t.cur.issued = true →
            ∃ y, y ∈ v.closeReads [e] ∧ s.issueSplit gid slot =
              ({ v with free := v.free + 1 } : State).trapCur
                (v.mkTrap 0x0B 0 (BitVec.ofNat 32 (y.1.1.num * 256 + y.1.2.1 % 256))))) ∧
          ((v.co v.cg.core).execctl.getLsbD 0 = false → ∃ (st : List Stale) (n : Nat),
            (∀ x, x ∈ st → ∃ r p, p ∈ v.cg.pend ∧ x = p.staleEntry r) ∧
            ∀ t, exec i { v with free := n, cur := { v.cur with stale := st } } = .next t → t.cur.issued = true →
              t.cur.trapped = false → t.cur.completed = false → t.cg.compared = false → t.cg.poisonPass = none → t.cur.gid = gid →
              ((s.issueSplit gid slot).g gid).vr = (t.g gid).vr ∧ ((s.issueSplit gid slot).g gid).sr = (t.g gid).sr ∧
                ((s.issueSplit gid slot).g gid).pr = (t.g gid).pr)))

/-- The traps of R66 steps 2 to 4 for every instruction with a 32-bit word, STALL_CHECK and the scoreboard, and POISON of a scalar
operand; the failing guard of every instruction that follows the scalar-class rule, JOIN and REGION apart, and of those of the
control class that act in single lanes; what an issue folds into the signature; and the death of a lane.
A choice of the model and not a rule of the spec stands in it: log entries 24, 25, 26, 31, 125, 126 and 127. -/
def Obligations.WordTrapsAndGuards : Prop :=
  (∀ i w l s, encode i = some (.word w l) → s.hasIssuer = true → s.wordIllegal i = true →
      exec i s = .next (s.beginIssue.trapCur (s.mkTrap 0x01 0 (BitVec.ofNat 32 s.cur.word)))) ∧
    (∀ i w l s, encode i = some (.word w l) → s.hasIssuer = true → s.wordIllegal i = false → privileged i = true →
      s.cg.priv = false → exec i s = .next (s.beginIssue.trapCur (s.mkTrap 0x02 0 (BitVec.ofNat 32 s.cur.word)))) ∧
    (∀ i w l s, encode i = some (.word w l) → s.hasIssuer = true → s.wordIllegal i = false → privileged i = false →
      needsSampling i = true → s.part = .dx96 →
      exec i s = .next (s.beginIssue.trapCur (s.mkTrap 0x03 0 (BitVec.ofNat 32 s.cur.word)))) ∧
    (∀ i w l s, encode i = some (.word w l) → followsScalar i w = true → guardFails i (hdrOf w) s → s.begun = false →
      (formsSets i = true → s.xReady = true) → (∀ h, i ≠ .join h) → (∀ h, i ≠ .region h) →
      exec i s = .next s.beginIssue.advance) ∧
    (∀ h s, guardFails (.region h) h s → ∃ t, exec (.region h) s = .next t ∧ t.cs.joinw = s.cs.joinw ∧ SkippedReset s t) ∧
    (∀ i w l s, encode i = some (.word w l) → perLane i = true → transfers i = false → s.hasIssuer = true → s.wordTrap i = none →
      guardClean (hdrOf w) s.liveS s → s.ctlLanes (hdrOf w) = 0#32 → ∃ t, exec i s = .next t ∧ OnlyAdvanced s t) ∧
    PoisonedScalars ∧ LaneDeaths ∧ Scoreboard ∧
    ∀ i w l s, encode i = some (.word w l) → s.hasIssuer = false → exec i s = .fault .noIssuer
end

