-- ==== Sys2Proof/Laws/SMap.lean ====
section
/-! SUPPORT. Sparse data: reading after writing, and that every operation keeps the canonical form. -/

namespace Sys2Proof

variable {α : Type}

theorem SMap.find_erase_self (m : SMap α) (k : Nat) : (m.erase k).find k = none := by
  induction m with
  | nil => rfl
  | cons e r ih =>
    obtain ⟨j, a⟩ := e
    by_cases h : j = k <;> simp [SMap.erase, SMap.find, h, ih]

theorem SMap.find_erase_ne (m : SMap α) {k j : Nat} (h : j ≠ k) : (m.erase k).find j = m.find j := by
  induction m with
  | nil => rfl
  | cons e r ih =>
    obtain ⟨i, a⟩ := e
    by_cases hk : i = k
    · subst hk
      simp [SMap.erase, SMap.find, ih, Ne.symm h]
    · by_cases hj : i = j
      · subst hj
        simp [SMap.erase, SMap.find, hk]
      · simp [SMap.erase, SMap.find, hk, hj, ih]

theorem SMap.find_place_self (m : SMap α) (k : Nat) (a : α) (h : m.find k = none) : (m.place k a).find k = some a := by
  induction m with
  | nil => simp [SMap.place, SMap.find]
  | cons e r ih =>
    obtain ⟨j, b⟩ := e
    by_cases hj : j = k
    · simp [SMap.find, hj] at h
    · simp only [SMap.find, hj, if_false] at h
      by_cases hk : k < j <;> simp [SMap.place, SMap.find, hk, hj, ih h]

theorem SMap.find_place_ne (m : SMap α) {k j : Nat} (a : α) (h : j ≠ k) : (m.place k a).find j = m.find j := by
  induction m with
  | nil => simp [SMap.place, SMap.find, Ne.symm h]
  | cons e r ih =>
    obtain ⟨i, b⟩ := e
    by_cases hk : k < i
    · simp [SMap.place, SMap.find, hk, Ne.symm h]
    · by_cases hj : i = j
      · subst hj
        simp [SMap.place, SMap.find, hk]
      · simp [SMap.place, SMap.find, hk, hj, ih]

variable [Inhabited α]

@[simp] theorem SMap.get_nil (k : Nat) : SMap.get ([] : SMap α) k = default := rfl

theorem SMap.get_erase_self (m : SMap α) (k : Nat) : (m.erase k).get k = default := by
  simp [SMap.get, SMap.find_erase_self]

theorem SMap.get_erase_ne (m : SMap α) {k j : Nat} (h : j ≠ k) : (m.erase k).get j = m.get j := by
  simp [SMap.get, SMap.find_erase_ne m h]

variable [DecidableEq α]

/-- A key reads as what was last written to it. -/
@[simp] theorem SMap.get_put_self (m : SMap α) (k : Nat) (a : α) : (m.put k a).get k = a := by
  unfold SMap.put
  split
  · rw [SMap.get_erase_self, ‹a = default›]
  · simp [SMap.get, SMap.find_place_self _ _ _ (SMap.find_erase_self m k)]

/-- A write leaves every other key alone. -/
theorem SMap.get_put_ne (m : SMap α) {k j : Nat} (a : α) (h : j ≠ k) : (m.put k a).get j = m.get j := by
  unfold SMap.put
  split
  · exact SMap.get_erase_ne m h
  · simp [SMap.get, SMap.find_place_ne _ a h, SMap.find_erase_ne m h]

theorem SMap.get_put (m : SMap α) (k j : Nat) (a : α) : (m.put k a).get j = if j = k then a else m.get j := by
  by_cases h : j = k
  · simp [h]
  · simp [h, SMap.get_put_ne]

@[simp] theorem SMap.get_upd_self (m : SMap α) (k : Nat) (f : α → α) : (m.upd k f).get k = f (m.get k) := by
  simp [SMap.upd]

theorem SMap.get_upd_ne (m : SMap α) {k j : Nat} (f : α → α) (h : j ≠ k) : (m.upd k f).get j = m.get j := by
  simp [SMap.upd, SMap.get_put_ne m _ h]

/-! ### The canonical form -/

theorem SMap.canonFrom_mono {lo lo' : Nat} {m : SMap α} (h : lo' ≤ lo) (hm : m.canonFrom lo) : m.canonFrom lo' := by
  cases m with
  | nil => rfl
  | cons e r =>
    obtain ⟨j, a⟩ := e
    simp only [SMap.canonFrom, Bool.and_eq_true, decide_eq_true_eq] at hm ⊢
    exact ⟨⟨le_trans h hm.1.1, hm.1.2⟩, hm.2⟩

theorem SMap.canonFrom_erase {lo : Nat} {m : SMap α} (k : Nat) (hm : m.canonFrom lo) : (m.erase k).canonFrom lo := by
  induction m generalizing lo with
  | nil => rfl
  | cons e r ih =>
    obtain ⟨j, a⟩ := e
    simp only [SMap.canonFrom, Bool.and_eq_true, decide_eq_true_eq] at hm
    by_cases h : j = k
    · simp only [SMap.erase, h, if_true]
      exact SMap.canonFrom_mono (by omega) (ih hm.2)
    · simp [SMap.erase, h, SMap.canonFrom, hm.1.1, hm.1.2, ih hm.2]

theorem SMap.canonFrom_place {lo : Nat} {m : SMap α} {k : Nat} {a : α} (ha : a ≠ default) (hk : lo ≤ k)
    (hf : m.find k = none) (hm : m.canonFrom lo) : (m.place k a).canonFrom lo := by
  induction m generalizing lo with
  | nil => simp [SMap.place, SMap.canonFrom, ha, hk]
  | cons e r ih =>
    obtain ⟨j, b⟩ := e
    simp only [SMap.canonFrom, Bool.and_eq_true, decide_eq_true_eq] at hm
    by_cases hj : j = k
    · simp [SMap.find, hj] at hf
    · simp only [SMap.find, hj, if_false] at hf
      by_cases hkj : k < j
      · simp only [SMap.place, hkj, if_true, SMap.canonFrom, Bool.and_eq_true, decide_eq_true_eq]
        exact ⟨⟨hk, ha⟩, ⟨by omega, hm.1.2⟩, hm.2⟩
      · simp only [SMap.place, hkj, if_false, SMap.canonFrom, Bool.and_eq_true, decide_eq_true_eq]
        exact ⟨hm.1, ih (by omega) hf hm.2⟩

/-- Writing keeps the canonical form. -/
theorem SMap.canon_put {m : SMap α} (k : Nat) (a : α) (hm : m.canon) : (m.put k a).canon := by
  unfold SMap.put
  split
  · exact SMap.canonFrom_erase k hm
  · exact SMap.canonFrom_place ‹_› (Nat.zero_le k) (SMap.find_erase_self m k) (SMap.canonFrom_erase k hm)

theorem SMap.canon_erase {m : SMap α} (k : Nat) (hm : m.canon) : (m.erase k).canon := SMap.canonFrom_erase k hm

theorem SMap.canon_upd {m : SMap α} (k : Nat) (f : α → α) (hm : m.canon) : (m.upd k f).canon := SMap.canon_put k _ hm

theorem SMap.canonFrom_mapv {lo : Nat} {m : SMap α} (f : α → α) (hm : m.canonFrom lo) : (m.mapv f).canonFrom lo := by
  unfold SMap.mapv
  induction m generalizing lo with
  | nil => rfl
  | cons e r ih =>
    obtain ⟨j, a⟩ := e
    simp only [SMap.canonFrom, Bool.and_eq_true, decide_eq_true_eq] at hm
    by_cases h : f a = default
    · simp only [List.filterMap_cons, h, if_true]
      exact SMap.canonFrom_mono (by omega) (ih hm.2)
    · simp [h, SMap.canonFrom, hm.1.1, ih hm.2]

theorem SMap.canon_mapv {m : SMap α} (f : α → α) (hm : m.canon) : (m.mapv f).canon := SMap.canonFrom_mapv f hm

theorem SMap.find_none_of_canonFrom {m : SMap α} {lo k : Nat} (hk : k < lo) (hm : m.canonFrom lo) : m.find k = none := by
  induction m generalizing lo with
  | nil => rfl
  | cons e r ih =>
    obtain ⟨j, a⟩ := e
    simp only [SMap.canonFrom, Bool.and_eq_true, decide_eq_true_eq] at hm
    have : j ≠ k := by omega
    simp [SMap.find, this, ih (show k < j + 1 by omega) hm.2]

/-- Equal contents are equal lists: the canonical form has one list for each contents. -/
theorem SMap.ext_of_canonFrom {m n : SMap α} {lo : Nat} (hm : m.canonFrom lo) (hn : n.canonFrom lo)
    (h : ∀ k, m.get k = n.get k) : m = n := by
  induction m generalizing n lo with
  | nil =>
    cases n with
    | nil => rfl
    | cons e r =>
      obtain ⟨j, a⟩ := e
      simp only [SMap.canonFrom, Bool.and_eq_true, decide_eq_true_eq] at hn
      have := h j
      simp [SMap.get, SMap.find] at this
      exact absurd this.symm hn.1.2
  | cons e r ih =>
    obtain ⟨j, a⟩ := e
    simp only [SMap.canonFrom, Bool.and_eq_true, decide_eq_true_eq] at hm
    cases n with
    | nil =>
      have := h j
      simp [SMap.get, SMap.find] at this
      exact absurd this hm.1.2
    | cons e' r' =>
      obtain ⟨i, b⟩ := e'
      simp only [SMap.canonFrom, Bool.and_eq_true, decide_eq_true_eq] at hn
      have hij : i = j := by
        rcases Nat.lt_trichotomy i j with hl | he | hg
        · have := h i
          rw [show SMap.get ((j, a) :: r) i = default from by
            simp [SMap.get, SMap.find, (show j ≠ i by omega), SMap.find_none_of_canonFrom (show i < j + 1 by omega) hm.2]] at this
          simp [SMap.get, SMap.find] at this
          exact absurd this.symm hn.1.2
        · exact he
        · have := h j
          rw [show SMap.get ((i, b) :: r') j = default from by
            simp [SMap.get, SMap.find, (show i ≠ j by omega), SMap.find_none_of_canonFrom (show j < i + 1 by omega) hn.2]] at this
          simp [SMap.get, SMap.find] at this
          exact absurd this hm.1.2
      subst hij
      have hab : a = b := by simpa [SMap.get, SMap.find] using h i
      subst hab
      have hr : r = r' := by
        refine ih hm.2 hn.2 fun k => ?_
        by_cases hk : i = k
        · subst hk
          simp [SMap.get, SMap.find_none_of_canonFrom (Nat.lt_succ_self i) hm.2,
            SMap.find_none_of_canonFrom (Nat.lt_succ_self i) hn.2]
        · simpa [SMap.get, SMap.find, hk] using h k
      rw [hr]

end Sys2Proof
end

