-- ==== Sys2Proof/Laws/State.lean ====
section
/-! SUPPORT. One lemma for each field of the state and each update: what the update leaves, by unfolding it once, here. -/

namespace Sys2Proof.Machine

open Sys2Proof

/-! ### The updates of one piece -/

@[simp] theorem State.setG_part (s : State) (k : Nat) (x : Group) : (s.setG k x).part = s.part := rfl
@[simp] theorem State.setG_powered (s : State) (k : Nat) (x : Group) : (s.setG k x).powered = s.powered := rfl
@[simp] theorem State.setG_broughtUp (s : State) (k : Nat) (x : Group) : (s.setG k x).broughtUp = s.broughtUp := rfl
@[simp] theorem State.setG_cycle (s : State) (k : Nat) (x : Group) : (s.setG k x).cycle = s.cycle := rfl
@[simp] theorem State.setG_ns (s : State) (k : Nat) (x : Group) : (s.setG k x).ns = s.ns := rfl
@[simp] theorem State.setG_nsRem (s : State) (k : Nat) (x : Group) : (s.setG k x).nsRem = s.nsRem := rfl
@[simp] theorem State.setG_khz (s : State) (k : Nat) (x : Group) : (s.setG k x).khz = s.khz := rfl
@[simp] theorem State.setG_groups (s : State) (k : Nat) (x : Group) : (s.setG k x).groups = s.groups.put k x := rfl
@[simp] theorem State.setG_blocks (s : State) (k : Nat) (x : Group) : (s.setG k x).blocks = s.blocks := rfl
@[simp] theorem State.setG_grids (s : State) (k : Nat) (x : Group) : (s.setG k x).grids = s.grids := rfl
@[simp] theorem State.setG_queues (s : State) (k : Nat) (x : Group) : (s.setG k x).queues = s.queues := rfl
@[simp] theorem State.setG_cores (s : State) (k : Nat) (x : Group) : (s.setG k x).cores = s.cores := rfl
@[simp] theorem State.setG_dies (s : State) (k : Nat) (x : Group) : (s.setG k x).dies = s.dies := rfl
@[simp] theorem State.setG_map (s : State) (k : Nat) (x : Group) : (s.setG k x).map = s.map := rfl
@[simp] theorem State.setG_failedCores (s : State) (k : Nat) (x : Group) : (s.setG k x).failedCores = s.failedCores := rfl
@[simp] theorem State.setG_mem (s : State) (k : Nat) (x : Group) : (s.setG k x).mem = s.mem := rfl
@[simp] theorem State.setG_log (s : State) (k : Nat) (x : Group) : (s.setG k x).log = s.log := rfl
@[simp] theorem State.setG_writes (s : State) (k : Nat) (x : Group) : (s.setG k x).writes = s.writes := rfl
@[simp] theorem State.setG_memPo (s : State) (k : Nat) (x : Group) : (s.setG k x).memPo = s.memPo := rfl
@[simp] theorem State.setG_red (s : State) (k : Nat) (x : Group) : (s.setG k x).red = s.red := rfl
@[simp] theorem State.setG_rgrace (s : State) (k : Nat) (x : Group) : (s.setG k x).rgrace = s.rgrace := rfl
@[simp] theorem State.setG_prectl (s : State) (k : Nat) (x : Group) : (s.setG k x).prectl = s.prectl := rfl
@[simp] theorem State.setG_tqrtok (s : State) (k : Nat) (x : Group) : (s.setG k x).tqrtok = s.tqrtok := rfl
@[simp] theorem State.setG_tokens (s : State) (k : Nat) (x : Group) : (s.setG k x).tokens = s.tokens := rfl
@[simp] theorem State.setG_contain (s : State) (k : Nat) (x : Group) : (s.setG k x).contain = s.contain := rfl
@[simp] theorem State.setG_containBusy (s : State) (k : Nat) (x : Group) : (s.setG k x).containBusy = s.containBusy := rfl
@[simp] theorem State.setG_containErr (s : State) (k : Nat) (x : Group) : (s.setG k x).containErr = s.containErr := rfl
@[simp] theorem State.setG_ttblo (s : State) (k : Nat) (x : Group) : (s.setG k x).ttblo = s.ttblo := rfl
@[simp] theorem State.setG_ttbhi (s : State) (k : Nat) (x : Group) : (s.setG k x).ttbhi = s.ttbhi := rfl
@[simp] theorem State.setG_fabid (s : State) (k : Nat) (x : Group) : (s.setG k x).fabid = s.fabid := rfl
@[simp] theorem State.setG_tickper (s : State) (k : Nat) (x : Group) : (s.setG k x).tickper = s.tickper := rfl
@[simp] theorem State.setG_tickInUse (s : State) (k : Nat) (x : Group) : (s.setG k x).tickInUse = s.tickInUse := rfl
@[simp] theorem State.setG_tickNext (s : State) (k : Nat) (x : Group) : (s.setG k x).tickNext = s.tickNext := rfl
@[simp] theorem State.setG_tick (s : State) (k : Nat) (x : Group) : (s.setG k x).tick = s.tick := rfl
@[simp] theorem State.setG_bounds (s : State) (k : Nat) (x : Group) : (s.setG k x).bounds = s.bounds := rfl
@[simp] theorem State.setG_tickAt (s : State) (k : Nat) (x : Group) : (s.setG k x).tickAt = s.tickAt := rfl
@[simp] theorem State.setG_tickHi (s : State) (k : Nat) (x : Group) : (s.setG k x).tickHi = s.tickHi := rfl
@[simp] theorem State.setG_locked (s : State) (k : Nat) (x : Group) : (s.setG k x).locked = s.locked := rfl
@[simp] theorem State.setG_mirctl (s : State) (k : Nat) (x : Group) : (s.setG k x).mirctl = s.mirctl := rfl
@[simp] theorem State.setG_mirstat (s : State) (k : Nat) (x : Group) : (s.setG k x).mirstat = s.mirstat := rfl
@[simp] theorem State.setG_mirror (s : State) (k : Nat) (x : Group) : (s.setG k x).mirror = s.mirror := rfl
@[simp] theorem State.setG_ports (s : State) (k : Nat) (x : Group) : (s.setG k x).ports = s.ports := rfl
@[simp] theorem State.setG_routes (s : State) (k : Nat) (x : Group) : (s.setG k x).routes = s.routes := rfl
@[simp] theorem State.setG_received (s : State) (k : Nat) (x : Group) : (s.setG k x).received = s.received := rfl
@[simp] theorem State.setG_markers (s : State) (k : Nat) (x : Group) : (s.setG k x).markers = s.markers := rfl
@[simp] theorem State.setG_outgoing (s : State) (k : Nat) (x : Group) : (s.setG k x).outgoing = s.outgoing := rfl
@[simp] theorem State.setG_sentMark (s : State) (k : Nat) (x : Group) : (s.setG k x).sentMark = s.sentMark := rfl
@[simp] theorem State.setG_comms (s : State) (k : Nat) (x : Group) : (s.setG k x).comms = s.comms := rfl
@[simp] theorem State.setG_adirlo (s : State) (k : Nat) (x : Group) : (s.setG k x).adirlo = s.adirlo := rfl
@[simp] theorem State.setG_adirhi (s : State) (k : Nat) (x : Group) : (s.setG k x).adirhi = s.adirhi := rfl
@[simp] theorem State.setG_alarmSrc (s : State) (k : Nat) (x : Group) : (s.setG k x).alarmSrc = s.alarmSrc := rfl
@[simp] theorem State.setG_alarmed (s : State) (k : Nat) (x : Group) : (s.setG k x).alarmed = s.alarmed := rfl
@[simp] theorem State.setG_keys (s : State) (k : Nat) (x : Group) : (s.setG k x).keys = s.keys := rfl
@[simp] theorem State.setG_provisioned (s : State) (k : Nat) (x : Group) : (s.setG k x).provisioned = s.provisioned := rfl
@[simp] theorem State.setG_inlets (s : State) (k : Nat) (x : Group) : (s.setG k x).inlets = s.inlets := rfl
@[simp] theorem State.setG_inletHeld (s : State) (k : Nat) (x : Group) : (s.setG k x).inletHeld = s.inletHeld := rfl
@[simp] theorem State.setG_outlets (s : State) (k : Nat) (x : Group) : (s.setG k x).outlets = s.outlets := rfl
@[simp] theorem State.setG_winbase (s : State) (k : Nat) (x : Group) : (s.setG k x).winbase = s.winbase := rfl
@[simp] theorem State.setG_outbase (s : State) (k : Nat) (x : Group) : (s.setG k x).outbase = s.outbase := rfl
@[simp] theorem State.setG_drops (s : State) (k : Nat) (x : Group) : (s.setG k x).drops = s.drops := rfl
@[simp] theorem State.setG_outprod (s : State) (k : Nat) (x : Group) : (s.setG k x).outprod = s.outprod := rfl
@[simp] theorem State.setG_outcons (s : State) (k : Nat) (x : Group) : (s.setG k x).outcons = s.outcons := rfl
@[simp] theorem State.setG_linkUp (s : State) (k : Nat) (x : Group) : (s.setG k x).linkUp = s.linkUp := rfl
@[simp] theorem State.setG_hostOut (s : State) (k : Nat) (x : Group) : (s.setG k x).hostOut = s.hostOut := rfl
@[simp] theorem State.setG_hostMem (s : State) (k : Nat) (x : Group) : (s.setG k x).hostMem = s.hostMem := rfl
@[simp] theorem State.setG_peerMem (s : State) (k : Nat) (x : Group) : (s.setG k x).peerMem = s.peerMem := rfl
@[simp] theorem State.setG_ctlGrid (s : State) (k : Nat) (x : Group) : (s.setG k x).ctlGrid = s.ctlGrid := rfl
@[simp] theorem State.setG_ctlParams (s : State) (k : Nat) (x : Group) : (s.setG k x).ctlParams = s.ctlParams := rfl
@[simp] theorem State.setG_images (s : State) (k : Nat) (x : Group) : (s.setG k x).images = s.images := rfl
@[simp] theorem State.setG_nextGid (s : State) (k : Nat) (x : Group) : (s.setG k x).nextGid = s.nextGid := rfl
@[simp] theorem State.setG_nextBid (s : State) (k : Nat) (x : Group) : (s.setG k x).nextBid = s.nextBid := rfl
@[simp] theorem State.setG_seq (s : State) (k : Nat) (x : Group) : (s.setG k x).seq = s.seq := rfl
@[simp] theorem State.setG_free (s : State) (k : Nat) (x : Group) : (s.setG k x).free = s.free := rfl
@[simp] theorem State.setG_cur (s : State) (k : Nat) (x : Group) : (s.setG k x).cur = s.cur := rfl
@[simp] theorem State.setG_inputs (s : State) (k : Nat) (x : Group) : (s.setG k x).inputs = s.inputs := rfl

@[simp] theorem State.setB_part (s : State) (k : Nat) (x : Block) : (s.setB k x).part = s.part := rfl
@[simp] theorem State.setB_powered (s : State) (k : Nat) (x : Block) : (s.setB k x).powered = s.powered := rfl
@[simp] theorem State.setB_broughtUp (s : State) (k : Nat) (x : Block) : (s.setB k x).broughtUp = s.broughtUp := rfl
@[simp] theorem State.setB_cycle (s : State) (k : Nat) (x : Block) : (s.setB k x).cycle = s.cycle := rfl
@[simp] theorem State.setB_ns (s : State) (k : Nat) (x : Block) : (s.setB k x).ns = s.ns := rfl
@[simp] theorem State.setB_nsRem (s : State) (k : Nat) (x : Block) : (s.setB k x).nsRem = s.nsRem := rfl
@[simp] theorem State.setB_khz (s : State) (k : Nat) (x : Block) : (s.setB k x).khz = s.khz := rfl
@[simp] theorem State.setB_groups (s : State) (k : Nat) (x : Block) : (s.setB k x).groups = s.groups := rfl
@[simp] theorem State.setB_blocks (s : State) (k : Nat) (x : Block) : (s.setB k x).blocks = s.blocks.put k x := rfl
@[simp] theorem State.setB_grids (s : State) (k : Nat) (x : Block) : (s.setB k x).grids = s.grids := rfl
@[simp] theorem State.setB_queues (s : State) (k : Nat) (x : Block) : (s.setB k x).queues = s.queues := rfl
@[simp] theorem State.setB_cores (s : State) (k : Nat) (x : Block) : (s.setB k x).cores = s.cores := rfl
@[simp] theorem State.setB_dies (s : State) (k : Nat) (x : Block) : (s.setB k x).dies = s.dies := rfl
@[simp] theorem State.setB_map (s : State) (k : Nat) (x : Block) : (s.setB k x).map = s.map := rfl
@[simp] theorem State.setB_failedCores (s : State) (k : Nat) (x : Block) : (s.setB k x).failedCores = s.failedCores := rfl
@[simp] theorem State.setB_mem (s : State) (k : Nat) (x : Block) : (s.setB k x).mem = s.mem := rfl
@[simp] theorem State.setB_log (s : State) (k : Nat) (x : Block) : (s.setB k x).log = s.log := rfl
@[simp] theorem State.setB_writes (s : State) (k : Nat) (x : Block) : (s.setB k x).writes = s.writes := rfl
@[simp] theorem State.setB_memPo (s : State) (k : Nat) (x : Block) : (s.setB k x).memPo = s.memPo := rfl
@[simp] theorem State.setB_red (s : State) (k : Nat) (x : Block) : (s.setB k x).red = s.red := rfl
@[simp] theorem State.setB_rgrace (s : State) (k : Nat) (x : Block) : (s.setB k x).rgrace = s.rgrace := rfl
@[simp] theorem State.setB_prectl (s : State) (k : Nat) (x : Block) : (s.setB k x).prectl = s.prectl := rfl
@[simp] theorem State.setB_tqrtok (s : State) (k : Nat) (x : Block) : (s.setB k x).tqrtok = s.tqrtok := rfl
@[simp] theorem State.setB_tokens (s : State) (k : Nat) (x : Block) : (s.setB k x).tokens = s.tokens := rfl
@[simp] theorem State.setB_contain (s : State) (k : Nat) (x : Block) : (s.setB k x).contain = s.contain := rfl
@[simp] theorem State.setB_containBusy (s : State) (k : Nat) (x : Block) : (s.setB k x).containBusy = s.containBusy := rfl
@[simp] theorem State.setB_containErr (s : State) (k : Nat) (x : Block) : (s.setB k x).containErr = s.containErr := rfl
@[simp] theorem State.setB_ttblo (s : State) (k : Nat) (x : Block) : (s.setB k x).ttblo = s.ttblo := rfl
@[simp] theorem State.setB_ttbhi (s : State) (k : Nat) (x : Block) : (s.setB k x).ttbhi = s.ttbhi := rfl
@[simp] theorem State.setB_fabid (s : State) (k : Nat) (x : Block) : (s.setB k x).fabid = s.fabid := rfl
@[simp] theorem State.setB_tickper (s : State) (k : Nat) (x : Block) : (s.setB k x).tickper = s.tickper := rfl
@[simp] theorem State.setB_tickInUse (s : State) (k : Nat) (x : Block) : (s.setB k x).tickInUse = s.tickInUse := rfl
@[simp] theorem State.setB_tickNext (s : State) (k : Nat) (x : Block) : (s.setB k x).tickNext = s.tickNext := rfl
@[simp] theorem State.setB_tick (s : State) (k : Nat) (x : Block) : (s.setB k x).tick = s.tick := rfl
@[simp] theorem State.setB_bounds (s : State) (k : Nat) (x : Block) : (s.setB k x).bounds = s.bounds := rfl
@[simp] theorem State.setB_tickAt (s : State) (k : Nat) (x : Block) : (s.setB k x).tickAt = s.tickAt := rfl
@[simp] theorem State.setB_tickHi (s : State) (k : Nat) (x : Block) : (s.setB k x).tickHi = s.tickHi := rfl
@[simp] theorem State.setB_locked (s : State) (k : Nat) (x : Block) : (s.setB k x).locked = s.locked := rfl
@[simp] theorem State.setB_mirctl (s : State) (k : Nat) (x : Block) : (s.setB k x).mirctl = s.mirctl := rfl
@[simp] theorem State.setB_mirstat (s : State) (k : Nat) (x : Block) : (s.setB k x).mirstat = s.mirstat := rfl
@[simp] theorem State.setB_mirror (s : State) (k : Nat) (x : Block) : (s.setB k x).mirror = s.mirror := rfl
@[simp] theorem State.setB_ports (s : State) (k : Nat) (x : Block) : (s.setB k x).ports = s.ports := rfl
@[simp] theorem State.setB_routes (s : State) (k : Nat) (x : Block) : (s.setB k x).routes = s.routes := rfl
@[simp] theorem State.setB_received (s : State) (k : Nat) (x : Block) : (s.setB k x).received = s.received := rfl
@[simp] theorem State.setB_markers (s : State) (k : Nat) (x : Block) : (s.setB k x).markers = s.markers := rfl
@[simp] theorem State.setB_outgoing (s : State) (k : Nat) (x : Block) : (s.setB k x).outgoing = s.outgoing := rfl
@[simp] theorem State.setB_sentMark (s : State) (k : Nat) (x : Block) : (s.setB k x).sentMark = s.sentMark := rfl
@[simp] theorem State.setB_comms (s : State) (k : Nat) (x : Block) : (s.setB k x).comms = s.comms := rfl
@[simp] theorem State.setB_adirlo (s : State) (k : Nat) (x : Block) : (s.setB k x).adirlo = s.adirlo := rfl
@[simp] theorem State.setB_adirhi (s : State) (k : Nat) (x : Block) : (s.setB k x).adirhi = s.adirhi := rfl
@[simp] theorem State.setB_alarmSrc (s : State) (k : Nat) (x : Block) : (s.setB k x).alarmSrc = s.alarmSrc := rfl
@[simp] theorem State.setB_alarmed (s : State) (k : Nat) (x : Block) : (s.setB k x).alarmed = s.alarmed := rfl
@[simp] theorem State.setB_keys (s : State) (k : Nat) (x : Block) : (s.setB k x).keys = s.keys := rfl
@[simp] theorem State.setB_provisioned (s : State) (k : Nat) (x : Block) : (s.setB k x).provisioned = s.provisioned := rfl
@[simp] theorem State.setB_inlets (s : State) (k : Nat) (x : Block) : (s.setB k x).inlets = s.inlets := rfl
@[simp] theorem State.setB_inletHeld (s : State) (k : Nat) (x : Block) : (s.setB k x).inletHeld = s.inletHeld := rfl
@[simp] theorem State.setB_outlets (s : State) (k : Nat) (x : Block) : (s.setB k x).outlets = s.outlets := rfl
@[simp] theorem State.setB_winbase (s : State) (k : Nat) (x : Block) : (s.setB k x).winbase = s.winbase := rfl
@[simp] theorem State.setB_outbase (s : State) (k : Nat) (x : Block) : (s.setB k x).outbase = s.outbase := rfl
@[simp] theorem State.setB_drops (s : State) (k : Nat) (x : Block) : (s.setB k x).drops = s.drops := rfl
@[simp] theorem State.setB_outprod (s : State) (k : Nat) (x : Block) : (s.setB k x).outprod = s.outprod := rfl
@[simp] theorem State.setB_outcons (s : State) (k : Nat) (x : Block) : (s.setB k x).outcons = s.outcons := rfl
@[simp] theorem State.setB_linkUp (s : State) (k : Nat) (x : Block) : (s.setB k x).linkUp = s.linkUp := rfl
@[simp] theorem State.setB_hostOut (s : State) (k : Nat) (x : Block) : (s.setB k x).hostOut = s.hostOut := rfl
@[simp] theorem State.setB_hostMem (s : State) (k : Nat) (x : Block) : (s.setB k x).hostMem = s.hostMem := rfl
@[simp] theorem State.setB_peerMem (s : State) (k : Nat) (x : Block) : (s.setB k x).peerMem = s.peerMem := rfl
@[simp] theorem State.setB_ctlGrid (s : State) (k : Nat) (x : Block) : (s.setB k x).ctlGrid = s.ctlGrid := rfl
@[simp] theorem State.setB_ctlParams (s : State) (k : Nat) (x : Block) : (s.setB k x).ctlParams = s.ctlParams := rfl
@[simp] theorem State.setB_images (s : State) (k : Nat) (x : Block) : (s.setB k x).images = s.images := rfl
@[simp] theorem State.setB_nextGid (s : State) (k : Nat) (x : Block) : (s.setB k x).nextGid = s.nextGid := rfl
@[simp] theorem State.setB_nextBid (s : State) (k : Nat) (x : Block) : (s.setB k x).nextBid = s.nextBid := rfl
@[simp] theorem State.setB_seq (s : State) (k : Nat) (x : Block) : (s.setB k x).seq = s.seq := rfl
@[simp] theorem State.setB_free (s : State) (k : Nat) (x : Block) : (s.setB k x).free = s.free := rfl
@[simp] theorem State.setB_cur (s : State) (k : Nat) (x : Block) : (s.setB k x).cur = s.cur := rfl
@[simp] theorem State.setB_inputs (s : State) (k : Nat) (x : Block) : (s.setB k x).inputs = s.inputs := rfl

@[simp] theorem State.setGr_part (s : State) (k : Nat) (x : Grid) : (s.setGr k x).part = s.part := rfl
@[simp] theorem State.setGr_powered (s : State) (k : Nat) (x : Grid) : (s.setGr k x).powered = s.powered := rfl
@[simp] theorem State.setGr_broughtUp (s : State) (k : Nat) (x : Grid) : (s.setGr k x).broughtUp = s.broughtUp := rfl
@[simp] theorem State.setGr_cycle (s : State) (k : Nat) (x : Grid) : (s.setGr k x).cycle = s.cycle := rfl
@[simp] theorem State.setGr_ns (s : State) (k : Nat) (x : Grid) : (s.setGr k x).ns = s.ns := rfl
@[simp] theorem State.setGr_nsRem (s : State) (k : Nat) (x : Grid) : (s.setGr k x).nsRem = s.nsRem := rfl
@[simp] theorem State.setGr_khz (s : State) (k : Nat) (x : Grid) : (s.setGr k x).khz = s.khz := rfl
@[simp] theorem State.setGr_groups (s : State) (k : Nat) (x : Grid) : (s.setGr k x).groups = s.groups := rfl
@[simp] theorem State.setGr_blocks (s : State) (k : Nat) (x : Grid) : (s.setGr k x).blocks = s.blocks := rfl
@[simp] theorem State.setGr_grids (s : State) (k : Nat) (x : Grid) : (s.setGr k x).grids = s.grids.put k x := rfl
@[simp] theorem State.setGr_queues (s : State) (k : Nat) (x : Grid) : (s.setGr k x).queues = s.queues := rfl
@[simp] theorem State.setGr_cores (s : State) (k : Nat) (x : Grid) : (s.setGr k x).cores = s.cores := rfl
@[simp] theorem State.setGr_dies (s : State) (k : Nat) (x : Grid) : (s.setGr k x).dies = s.dies := rfl
@[simp] theorem State.setGr_map (s : State) (k : Nat) (x : Grid) : (s.setGr k x).map = s.map := rfl
@[simp] theorem State.setGr_failedCores (s : State) (k : Nat) (x : Grid) : (s.setGr k x).failedCores = s.failedCores := rfl
@[simp] theorem State.setGr_mem (s : State) (k : Nat) (x : Grid) : (s.setGr k x).mem = s.mem := rfl
@[simp] theorem State.setGr_log (s : State) (k : Nat) (x : Grid) : (s.setGr k x).log = s.log := rfl
@[simp] theorem State.setGr_writes (s : State) (k : Nat) (x : Grid) : (s.setGr k x).writes = s.writes := rfl
@[simp] theorem State.setGr_memPo (s : State) (k : Nat) (x : Grid) : (s.setGr k x).memPo = s.memPo := rfl
@[simp] theorem State.setGr_red (s : State) (k : Nat) (x : Grid) : (s.setGr k x).red = s.red := rfl
@[simp] theorem State.setGr_rgrace (s : State) (k : Nat) (x : Grid) : (s.setGr k x).rgrace = s.rgrace := rfl
@[simp] theorem State.setGr_prectl (s : State) (k : Nat) (x : Grid) : (s.setGr k x).prectl = s.prectl := rfl
@[simp] theorem State.setGr_tqrtok (s : State) (k : Nat) (x : Grid) : (s.setGr k x).tqrtok = s.tqrtok := rfl
@[simp] theorem State.setGr_tokens (s : State) (k : Nat) (x : Grid) : (s.setGr k x).tokens = s.tokens := rfl
@[simp] theorem State.setGr_contain (s : State) (k : Nat) (x : Grid) : (s.setGr k x).contain = s.contain := rfl
@[simp] theorem State.setGr_containBusy (s : State) (k : Nat) (x : Grid) : (s.setGr k x).containBusy = s.containBusy := rfl
@[simp] theorem State.setGr_containErr (s : State) (k : Nat) (x : Grid) : (s.setGr k x).containErr = s.containErr := rfl
@[simp] theorem State.setGr_ttblo (s : State) (k : Nat) (x : Grid) : (s.setGr k x).ttblo = s.ttblo := rfl
@[simp] theorem State.setGr_ttbhi (s : State) (k : Nat) (x : Grid) : (s.setGr k x).ttbhi = s.ttbhi := rfl
@[simp] theorem State.setGr_fabid (s : State) (k : Nat) (x : Grid) : (s.setGr k x).fabid = s.fabid := rfl
@[simp] theorem State.setGr_tickper (s : State) (k : Nat) (x : Grid) : (s.setGr k x).tickper = s.tickper := rfl
@[simp] theorem State.setGr_tickInUse (s : State) (k : Nat) (x : Grid) : (s.setGr k x).tickInUse = s.tickInUse := rfl
@[simp] theorem State.setGr_tickNext (s : State) (k : Nat) (x : Grid) : (s.setGr k x).tickNext = s.tickNext := rfl
@[simp] theorem State.setGr_tick (s : State) (k : Nat) (x : Grid) : (s.setGr k x).tick = s.tick := rfl
@[simp] theorem State.setGr_bounds (s : State) (k : Nat) (x : Grid) : (s.setGr k x).bounds = s.bounds := rfl
@[simp] theorem State.setGr_tickAt (s : State) (k : Nat) (x : Grid) : (s.setGr k x).tickAt = s.tickAt := rfl
@[simp] theorem State.setGr_tickHi (s : State) (k : Nat) (x : Grid) : (s.setGr k x).tickHi = s.tickHi := rfl
@[simp] theorem State.setGr_locked (s : State) (k : Nat) (x : Grid) : (s.setGr k x).locked = s.locked := rfl
@[simp] theorem State.setGr_mirctl (s : State) (k : Nat) (x : Grid) : (s.setGr k x).mirctl = s.mirctl := rfl
@[simp] theorem State.setGr_mirstat (s : State) (k : Nat) (x : Grid) : (s.setGr k x).mirstat = s.mirstat := rfl
@[simp] theorem State.setGr_mirror (s : State) (k : Nat) (x : Grid) : (s.setGr k x).mirror = s.mirror := rfl
@[simp] theorem State.setGr_ports (s : State) (k : Nat) (x : Grid) : (s.setGr k x).ports = s.ports := rfl
@[simp] theorem State.setGr_routes (s : State) (k : Nat) (x : Grid) : (s.setGr k x).routes = s.routes := rfl
@[simp] theorem State.setGr_received (s : State) (k : Nat) (x : Grid) : (s.setGr k x).received = s.received := rfl
@[simp] theorem State.setGr_markers (s : State) (k : Nat) (x : Grid) : (s.setGr k x).markers = s.markers := rfl
@[simp] theorem State.setGr_outgoing (s : State) (k : Nat) (x : Grid) : (s.setGr k x).outgoing = s.outgoing := rfl
@[simp] theorem State.setGr_sentMark (s : State) (k : Nat) (x : Grid) : (s.setGr k x).sentMark = s.sentMark := rfl
@[simp] theorem State.setGr_comms (s : State) (k : Nat) (x : Grid) : (s.setGr k x).comms = s.comms := rfl
@[simp] theorem State.setGr_adirlo (s : State) (k : Nat) (x : Grid) : (s.setGr k x).adirlo = s.adirlo := rfl
@[simp] theorem State.setGr_adirhi (s : State) (k : Nat) (x : Grid) : (s.setGr k x).adirhi = s.adirhi := rfl
@[simp] theorem State.setGr_alarmSrc (s : State) (k : Nat) (x : Grid) : (s.setGr k x).alarmSrc = s.alarmSrc := rfl
@[simp] theorem State.setGr_alarmed (s : State) (k : Nat) (x : Grid) : (s.setGr k x).alarmed = s.alarmed := rfl
@[simp] theorem State.setGr_keys (s : State) (k : Nat) (x : Grid) : (s.setGr k x).keys = s.keys := rfl
@[simp] theorem State.setGr_provisioned (s : State) (k : Nat) (x : Grid) : (s.setGr k x).provisioned = s.provisioned := rfl
@[simp] theorem State.setGr_inlets (s : State) (k : Nat) (x : Grid) : (s.setGr k x).inlets = s.inlets := rfl
@[simp] theorem State.setGr_inletHeld (s : State) (k : Nat) (x : Grid) : (s.setGr k x).inletHeld = s.inletHeld := rfl
@[simp] theorem State.setGr_outlets (s : State) (k : Nat) (x : Grid) : (s.setGr k x).outlets = s.outlets := rfl
@[simp] theorem State.setGr_winbase (s : State) (k : Nat) (x : Grid) : (s.setGr k x).winbase = s.winbase := rfl
@[simp] theorem State.setGr_outbase (s : State) (k : Nat) (x : Grid) : (s.setGr k x).outbase = s.outbase := rfl
@[simp] theorem State.setGr_drops (s : State) (k : Nat) (x : Grid) : (s.setGr k x).drops = s.drops := rfl
@[simp] theorem State.setGr_outprod (s : State) (k : Nat) (x : Grid) : (s.setGr k x).outprod = s.outprod := rfl
@[simp] theorem State.setGr_outcons (s : State) (k : Nat) (x : Grid) : (s.setGr k x).outcons = s.outcons := rfl
@[simp] theorem State.setGr_linkUp (s : State) (k : Nat) (x : Grid) : (s.setGr k x).linkUp = s.linkUp := rfl
@[simp] theorem State.setGr_hostOut (s : State) (k : Nat) (x : Grid) : (s.setGr k x).hostOut = s.hostOut := rfl
@[simp] theorem State.setGr_hostMem (s : State) (k : Nat) (x : Grid) : (s.setGr k x).hostMem = s.hostMem := rfl
@[simp] theorem State.setGr_peerMem (s : State) (k : Nat) (x : Grid) : (s.setGr k x).peerMem = s.peerMem := rfl
@[simp] theorem State.setGr_ctlGrid (s : State) (k : Nat) (x : Grid) : (s.setGr k x).ctlGrid = s.ctlGrid := rfl
@[simp] theorem State.setGr_ctlParams (s : State) (k : Nat) (x : Grid) : (s.setGr k x).ctlParams = s.ctlParams := rfl
@[simp] theorem State.setGr_images (s : State) (k : Nat) (x : Grid) : (s.setGr k x).images = s.images := rfl
@[simp] theorem State.setGr_nextGid (s : State) (k : Nat) (x : Grid) : (s.setGr k x).nextGid = s.nextGid := rfl
@[simp] theorem State.setGr_nextBid (s : State) (k : Nat) (x : Grid) : (s.setGr k x).nextBid = s.nextBid := rfl
@[simp] theorem State.setGr_seq (s : State) (k : Nat) (x : Grid) : (s.setGr k x).seq = s.seq := rfl
@[simp] theorem State.setGr_free (s : State) (k : Nat) (x : Grid) : (s.setGr k x).free = s.free := rfl
@[simp] theorem State.setGr_cur (s : State) (k : Nat) (x : Grid) : (s.setGr k x).cur = s.cur := rfl
@[simp] theorem State.setGr_inputs (s : State) (k : Nat) (x : Grid) : (s.setGr k x).inputs = s.inputs := rfl

@[simp] theorem State.setCo_part (s : State) (k : Nat) (x : Core) : (s.setCo k x).part = s.part := rfl
@[simp] theorem State.setCo_powered (s : State) (k : Nat) (x : Core) : (s.setCo k x).powered = s.powered := rfl
@[simp] theorem State.setCo_broughtUp (s : State) (k : Nat) (x : Core) : (s.setCo k x).broughtUp = s.broughtUp := rfl
@[simp] theorem State.setCo_cycle (s : State) (k : Nat) (x : Core) : (s.setCo k x).cycle = s.cycle := rfl
@[simp] theorem State.setCo_ns (s : State) (k : Nat) (x : Core) : (s.setCo k x).ns = s.ns := rfl
@[simp] theorem State.setCo_nsRem (s : State) (k : Nat) (x : Core) : (s.setCo k x).nsRem = s.nsRem := rfl
@[simp] theorem State.setCo_khz (s : State) (k : Nat) (x : Core) : (s.setCo k x).khz = s.khz := rfl
@[simp] theorem State.setCo_groups (s : State) (k : Nat) (x : Core) : (s.setCo k x).groups = s.groups := rfl
@[simp] theorem State.setCo_blocks (s : State) (k : Nat) (x : Core) : (s.setCo k x).blocks = s.blocks := rfl
@[simp] theorem State.setCo_grids (s : State) (k : Nat) (x : Core) : (s.setCo k x).grids = s.grids := rfl
@[simp] theorem State.setCo_queues (s : State) (k : Nat) (x : Core) : (s.setCo k x).queues = s.queues := rfl
@[simp] theorem State.setCo_cores (s : State) (k : Nat) (x : Core) : (s.setCo k x).cores = s.cores.put k x := rfl
@[simp] theorem State.setCo_dies (s : State) (k : Nat) (x : Core) : (s.setCo k x).dies = s.dies := rfl
@[simp] theorem State.setCo_map (s : State) (k : Nat) (x : Core) : (s.setCo k x).map = s.map := rfl
@[simp] theorem State.setCo_failedCores (s : State) (k : Nat) (x : Core) : (s.setCo k x).failedCores = s.failedCores := rfl
@[simp] theorem State.setCo_mem (s : State) (k : Nat) (x : Core) : (s.setCo k x).mem = s.mem := rfl
@[simp] theorem State.setCo_log (s : State) (k : Nat) (x : Core) : (s.setCo k x).log = s.log := rfl
@[simp] theorem State.setCo_writes (s : State) (k : Nat) (x : Core) : (s.setCo k x).writes = s.writes := rfl
@[simp] theorem State.setCo_memPo (s : State) (k : Nat) (x : Core) : (s.setCo k x).memPo = s.memPo := rfl
@[simp] theorem State.setCo_red (s : State) (k : Nat) (x : Core) : (s.setCo k x).red = s.red := rfl
@[simp] theorem State.setCo_rgrace (s : State) (k : Nat) (x : Core) : (s.setCo k x).rgrace = s.rgrace := rfl
@[simp] theorem State.setCo_prectl (s : State) (k : Nat) (x : Core) : (s.setCo k x).prectl = s.prectl := rfl
@[simp] theorem State.setCo_tqrtok (s : State) (k : Nat) (x : Core) : (s.setCo k x).tqrtok = s.tqrtok := rfl
@[simp] theorem State.setCo_tokens (s : State) (k : Nat) (x : Core) : (s.setCo k x).tokens = s.tokens := rfl
@[simp] theorem State.setCo_contain (s : State) (k : Nat) (x : Core) : (s.setCo k x).contain = s.contain := rfl
@[simp] theorem State.setCo_containBusy (s : State) (k : Nat) (x : Core) : (s.setCo k x).containBusy = s.containBusy := rfl
@[simp] theorem State.setCo_containErr (s : State) (k : Nat) (x : Core) : (s.setCo k x).containErr = s.containErr := rfl
@[simp] theorem State.setCo_ttblo (s : State) (k : Nat) (x : Core) : (s.setCo k x).ttblo = s.ttblo := rfl
@[simp] theorem State.setCo_ttbhi (s : State) (k : Nat) (x : Core) : (s.setCo k x).ttbhi = s.ttbhi := rfl
@[simp] theorem State.setCo_fabid (s : State) (k : Nat) (x : Core) : (s.setCo k x).fabid = s.fabid := rfl
@[simp] theorem State.setCo_tickper (s : State) (k : Nat) (x : Core) : (s.setCo k x).tickper = s.tickper := rfl
@[simp] theorem State.setCo_tickInUse (s : State) (k : Nat) (x : Core) : (s.setCo k x).tickInUse = s.tickInUse := rfl
@[simp] theorem State.setCo_tickNext (s : State) (k : Nat) (x : Core) : (s.setCo k x).tickNext = s.tickNext := rfl
@[simp] theorem State.setCo_tick (s : State) (k : Nat) (x : Core) : (s.setCo k x).tick = s.tick := rfl
@[simp] theorem State.setCo_bounds (s : State) (k : Nat) (x : Core) : (s.setCo k x).bounds = s.bounds := rfl
@[simp] theorem State.setCo_tickAt (s : State) (k : Nat) (x : Core) : (s.setCo k x).tickAt = s.tickAt := rfl
@[simp] theorem State.setCo_tickHi (s : State) (k : Nat) (x : Core) : (s.setCo k x).tickHi = s.tickHi := rfl
@[simp] theorem State.setCo_locked (s : State) (k : Nat) (x : Core) : (s.setCo k x).locked = s.locked := rfl
@[simp] theorem State.setCo_mirctl (s : State) (k : Nat) (x : Core) : (s.setCo k x).mirctl = s.mirctl := rfl
@[simp] theorem State.setCo_mirstat (s : State) (k : Nat) (x : Core) : (s.setCo k x).mirstat = s.mirstat := rfl
@[simp] theorem State.setCo_mirror (s : State) (k : Nat) (x : Core) : (s.setCo k x).mirror = s.mirror := rfl
@[simp] theorem State.setCo_ports (s : State) (k : Nat) (x : Core) : (s.setCo k x).ports = s.ports := rfl
@[simp] theorem State.setCo_routes (s : State) (k : Nat) (x : Core) : (s.setCo k x).routes = s.routes := rfl
@[simp] theorem State.setCo_received (s : State) (k : Nat) (x : Core) : (s.setCo k x).received = s.received := rfl
@[simp] theorem State.setCo_markers (s : State) (k : Nat) (x : Core) : (s.setCo k x).markers = s.markers := rfl
@[simp] theorem State.setCo_outgoing (s : State) (k : Nat) (x : Core) : (s.setCo k x).outgoing = s.outgoing := rfl
@[simp] theorem State.setCo_sentMark (s : State) (k : Nat) (x : Core) : (s.setCo k x).sentMark = s.sentMark := rfl
@[simp] theorem State.setCo_comms (s : State) (k : Nat) (x : Core) : (s.setCo k x).comms = s.comms := rfl
@[simp] theorem State.setCo_adirlo (s : State) (k : Nat) (x : Core) : (s.setCo k x).adirlo = s.adirlo := rfl
@[simp] theorem State.setCo_adirhi (s : State) (k : Nat) (x : Core) : (s.setCo k x).adirhi = s.adirhi := rfl
@[simp] theorem State.setCo_alarmSrc (s : State) (k : Nat) (x : Core) : (s.setCo k x).alarmSrc = s.alarmSrc := rfl
@[simp] theorem State.setCo_alarmed (s : State) (k : Nat) (x : Core) : (s.setCo k x).alarmed = s.alarmed := rfl
@[simp] theorem State.setCo_keys (s : State) (k : Nat) (x : Core) : (s.setCo k x).keys = s.keys := rfl
@[simp] theorem State.setCo_provisioned (s : State) (k : Nat) (x : Core) : (s.setCo k x).provisioned = s.provisioned := rfl
@[simp] theorem State.setCo_inlets (s : State) (k : Nat) (x : Core) : (s.setCo k x).inlets = s.inlets := rfl
@[simp] theorem State.setCo_inletHeld (s : State) (k : Nat) (x : Core) : (s.setCo k x).inletHeld = s.inletHeld := rfl
@[simp] theorem State.setCo_outlets (s : State) (k : Nat) (x : Core) : (s.setCo k x).outlets = s.outlets := rfl
@[simp] theorem State.setCo_winbase (s : State) (k : Nat) (x : Core) : (s.setCo k x).winbase = s.winbase := rfl
@[simp] theorem State.setCo_outbase (s : State) (k : Nat) (x : Core) : (s.setCo k x).outbase = s.outbase := rfl
@[simp] theorem State.setCo_drops (s : State) (k : Nat) (x : Core) : (s.setCo k x).drops = s.drops := rfl
@[simp] theorem State.setCo_outprod (s : State) (k : Nat) (x : Core) : (s.setCo k x).outprod = s.outprod := rfl
@[simp] theorem State.setCo_outcons (s : State) (k : Nat) (x : Core) : (s.setCo k x).outcons = s.outcons := rfl
@[simp] theorem State.setCo_linkUp (s : State) (k : Nat) (x : Core) : (s.setCo k x).linkUp = s.linkUp := rfl
@[simp] theorem State.setCo_hostOut (s : State) (k : Nat) (x : Core) : (s.setCo k x).hostOut = s.hostOut := rfl
@[simp] theorem State.setCo_hostMem (s : State) (k : Nat) (x : Core) : (s.setCo k x).hostMem = s.hostMem := rfl
@[simp] theorem State.setCo_peerMem (s : State) (k : Nat) (x : Core) : (s.setCo k x).peerMem = s.peerMem := rfl
@[simp] theorem State.setCo_ctlGrid (s : State) (k : Nat) (x : Core) : (s.setCo k x).ctlGrid = s.ctlGrid := rfl
@[simp] theorem State.setCo_ctlParams (s : State) (k : Nat) (x : Core) : (s.setCo k x).ctlParams = s.ctlParams := rfl
@[simp] theorem State.setCo_images (s : State) (k : Nat) (x : Core) : (s.setCo k x).images = s.images := rfl
@[simp] theorem State.setCo_nextGid (s : State) (k : Nat) (x : Core) : (s.setCo k x).nextGid = s.nextGid := rfl
@[simp] theorem State.setCo_nextBid (s : State) (k : Nat) (x : Core) : (s.setCo k x).nextBid = s.nextBid := rfl
@[simp] theorem State.setCo_seq (s : State) (k : Nat) (x : Core) : (s.setCo k x).seq = s.seq := rfl
@[simp] theorem State.setCo_free (s : State) (k : Nat) (x : Core) : (s.setCo k x).free = s.free := rfl
@[simp] theorem State.setCo_cur (s : State) (k : Nat) (x : Core) : (s.setCo k x).cur = s.cur := rfl
@[simp] theorem State.setCo_inputs (s : State) (k : Nat) (x : Core) : (s.setCo k x).inputs = s.inputs := rfl

@[simp] theorem State.setDi_part (s : State) (k : Nat) (x : Die) : (s.setDi k x).part = s.part := rfl
@[simp] theorem State.setDi_powered (s : State) (k : Nat) (x : Die) : (s.setDi k x).powered = s.powered := rfl
@[simp] theorem State.setDi_broughtUp (s : State) (k : Nat) (x : Die) : (s.setDi k x).broughtUp = s.broughtUp := rfl
@[simp] theorem State.setDi_cycle (s : State) (k : Nat) (x : Die) : (s.setDi k x).cycle = s.cycle := rfl
@[simp] theorem State.setDi_ns (s : State) (k : Nat) (x : Die) : (s.setDi k x).ns = s.ns := rfl
@[simp] theorem State.setDi_nsRem (s : State) (k : Nat) (x : Die) : (s.setDi k x).nsRem = s.nsRem := rfl
@[simp] theorem State.setDi_khz (s : State) (k : Nat) (x : Die) : (s.setDi k x).khz = s.khz := rfl
@[simp] theorem State.setDi_groups (s : State) (k : Nat) (x : Die) : (s.setDi k x).groups = s.groups := rfl
@[simp] theorem State.setDi_blocks (s : State) (k : Nat) (x : Die) : (s.setDi k x).blocks = s.blocks := rfl
@[simp] theorem State.setDi_grids (s : State) (k : Nat) (x : Die) : (s.setDi k x).grids = s.grids := rfl
@[simp] theorem State.setDi_queues (s : State) (k : Nat) (x : Die) : (s.setDi k x).queues = s.queues := rfl
@[simp] theorem State.setDi_cores (s : State) (k : Nat) (x : Die) : (s.setDi k x).cores = s.cores := rfl
@[simp] theorem State.setDi_dies (s : State) (k : Nat) (x : Die) : (s.setDi k x).dies = s.dies.put k x := rfl
@[simp] theorem State.setDi_map (s : State) (k : Nat) (x : Die) : (s.setDi k x).map = s.map := rfl
@[simp] theorem State.setDi_failedCores (s : State) (k : Nat) (x : Die) : (s.setDi k x).failedCores = s.failedCores := rfl
@[simp] theorem State.setDi_mem (s : State) (k : Nat) (x : Die) : (s.setDi k x).mem = s.mem := rfl
@[simp] theorem State.setDi_log (s : State) (k : Nat) (x : Die) : (s.setDi k x).log = s.log := rfl
@[simp] theorem State.setDi_writes (s : State) (k : Nat) (x : Die) : (s.setDi k x).writes = s.writes := rfl
@[simp] theorem State.setDi_memPo (s : State) (k : Nat) (x : Die) : (s.setDi k x).memPo = s.memPo := rfl
@[simp] theorem State.setDi_red (s : State) (k : Nat) (x : Die) : (s.setDi k x).red = s.red := rfl
@[simp] theorem State.setDi_rgrace (s : State) (k : Nat) (x : Die) : (s.setDi k x).rgrace = s.rgrace := rfl
@[simp] theorem State.setDi_prectl (s : State) (k : Nat) (x : Die) : (s.setDi k x).prectl = s.prectl := rfl
@[simp] theorem State.setDi_tqrtok (s : State) (k : Nat) (x : Die) : (s.setDi k x).tqrtok = s.tqrtok := rfl
@[simp] theorem State.setDi_tokens (s : State) (k : Nat) (x : Die) : (s.setDi k x).tokens = s.tokens := rfl
@[simp] theorem State.setDi_contain (s : State) (k : Nat) (x : Die) : (s.setDi k x).contain = s.contain := rfl
@[simp] theorem State.setDi_containBusy (s : State) (k : Nat) (x : Die) : (s.setDi k x).containBusy = s.containBusy := rfl
@[simp] theorem State.setDi_containErr (s : State) (k : Nat) (x : Die) : (s.setDi k x).containErr = s.containErr := rfl
@[simp] theorem State.setDi_ttblo (s : State) (k : Nat) (x : Die) : (s.setDi k x).ttblo = s.ttblo := rfl
@[simp] theorem State.setDi_ttbhi (s : State) (k : Nat) (x : Die) : (s.setDi k x).ttbhi = s.ttbhi := rfl
@[simp] theorem State.setDi_fabid (s : State) (k : Nat) (x : Die) : (s.setDi k x).fabid = s.fabid := rfl
@[simp] theorem State.setDi_tickper (s : State) (k : Nat) (x : Die) : (s.setDi k x).tickper = s.tickper := rfl
@[simp] theorem State.setDi_tickInUse (s : State) (k : Nat) (x : Die) : (s.setDi k x).tickInUse = s.tickInUse := rfl
@[simp] theorem State.setDi_tickNext (s : State) (k : Nat) (x : Die) : (s.setDi k x).tickNext = s.tickNext := rfl
@[simp] theorem State.setDi_tick (s : State) (k : Nat) (x : Die) : (s.setDi k x).tick = s.tick := rfl
@[simp] theorem State.setDi_bounds (s : State) (k : Nat) (x : Die) : (s.setDi k x).bounds = s.bounds := rfl
@[simp] theorem State.setDi_tickAt (s : State) (k : Nat) (x : Die) : (s.setDi k x).tickAt = s.tickAt := rfl
@[simp] theorem State.setDi_tickHi (s : State) (k : Nat) (x : Die) : (s.setDi k x).tickHi = s.tickHi := rfl
@[simp] theorem State.setDi_locked (s : State) (k : Nat) (x : Die) : (s.setDi k x).locked = s.locked := rfl
@[simp] theorem State.setDi_mirctl (s : State) (k : Nat) (x : Die) : (s.setDi k x).mirctl = s.mirctl := rfl
@[simp] theorem State.setDi_mirstat (s : State) (k : Nat) (x : Die) : (s.setDi k x).mirstat = s.mirstat := rfl
@[simp] theorem State.setDi_mirror (s : State) (k : Nat) (x : Die) : (s.setDi k x).mirror = s.mirror := rfl
@[simp] theorem State.setDi_ports (s : State) (k : Nat) (x : Die) : (s.setDi k x).ports = s.ports := rfl
@[simp] theorem State.setDi_routes (s : State) (k : Nat) (x : Die) : (s.setDi k x).routes = s.routes := rfl
@[simp] theorem State.setDi_received (s : State) (k : Nat) (x : Die) : (s.setDi k x).received = s.received := rfl
@[simp] theorem State.setDi_markers (s : State) (k : Nat) (x : Die) : (s.setDi k x).markers = s.markers := rfl
@[simp] theorem State.setDi_outgoing (s : State) (k : Nat) (x : Die) : (s.setDi k x).outgoing = s.outgoing := rfl
@[simp] theorem State.setDi_sentMark (s : State) (k : Nat) (x : Die) : (s.setDi k x).sentMark = s.sentMark := rfl
@[simp] theorem State.setDi_comms (s : State) (k : Nat) (x : Die) : (s.setDi k x).comms = s.comms := rfl
@[simp] theorem State.setDi_adirlo (s : State) (k : Nat) (x : Die) : (s.setDi k x).adirlo = s.adirlo := rfl
@[simp] theorem State.setDi_adirhi (s : State) (k : Nat) (x : Die) : (s.setDi k x).adirhi = s.adirhi := rfl
@[simp] theorem State.setDi_alarmSrc (s : State) (k : Nat) (x : Die) : (s.setDi k x).alarmSrc = s.alarmSrc := rfl
@[simp] theorem State.setDi_alarmed (s : State) (k : Nat) (x : Die) : (s.setDi k x).alarmed = s.alarmed := rfl
@[simp] theorem State.setDi_keys (s : State) (k : Nat) (x : Die) : (s.setDi k x).keys = s.keys := rfl
@[simp] theorem State.setDi_provisioned (s : State) (k : Nat) (x : Die) : (s.setDi k x).provisioned = s.provisioned := rfl
@[simp] theorem State.setDi_inlets (s : State) (k : Nat) (x : Die) : (s.setDi k x).inlets = s.inlets := rfl
@[simp] theorem State.setDi_inletHeld (s : State) (k : Nat) (x : Die) : (s.setDi k x).inletHeld = s.inletHeld := rfl
@[simp] theorem State.setDi_outlets (s : State) (k : Nat) (x : Die) : (s.setDi k x).outlets = s.outlets := rfl
@[simp] theorem State.setDi_winbase (s : State) (k : Nat) (x : Die) : (s.setDi k x).winbase = s.winbase := rfl
@[simp] theorem State.setDi_outbase (s : State) (k : Nat) (x : Die) : (s.setDi k x).outbase = s.outbase := rfl
@[simp] theorem State.setDi_drops (s : State) (k : Nat) (x : Die) : (s.setDi k x).drops = s.drops := rfl
@[simp] theorem State.setDi_outprod (s : State) (k : Nat) (x : Die) : (s.setDi k x).outprod = s.outprod := rfl
@[simp] theorem State.setDi_outcons (s : State) (k : Nat) (x : Die) : (s.setDi k x).outcons = s.outcons := rfl
@[simp] theorem State.setDi_linkUp (s : State) (k : Nat) (x : Die) : (s.setDi k x).linkUp = s.linkUp := rfl
@[simp] theorem State.setDi_hostOut (s : State) (k : Nat) (x : Die) : (s.setDi k x).hostOut = s.hostOut := rfl
@[simp] theorem State.setDi_hostMem (s : State) (k : Nat) (x : Die) : (s.setDi k x).hostMem = s.hostMem := rfl
@[simp] theorem State.setDi_peerMem (s : State) (k : Nat) (x : Die) : (s.setDi k x).peerMem = s.peerMem := rfl
@[simp] theorem State.setDi_ctlGrid (s : State) (k : Nat) (x : Die) : (s.setDi k x).ctlGrid = s.ctlGrid := rfl
@[simp] theorem State.setDi_ctlParams (s : State) (k : Nat) (x : Die) : (s.setDi k x).ctlParams = s.ctlParams := rfl
@[simp] theorem State.setDi_images (s : State) (k : Nat) (x : Die) : (s.setDi k x).images = s.images := rfl
@[simp] theorem State.setDi_nextGid (s : State) (k : Nat) (x : Die) : (s.setDi k x).nextGid = s.nextGid := rfl
@[simp] theorem State.setDi_nextBid (s : State) (k : Nat) (x : Die) : (s.setDi k x).nextBid = s.nextBid := rfl
@[simp] theorem State.setDi_seq (s : State) (k : Nat) (x : Die) : (s.setDi k x).seq = s.seq := rfl
@[simp] theorem State.setDi_free (s : State) (k : Nat) (x : Die) : (s.setDi k x).free = s.free := rfl
@[simp] theorem State.setDi_cur (s : State) (k : Nat) (x : Die) : (s.setDi k x).cur = s.cur := rfl
@[simp] theorem State.setDi_inputs (s : State) (k : Nat) (x : Die) : (s.setDi k x).inputs = s.inputs := rfl

@[simp] theorem State.beginIssue_part (s : State) : s.beginIssue.part = s.part := rfl
@[simp] theorem State.beginIssue_powered (s : State) : s.beginIssue.powered = s.powered := rfl
@[simp] theorem State.beginIssue_broughtUp (s : State) : s.beginIssue.broughtUp = s.broughtUp := rfl
@[simp] theorem State.beginIssue_cycle (s : State) : s.beginIssue.cycle = s.cycle := rfl
@[simp] theorem State.beginIssue_ns (s : State) : s.beginIssue.ns = s.ns := rfl
@[simp] theorem State.beginIssue_nsRem (s : State) : s.beginIssue.nsRem = s.nsRem := rfl
@[simp] theorem State.beginIssue_khz (s : State) : s.beginIssue.khz = s.khz := rfl
@[simp] theorem State.beginIssue_groups (s : State) : s.beginIssue.groups = s.groups := rfl
@[simp] theorem State.beginIssue_blocks (s : State) : s.beginIssue.blocks = s.blocks := rfl
@[simp] theorem State.beginIssue_grids (s : State) : s.beginIssue.grids = s.grids := rfl
@[simp] theorem State.beginIssue_queues (s : State) : s.beginIssue.queues = s.queues := rfl
@[simp] theorem State.beginIssue_cores (s : State) : s.beginIssue.cores = s.cores := rfl
@[simp] theorem State.beginIssue_dies (s : State) : s.beginIssue.dies = s.dies := rfl
@[simp] theorem State.beginIssue_map (s : State) : s.beginIssue.map = s.map := rfl
@[simp] theorem State.beginIssue_failedCores (s : State) : s.beginIssue.failedCores = s.failedCores := rfl
@[simp] theorem State.beginIssue_mem (s : State) : s.beginIssue.mem = s.mem := rfl
@[simp] theorem State.beginIssue_log (s : State) : s.beginIssue.log = s.log := rfl
@[simp] theorem State.beginIssue_writes (s : State) : s.beginIssue.writes = s.writes := rfl
@[simp] theorem State.beginIssue_memPo (s : State) : s.beginIssue.memPo = s.memPo := rfl
@[simp] theorem State.beginIssue_red (s : State) : s.beginIssue.red = s.red := rfl
@[simp] theorem State.beginIssue_rgrace (s : State) : s.beginIssue.rgrace = s.rgrace := rfl
@[simp] theorem State.beginIssue_prectl (s : State) : s.beginIssue.prectl = s.prectl := rfl
@[simp] theorem State.beginIssue_tqrtok (s : State) : s.beginIssue.tqrtok = s.tqrtok := rfl
@[simp] theorem State.beginIssue_tokens (s : State) : s.beginIssue.tokens = s.tokens := rfl
@[simp] theorem State.beginIssue_contain (s : State) : s.beginIssue.contain = s.contain := rfl
@[simp] theorem State.beginIssue_containBusy (s : State) : s.beginIssue.containBusy = s.containBusy := rfl
@[simp] theorem State.beginIssue_containErr (s : State) : s.beginIssue.containErr = s.containErr := rfl
@[simp] theorem State.beginIssue_ttblo (s : State) : s.beginIssue.ttblo = s.ttblo := rfl
@[simp] theorem State.beginIssue_ttbhi (s : State) : s.beginIssue.ttbhi = s.ttbhi := rfl
@[simp] theorem State.beginIssue_fabid (s : State) : s.beginIssue.fabid = s.fabid := rfl
@[simp] theorem State.beginIssue_tickper (s : State) : s.beginIssue.tickper = s.tickper := rfl
@[simp] theorem State.beginIssue_tickInUse (s : State) : s.beginIssue.tickInUse = s.tickInUse := rfl
@[simp] theorem State.beginIssue_tickNext (s : State) : s.beginIssue.tickNext = s.tickNext := rfl
@[simp] theorem State.beginIssue_tick (s : State) : s.beginIssue.tick = s.tick := rfl
@[simp] theorem State.beginIssue_bounds (s : State) : s.beginIssue.bounds = s.bounds := rfl
@[simp] theorem State.beginIssue_tickAt (s : State) : s.beginIssue.tickAt = s.tickAt := rfl
@[simp] theorem State.beginIssue_tickHi (s : State) : s.beginIssue.tickHi = s.tickHi := rfl
@[simp] theorem State.beginIssue_locked (s : State) : s.beginIssue.locked = s.locked := rfl
@[simp] theorem State.beginIssue_mirctl (s : State) : s.beginIssue.mirctl = s.mirctl := rfl
@[simp] theorem State.beginIssue_mirstat (s : State) : s.beginIssue.mirstat = s.mirstat := rfl
@[simp] theorem State.beginIssue_mirror (s : State) : s.beginIssue.mirror = s.mirror := rfl
@[simp] theorem State.beginIssue_ports (s : State) : s.beginIssue.ports = s.ports := rfl
@[simp] theorem State.beginIssue_routes (s : State) : s.beginIssue.routes = s.routes := rfl
@[simp] theorem State.beginIssue_received (s : State) : s.beginIssue.received = s.received := rfl
@[simp] theorem State.beginIssue_markers (s : State) : s.beginIssue.markers = s.markers := rfl
@[simp] theorem State.beginIssue_outgoing (s : State) : s.beginIssue.outgoing = s.outgoing := rfl
@[simp] theorem State.beginIssue_sentMark (s : State) : s.beginIssue.sentMark = s.sentMark := rfl
@[simp] theorem State.beginIssue_comms (s : State) : s.beginIssue.comms = s.comms := rfl
@[simp] theorem State.beginIssue_adirlo (s : State) : s.beginIssue.adirlo = s.adirlo := rfl
@[simp] theorem State.beginIssue_adirhi (s : State) : s.beginIssue.adirhi = s.adirhi := rfl
@[simp] theorem State.beginIssue_alarmSrc (s : State) : s.beginIssue.alarmSrc = s.alarmSrc := rfl
@[simp] theorem State.beginIssue_alarmed (s : State) : s.beginIssue.alarmed = s.alarmed := rfl
@[simp] theorem State.beginIssue_keys (s : State) : s.beginIssue.keys = s.keys := rfl
@[simp] theorem State.beginIssue_provisioned (s : State) : s.beginIssue.provisioned = s.provisioned := rfl
@[simp] theorem State.beginIssue_inlets (s : State) : s.beginIssue.inlets = s.inlets := rfl
@[simp] theorem State.beginIssue_inletHeld (s : State) : s.beginIssue.inletHeld = s.inletHeld := rfl
@[simp] theorem State.beginIssue_outlets (s : State) : s.beginIssue.outlets = s.outlets := rfl
@[simp] theorem State.beginIssue_winbase (s : State) : s.beginIssue.winbase = s.winbase := rfl
@[simp] theorem State.beginIssue_outbase (s : State) : s.beginIssue.outbase = s.outbase := rfl
@[simp] theorem State.beginIssue_drops (s : State) : s.beginIssue.drops = s.drops := rfl
@[simp] theorem State.beginIssue_outprod (s : State) : s.beginIssue.outprod = s.outprod := rfl
@[simp] theorem State.beginIssue_outcons (s : State) : s.beginIssue.outcons = s.outcons := rfl
@[simp] theorem State.beginIssue_linkUp (s : State) : s.beginIssue.linkUp = s.linkUp := rfl
@[simp] theorem State.beginIssue_hostOut (s : State) : s.beginIssue.hostOut = s.hostOut := rfl
@[simp] theorem State.beginIssue_hostMem (s : State) : s.beginIssue.hostMem = s.hostMem := rfl
@[simp] theorem State.beginIssue_peerMem (s : State) : s.beginIssue.peerMem = s.peerMem := rfl
@[simp] theorem State.beginIssue_ctlGrid (s : State) : s.beginIssue.ctlGrid = s.ctlGrid := rfl
@[simp] theorem State.beginIssue_ctlParams (s : State) : s.beginIssue.ctlParams = s.ctlParams := rfl
@[simp] theorem State.beginIssue_images (s : State) : s.beginIssue.images = s.images := rfl
@[simp] theorem State.beginIssue_nextGid (s : State) : s.beginIssue.nextGid = s.nextGid := rfl
@[simp] theorem State.beginIssue_nextBid (s : State) : s.beginIssue.nextBid = s.nextBid := rfl
@[simp] theorem State.beginIssue_seq (s : State) : s.beginIssue.seq = s.seq := rfl
@[simp] theorem State.beginIssue_free (s : State) : s.beginIssue.free = s.free := rfl
@[simp] theorem State.beginIssue_cur (s : State) : s.beginIssue.cur = { s.cur with issued := true, moved := false, trapped := false, completed := false } := rfl
@[simp] theorem State.beginIssue_inputs (s : State) : s.beginIssue.inputs = s.inputs := rfl

@[simp] theorem State.wait_part (s : State) : s.wait.part = s.part := rfl
@[simp] theorem State.wait_powered (s : State) : s.wait.powered = s.powered := rfl
@[simp] theorem State.wait_broughtUp (s : State) : s.wait.broughtUp = s.broughtUp := rfl
@[simp] theorem State.wait_cycle (s : State) : s.wait.cycle = s.cycle := rfl
@[simp] theorem State.wait_ns (s : State) : s.wait.ns = s.ns := rfl
@[simp] theorem State.wait_nsRem (s : State) : s.wait.nsRem = s.nsRem := rfl
@[simp] theorem State.wait_khz (s : State) : s.wait.khz = s.khz := rfl
@[simp] theorem State.wait_groups (s : State) : s.wait.groups = s.groups := rfl
@[simp] theorem State.wait_blocks (s : State) : s.wait.blocks = s.blocks := rfl
@[simp] theorem State.wait_grids (s : State) : s.wait.grids = s.grids := rfl
@[simp] theorem State.wait_queues (s : State) : s.wait.queues = s.queues := rfl
@[simp] theorem State.wait_cores (s : State) : s.wait.cores = s.cores := rfl
@[simp] theorem State.wait_dies (s : State) : s.wait.dies = s.dies := rfl
@[simp] theorem State.wait_map (s : State) : s.wait.map = s.map := rfl
@[simp] theorem State.wait_failedCores (s : State) : s.wait.failedCores = s.failedCores := rfl
@[simp] theorem State.wait_mem (s : State) : s.wait.mem = s.mem := rfl
@[simp] theorem State.wait_log (s : State) : s.wait.log = s.log := rfl
@[simp] theorem State.wait_writes (s : State) : s.wait.writes = s.writes := rfl
@[simp] theorem State.wait_memPo (s : State) : s.wait.memPo = s.memPo := rfl
@[simp] theorem State.wait_red (s : State) : s.wait.red = s.red := rfl
@[simp] theorem State.wait_rgrace (s : State) : s.wait.rgrace = s.rgrace := rfl
@[simp] theorem State.wait_prectl (s : State) : s.wait.prectl = s.prectl := rfl
@[simp] theorem State.wait_tqrtok (s : State) : s.wait.tqrtok = s.tqrtok := rfl
@[simp] theorem State.wait_tokens (s : State) : s.wait.tokens = s.tokens := rfl
@[simp] theorem State.wait_contain (s : State) : s.wait.contain = s.contain := rfl
@[simp] theorem State.wait_containBusy (s : State) : s.wait.containBusy = s.containBusy := rfl
@[simp] theorem State.wait_containErr (s : State) : s.wait.containErr = s.containErr := rfl
@[simp] theorem State.wait_ttblo (s : State) : s.wait.ttblo = s.ttblo := rfl
@[simp] theorem State.wait_ttbhi (s : State) : s.wait.ttbhi = s.ttbhi := rfl
@[simp] theorem State.wait_fabid (s : State) : s.wait.fabid = s.fabid := rfl
@[simp] theorem State.wait_tickper (s : State) : s.wait.tickper = s.tickper := rfl
@[simp] theorem State.wait_tickInUse (s : State) : s.wait.tickInUse = s.tickInUse := rfl
@[simp] theorem State.wait_tickNext (s : State) : s.wait.tickNext = s.tickNext := rfl
@[simp] theorem State.wait_tick (s : State) : s.wait.tick = s.tick := rfl
@[simp] theorem State.wait_bounds (s : State) : s.wait.bounds = s.bounds := rfl
@[simp] theorem State.wait_tickAt (s : State) : s.wait.tickAt = s.tickAt := rfl
@[simp] theorem State.wait_tickHi (s : State) : s.wait.tickHi = s.tickHi := rfl
@[simp] theorem State.wait_locked (s : State) : s.wait.locked = s.locked := rfl
@[simp] theorem State.wait_mirctl (s : State) : s.wait.mirctl = s.mirctl := rfl
@[simp] theorem State.wait_mirstat (s : State) : s.wait.mirstat = s.mirstat := rfl
@[simp] theorem State.wait_mirror (s : State) : s.wait.mirror = s.mirror := rfl
@[simp] theorem State.wait_ports (s : State) : s.wait.ports = s.ports := rfl
@[simp] theorem State.wait_routes (s : State) : s.wait.routes = s.routes := rfl
@[simp] theorem State.wait_received (s : State) : s.wait.received = s.received := rfl
@[simp] theorem State.wait_markers (s : State) : s.wait.markers = s.markers := rfl
@[simp] theorem State.wait_outgoing (s : State) : s.wait.outgoing = s.outgoing := rfl
@[simp] theorem State.wait_sentMark (s : State) : s.wait.sentMark = s.sentMark := rfl
@[simp] theorem State.wait_comms (s : State) : s.wait.comms = s.comms := rfl
@[simp] theorem State.wait_adirlo (s : State) : s.wait.adirlo = s.adirlo := rfl
@[simp] theorem State.wait_adirhi (s : State) : s.wait.adirhi = s.adirhi := rfl
@[simp] theorem State.wait_alarmSrc (s : State) : s.wait.alarmSrc = s.alarmSrc := rfl
@[simp] theorem State.wait_alarmed (s : State) : s.wait.alarmed = s.alarmed := rfl
@[simp] theorem State.wait_keys (s : State) : s.wait.keys = s.keys := rfl
@[simp] theorem State.wait_provisioned (s : State) : s.wait.provisioned = s.provisioned := rfl
@[simp] theorem State.wait_inlets (s : State) : s.wait.inlets = s.inlets := rfl
@[simp] theorem State.wait_inletHeld (s : State) : s.wait.inletHeld = s.inletHeld := rfl
@[simp] theorem State.wait_outlets (s : State) : s.wait.outlets = s.outlets := rfl
@[simp] theorem State.wait_winbase (s : State) : s.wait.winbase = s.winbase := rfl
@[simp] theorem State.wait_outbase (s : State) : s.wait.outbase = s.outbase := rfl
@[simp] theorem State.wait_drops (s : State) : s.wait.drops = s.drops := rfl
@[simp] theorem State.wait_outprod (s : State) : s.wait.outprod = s.outprod := rfl
@[simp] theorem State.wait_outcons (s : State) : s.wait.outcons = s.outcons := rfl
@[simp] theorem State.wait_linkUp (s : State) : s.wait.linkUp = s.linkUp := rfl
@[simp] theorem State.wait_hostOut (s : State) : s.wait.hostOut = s.hostOut := rfl
@[simp] theorem State.wait_hostMem (s : State) : s.wait.hostMem = s.hostMem := rfl
@[simp] theorem State.wait_peerMem (s : State) : s.wait.peerMem = s.peerMem := rfl
@[simp] theorem State.wait_ctlGrid (s : State) : s.wait.ctlGrid = s.ctlGrid := rfl
@[simp] theorem State.wait_ctlParams (s : State) : s.wait.ctlParams = s.ctlParams := rfl
@[simp] theorem State.wait_images (s : State) : s.wait.images = s.images := rfl
@[simp] theorem State.wait_nextGid (s : State) : s.wait.nextGid = s.nextGid := rfl
@[simp] theorem State.wait_nextBid (s : State) : s.wait.nextBid = s.nextBid := rfl
@[simp] theorem State.wait_seq (s : State) : s.wait.seq = s.seq := rfl
@[simp] theorem State.wait_free (s : State) : s.wait.free = s.free := rfl
@[simp] theorem State.wait_cur (s : State) : s.wait.cur = { s.cur with issued := false } := rfl
@[simp] theorem State.wait_inputs (s : State) : s.wait.inputs = s.inputs := rfl

/-! ### Registers of a group -/

@[simp] theorem Group.setV_live (g : Group) (r l : Nat) (x : Word) (p : Bool) : (g.setV r l x p).live = g.live := rfl
@[simp] theorem Group.setV_bid (g : Group) (r l : Nat) (x : Word) (p : Bool) : (g.setV r l x p).bid = g.bid := rfl
@[simp] theorem Group.setV_index (g : Group) (r l : Nat) (x : Word) (p : Bool) : (g.setV r l x p).index = g.index := rfl
@[simp] theorem Group.setV_core (g : Group) (r l : Nat) (x : Word) (p : Bool) : (g.setV r l x p).core = g.core := rfl
@[simp] theorem Group.setV_slot (g : Group) (r l : Nat) (x : Word) (p : Bool) : (g.setV r l x p).slot = g.slot := rfl
@[simp] theorem Group.setV_vr (g : Group) (r l : Nat) (x : Word) (p : Bool) : (g.setV r l x p).vr = g.vr.put (32 * r + l) x := rfl
@[simp] theorem Group.setV_vpo (g : Group) (r l : Nat) (x : Word) (p : Bool) : (g.setV r l x p).vpo = g.vpo.upd r fun m => withLane m l p := rfl
@[simp] theorem Group.setV_sr (g : Group) (r l : Nat) (x : Word) (p : Bool) : (g.setV r l x p).sr = g.sr := rfl
@[simp] theorem Group.setV_spo (g : Group) (r l : Nat) (x : Word) (p : Bool) : (g.setV r l x p).spo = g.spo := rfl
@[simp] theorem Group.setV_pr (g : Group) (r l : Nat) (x : Word) (p : Bool) : (g.setV r l x p).pr = g.pr := rfl
@[simp] theorem Group.setV_ppo (g : Group) (r l : Nat) (x : Word) (p : Bool) : (g.setV r l x p).ppo = g.ppo := rfl
@[simp] theorem Group.setV_lfsr (g : Group) (r l : Nat) (x : Word) (p : Bool) : (g.setV r l x p).lfsr = g.lfsr := rfl
@[simp] theorem Group.setV_plane (g : Group) (r l : Nat) (x : Word) (p : Bool) : (g.setV r l x p).plane = g.plane := rfl
@[simp] theorem Group.setV_held (g : Group) (r l : Nat) (x : Word) (p : Bool) : (g.setV r l x p).held = g.held := rfl
@[simp] theorem Group.setV_holdoff (g : Group) (r l : Nat) (x : Word) (p : Bool) : (g.setV r l x p).holdoff = g.holdoff := rfl
@[simp] theorem Group.setV_exited (g : Group) (r l : Nat) (x : Word) (p : Bool) : (g.setV r l x p).exited = g.exited := rfl
@[simp] theorem Group.setV_dead (g : Group) (r l : Nat) (x : Word) (p : Bool) : (g.setV r l x p).dead = g.dead := rfl
@[simp] theorem Group.setV_splits (g : Group) (r l : Nat) (x : Word) (p : Bool) : (g.setV r l x p).splits = g.splits := rfl
@[simp] theorem Group.setV_mmask (g : Group) (r l : Nat) (x : Word) (p : Bool) : (g.setV r l x p).mmask = g.mmask := rfl
@[simp] theorem Group.setV_mmaskNext (g : Group) (r l : Nat) (x : Word) (p : Bool) : (g.setV r l x p).mmaskNext = g.mmaskNext := rfl
@[simp] theorem Group.setV_ovfNext (g : Group) (r l : Nat) (x : Word) (p : Bool) : (g.setV r l x p).ovfNext = g.ovfNext := rfl
@[simp] theorem Group.setV_xstat (g : Group) (r l : Nat) (x : Word) (p : Bool) : (g.setV r l x p).xstat = g.xstat := rfl
@[simp] theorem Group.setV_clockHi (g : Group) (r l : Nat) (x : Word) (p : Bool) : (g.setV r l x p).clockHi = g.clockHi := rfl
@[simp] theorem Group.setV_ovf (g : Group) (r l : Nat) (x : Word) (p : Bool) : (g.setV r l x p).ovf = g.ovf := rfl
@[simp] theorem Group.setV_recno (g : Group) (r l : Nat) (x : Word) (p : Bool) : (g.setV r l x p).recno = g.recno := rfl
@[simp] theorem Group.setV_region (g : Group) (r l : Nat) (x : Word) (p : Bool) : (g.setV r l x p).region = g.region := rfl
@[simp] theorem Group.setV_priv (g : Group) (r l : Nat) (x : Word) (p : Bool) : (g.setV r l x p).priv = g.priv := rfl
@[simp] theorem Group.setV_handler (g : Group) (r l : Nat) (x : Word) (p : Bool) : (g.setV r l x p).handler = g.handler := rfl
@[simp] theorem Group.setV_hobj (g : Group) (r l : Nat) (x : Word) (p : Bool) : (g.setV r l x p).hobj = g.hobj := rfl
@[simp] theorem Group.setV_frameVa (g : Group) (r l : Nat) (x : Word) (p : Bool) : (g.setV r l x p).frameVa = g.frameVa := rfl
@[simp] theorem Group.setV_waits (g : Group) (r l : Nat) (x : Word) (p : Bool) : (g.setV r l x p).waits = g.waits := rfl
@[simp] theorem Group.setV_stop (g : Group) (r l : Nat) (x : Word) (p : Bool) : (g.setV r l x p).stop = g.stop := rfl
@[simp] theorem Group.setV_inflight (g : Group) (r l : Nat) (x : Word) (p : Bool) : (g.setV r l x p).inflight = g.inflight := rfl
@[simp] theorem Group.setV_pend (g : Group) (r l : Nat) (x : Word) (p : Bool) : (g.setV r l x p).pend = g.pend := rfl
@[simp] theorem Group.setV_accs (g : Group) (r l : Nat) (x : Word) (p : Bool) : (g.setV r l x p).accs = g.accs := rfl
@[simp] theorem Group.setV_covered (g : Group) (r l : Nat) (x : Word) (p : Bool) : (g.setV r l x p).covered = g.covered := rfl
@[simp] theorem Group.setV_usedPipes (g : Group) (r l : Nat) (x : Word) (p : Bool) : (g.setV r l x p).usedPipes = g.usedPipes := rfl
@[simp] theorem Group.setV_readyNow (g : Group) (r l : Nat) (x : Word) (p : Bool) : (g.setV r l x p).readyNow = g.readyNow := rfl
@[simp] theorem Group.setV_aged (g : Group) (r l : Nat) (x : Word) (p : Bool) : (g.setV r l x p).aged = g.aged := rfl
@[simp] theorem Group.setV_waited (g : Group) (r l : Nat) (x : Word) (p : Bool) : (g.setV r l x p).waited = g.waited := rfl
@[simp] theorem Group.setV_cmds (g : Group) (r l : Nat) (x : Word) (p : Bool) : (g.setV r l x p).cmds = g.cmds := rfl
@[simp] theorem Group.setV_triggered (g : Group) (r l : Nat) (x : Word) (p : Bool) : (g.setV r l x p).triggered = g.triggered := rfl
@[simp] theorem Group.setV_cbarPast (g : Group) (r l : Nat) (x : Word) (p : Bool) : (g.setV r l x p).cbarPast = g.cbarPast := rfl
@[simp] theorem Group.setV_noIssue (g : Group) (r l : Nat) (x : Word) (p : Bool) : (g.setV r l x p).noIssue = g.noIssue := rfl
@[simp] theorem Group.setV_poisonPass (g : Group) (r l : Nat) (x : Word) (p : Bool) : (g.setV r l x p).poisonPass = g.poisonPass := rfl
@[simp] theorem Group.setV_pairTry (g : Group) (r l : Nat) (x : Word) (p : Bool) : (g.setV r l x p).pairTry = g.pairTry := rfl
@[simp] theorem Group.setV_pairCrc (g : Group) (r l : Nat) (x : Word) (p : Bool) : (g.setV r l x p).pairCrc = g.pairCrc := rfl
@[simp] theorem Group.setV_pairBuf (g : Group) (r l : Nat) (x : Word) (p : Bool) : (g.setV r l x p).pairBuf = g.pairBuf := rfl
@[simp] theorem Group.setV_pairBad (g : Group) (r l : Nat) (x : Word) (p : Bool) : (g.setV r l x p).pairBad = g.pairBad := rfl
@[simp] theorem Group.setV_compared (g : Group) (r l : Nat) (x : Word) (p : Bool) : (g.setV r l x p).compared = g.compared := rfl

@[simp] theorem Group.setS_live (g : Group) (r : Nat) (x : Word) (p : Bool) : (g.setS r x p).live = g.live := rfl
@[simp] theorem Group.setS_bid (g : Group) (r : Nat) (x : Word) (p : Bool) : (g.setS r x p).bid = g.bid := rfl
@[simp] theorem Group.setS_index (g : Group) (r : Nat) (x : Word) (p : Bool) : (g.setS r x p).index = g.index := rfl
@[simp] theorem Group.setS_core (g : Group) (r : Nat) (x : Word) (p : Bool) : (g.setS r x p).core = g.core := rfl
@[simp] theorem Group.setS_slot (g : Group) (r : Nat) (x : Word) (p : Bool) : (g.setS r x p).slot = g.slot := rfl
@[simp] theorem Group.setS_vr (g : Group) (r : Nat) (x : Word) (p : Bool) : (g.setS r x p).vr = g.vr := rfl
@[simp] theorem Group.setS_vpo (g : Group) (r : Nat) (x : Word) (p : Bool) : (g.setS r x p).vpo = g.vpo := rfl
@[simp] theorem Group.setS_sr (g : Group) (r : Nat) (x : Word) (p : Bool) : (g.setS r x p).sr = g.sr.put r x := rfl
@[simp] theorem Group.setS_spo (g : Group) (r : Nat) (x : Word) (p : Bool) : (g.setS r x p).spo = g.spo.put r p := rfl
@[simp] theorem Group.setS_pr (g : Group) (r : Nat) (x : Word) (p : Bool) : (g.setS r x p).pr = g.pr := rfl
@[simp] theorem Group.setS_ppo (g : Group) (r : Nat) (x : Word) (p : Bool) : (g.setS r x p).ppo = g.ppo := rfl
@[simp] theorem Group.setS_lfsr (g : Group) (r : Nat) (x : Word) (p : Bool) : (g.setS r x p).lfsr = g.lfsr := rfl
@[simp] theorem Group.setS_plane (g : Group) (r : Nat) (x : Word) (p : Bool) : (g.setS r x p).plane = g.plane := rfl
@[simp] theorem Group.setS_held (g : Group) (r : Nat) (x : Word) (p : Bool) : (g.setS r x p).held = g.held := rfl
@[simp] theorem Group.setS_holdoff (g : Group) (r : Nat) (x : Word) (p : Bool) : (g.setS r x p).holdoff = g.holdoff := rfl
@[simp] theorem Group.setS_exited (g : Group) (r : Nat) (x : Word) (p : Bool) : (g.setS r x p).exited = g.exited := rfl
@[simp] theorem Group.setS_dead (g : Group) (r : Nat) (x : Word) (p : Bool) : (g.setS r x p).dead = g.dead := rfl
@[simp] theorem Group.setS_splits (g : Group) (r : Nat) (x : Word) (p : Bool) : (g.setS r x p).splits = g.splits := rfl
@[simp] theorem Group.setS_mmask (g : Group) (r : Nat) (x : Word) (p : Bool) : (g.setS r x p).mmask = g.mmask := rfl
@[simp] theorem Group.setS_mmaskNext (g : Group) (r : Nat) (x : Word) (p : Bool) : (g.setS r x p).mmaskNext = g.mmaskNext := rfl
@[simp] theorem Group.setS_ovfNext (g : Group) (r : Nat) (x : Word) (p : Bool) : (g.setS r x p).ovfNext = g.ovfNext := rfl
@[simp] theorem Group.setS_xstat (g : Group) (r : Nat) (x : Word) (p : Bool) : (g.setS r x p).xstat = g.xstat := rfl
@[simp] theorem Group.setS_clockHi (g : Group) (r : Nat) (x : Word) (p : Bool) : (g.setS r x p).clockHi = g.clockHi := rfl
@[simp] theorem Group.setS_ovf (g : Group) (r : Nat) (x : Word) (p : Bool) : (g.setS r x p).ovf = g.ovf := rfl
@[simp] theorem Group.setS_recno (g : Group) (r : Nat) (x : Word) (p : Bool) : (g.setS r x p).recno = g.recno := rfl
@[simp] theorem Group.setS_region (g : Group) (r : Nat) (x : Word) (p : Bool) : (g.setS r x p).region = g.region := rfl
@[simp] theorem Group.setS_priv (g : Group) (r : Nat) (x : Word) (p : Bool) : (g.setS r x p).priv = g.priv := rfl
@[simp] theorem Group.setS_handler (g : Group) (r : Nat) (x : Word) (p : Bool) : (g.setS r x p).handler = g.handler := rfl
@[simp] theorem Group.setS_hobj (g : Group) (r : Nat) (x : Word) (p : Bool) : (g.setS r x p).hobj = g.hobj := rfl
@[simp] theorem Group.setS_frameVa (g : Group) (r : Nat) (x : Word) (p : Bool) : (g.setS r x p).frameVa = g.frameVa := rfl
@[simp] theorem Group.setS_waits (g : Group) (r : Nat) (x : Word) (p : Bool) : (g.setS r x p).waits = g.waits := rfl
@[simp] theorem Group.setS_stop (g : Group) (r : Nat) (x : Word) (p : Bool) : (g.setS r x p).stop = g.stop := rfl
@[simp] theorem Group.setS_inflight (g : Group) (r : Nat) (x : Word) (p : Bool) : (g.setS r x p).inflight = g.inflight := rfl
@[simp] theorem Group.setS_pend (g : Group) (r : Nat) (x : Word) (p : Bool) : (g.setS r x p).pend = g.pend := rfl
@[simp] theorem Group.setS_accs (g : Group) (r : Nat) (x : Word) (p : Bool) : (g.setS r x p).accs = g.accs := rfl
@[simp] theorem Group.setS_covered (g : Group) (r : Nat) (x : Word) (p : Bool) : (g.setS r x p).covered = g.covered := rfl
@[simp] theorem Group.setS_usedPipes (g : Group) (r : Nat) (x : Word) (p : Bool) : (g.setS r x p).usedPipes = g.usedPipes := rfl
@[simp] theorem Group.setS_readyNow (g : Group) (r : Nat) (x : Word) (p : Bool) : (g.setS r x p).readyNow = g.readyNow := rfl
@[simp] theorem Group.setS_aged (g : Group) (r : Nat) (x : Word) (p : Bool) : (g.setS r x p).aged = g.aged := rfl
@[simp] theorem Group.setS_waited (g : Group) (r : Nat) (x : Word) (p : Bool) : (g.setS r x p).waited = g.waited := rfl
@[simp] theorem Group.setS_cmds (g : Group) (r : Nat) (x : Word) (p : Bool) : (g.setS r x p).cmds = g.cmds := rfl
@[simp] theorem Group.setS_triggered (g : Group) (r : Nat) (x : Word) (p : Bool) : (g.setS r x p).triggered = g.triggered := rfl
@[simp] theorem Group.setS_cbarPast (g : Group) (r : Nat) (x : Word) (p : Bool) : (g.setS r x p).cbarPast = g.cbarPast := rfl
@[simp] theorem Group.setS_noIssue (g : Group) (r : Nat) (x : Word) (p : Bool) : (g.setS r x p).noIssue = g.noIssue := rfl
@[simp] theorem Group.setS_poisonPass (g : Group) (r : Nat) (x : Word) (p : Bool) : (g.setS r x p).poisonPass = g.poisonPass := rfl
@[simp] theorem Group.setS_pairTry (g : Group) (r : Nat) (x : Word) (p : Bool) : (g.setS r x p).pairTry = g.pairTry := rfl
@[simp] theorem Group.setS_pairCrc (g : Group) (r : Nat) (x : Word) (p : Bool) : (g.setS r x p).pairCrc = g.pairCrc := rfl
@[simp] theorem Group.setS_pairBuf (g : Group) (r : Nat) (x : Word) (p : Bool) : (g.setS r x p).pairBuf = g.pairBuf := rfl
@[simp] theorem Group.setS_pairBad (g : Group) (r : Nat) (x : Word) (p : Bool) : (g.setS r x p).pairBad = g.pairBad := rfl
@[simp] theorem Group.setS_compared (g : Group) (r : Nat) (x : Word) (p : Bool) : (g.setS r x p).compared = g.compared := rfl

@[simp] theorem Group.setP_live (g : Group) (r l : Nat) (x p : Bool) : (g.setP r l x p).live = g.live := rfl
@[simp] theorem Group.setP_bid (g : Group) (r l : Nat) (x p : Bool) : (g.setP r l x p).bid = g.bid := rfl
@[simp] theorem Group.setP_index (g : Group) (r l : Nat) (x p : Bool) : (g.setP r l x p).index = g.index := rfl
@[simp] theorem Group.setP_core (g : Group) (r l : Nat) (x p : Bool) : (g.setP r l x p).core = g.core := rfl
@[simp] theorem Group.setP_slot (g : Group) (r l : Nat) (x p : Bool) : (g.setP r l x p).slot = g.slot := rfl
@[simp] theorem Group.setP_vr (g : Group) (r l : Nat) (x p : Bool) : (g.setP r l x p).vr = g.vr := rfl
@[simp] theorem Group.setP_vpo (g : Group) (r l : Nat) (x p : Bool) : (g.setP r l x p).vpo = g.vpo := rfl
@[simp] theorem Group.setP_sr (g : Group) (r l : Nat) (x p : Bool) : (g.setP r l x p).sr = g.sr := rfl
@[simp] theorem Group.setP_spo (g : Group) (r l : Nat) (x p : Bool) : (g.setP r l x p).spo = g.spo := rfl
@[simp] theorem Group.setP_pr (g : Group) (r l : Nat) (x p : Bool) : (g.setP r l x p).pr = g.pr.upd r fun m => withLane m l x := rfl
@[simp] theorem Group.setP_ppo (g : Group) (r l : Nat) (x p : Bool) : (g.setP r l x p).ppo = g.ppo.upd r fun m => withLane m l p := rfl
@[simp] theorem Group.setP_lfsr (g : Group) (r l : Nat) (x p : Bool) : (g.setP r l x p).lfsr = g.lfsr := rfl
@[simp] theorem Group.setP_plane (g : Group) (r l : Nat) (x p : Bool) : (g.setP r l x p).plane = g.plane := rfl
@[simp] theorem Group.setP_held (g : Group) (r l : Nat) (x p : Bool) : (g.setP r l x p).held = g.held := rfl
@[simp] theorem Group.setP_holdoff (g : Group) (r l : Nat) (x p : Bool) : (g.setP r l x p).holdoff = g.holdoff := rfl
@[simp] theorem Group.setP_exited (g : Group) (r l : Nat) (x p : Bool) : (g.setP r l x p).exited = g.exited := rfl
@[simp] theorem Group.setP_dead (g : Group) (r l : Nat) (x p : Bool) : (g.setP r l x p).dead = g.dead := rfl
@[simp] theorem Group.setP_splits (g : Group) (r l : Nat) (x p : Bool) : (g.setP r l x p).splits = g.splits := rfl
@[simp] theorem Group.setP_mmask (g : Group) (r l : Nat) (x p : Bool) : (g.setP r l x p).mmask = g.mmask := rfl
@[simp] theorem Group.setP_mmaskNext (g : Group) (r l : Nat) (x p : Bool) : (g.setP r l x p).mmaskNext = g.mmaskNext := rfl
@[simp] theorem Group.setP_ovfNext (g : Group) (r l : Nat) (x p : Bool) : (g.setP r l x p).ovfNext = g.ovfNext := rfl
@[simp] theorem Group.setP_xstat (g : Group) (r l : Nat) (x p : Bool) : (g.setP r l x p).xstat = g.xstat := rfl
@[simp] theorem Group.setP_clockHi (g : Group) (r l : Nat) (x p : Bool) : (g.setP r l x p).clockHi = g.clockHi := rfl
@[simp] theorem Group.setP_ovf (g : Group) (r l : Nat) (x p : Bool) : (g.setP r l x p).ovf = g.ovf := rfl
@[simp] theorem Group.setP_recno (g : Group) (r l : Nat) (x p : Bool) : (g.setP r l x p).recno = g.recno := rfl
@[simp] theorem Group.setP_region (g : Group) (r l : Nat) (x p : Bool) : (g.setP r l x p).region = g.region := rfl
@[simp] theorem Group.setP_priv (g : Group) (r l : Nat) (x p : Bool) : (g.setP r l x p).priv = g.priv := rfl
@[simp] theorem Group.setP_handler (g : Group) (r l : Nat) (x p : Bool) : (g.setP r l x p).handler = g.handler := rfl
@[simp] theorem Group.setP_hobj (g : Group) (r l : Nat) (x p : Bool) : (g.setP r l x p).hobj = g.hobj := rfl
@[simp] theorem Group.setP_frameVa (g : Group) (r l : Nat) (x p : Bool) : (g.setP r l x p).frameVa = g.frameVa := rfl
@[simp] theorem Group.setP_waits (g : Group) (r l : Nat) (x p : Bool) : (g.setP r l x p).waits = g.waits := rfl
@[simp] theorem Group.setP_stop (g : Group) (r l : Nat) (x p : Bool) : (g.setP r l x p).stop = g.stop := rfl
@[simp] theorem Group.setP_inflight (g : Group) (r l : Nat) (x p : Bool) : (g.setP r l x p).inflight = g.inflight := rfl
@[simp] theorem Group.setP_pend (g : Group) (r l : Nat) (x p : Bool) : (g.setP r l x p).pend = g.pend := rfl
@[simp] theorem Group.setP_accs (g : Group) (r l : Nat) (x p : Bool) : (g.setP r l x p).accs = g.accs := rfl
@[simp] theorem Group.setP_covered (g : Group) (r l : Nat) (x p : Bool) : (g.setP r l x p).covered = g.covered := rfl
@[simp] theorem Group.setP_usedPipes (g : Group) (r l : Nat) (x p : Bool) : (g.setP r l x p).usedPipes = g.usedPipes := rfl
@[simp] theorem Group.setP_readyNow (g : Group) (r l : Nat) (x p : Bool) : (g.setP r l x p).readyNow = g.readyNow := rfl
@[simp] theorem Group.setP_aged (g : Group) (r l : Nat) (x p : Bool) : (g.setP r l x p).aged = g.aged := rfl
@[simp] theorem Group.setP_waited (g : Group) (r l : Nat) (x p : Bool) : (g.setP r l x p).waited = g.waited := rfl
@[simp] theorem Group.setP_cmds (g : Group) (r l : Nat) (x p : Bool) : (g.setP r l x p).cmds = g.cmds := rfl
@[simp] theorem Group.setP_triggered (g : Group) (r l : Nat) (x p : Bool) : (g.setP r l x p).triggered = g.triggered := rfl
@[simp] theorem Group.setP_cbarPast (g : Group) (r l : Nat) (x p : Bool) : (g.setP r l x p).cbarPast = g.cbarPast := rfl
@[simp] theorem Group.setP_noIssue (g : Group) (r l : Nat) (x p : Bool) : (g.setP r l x p).noIssue = g.noIssue := rfl
@[simp] theorem Group.setP_poisonPass (g : Group) (r l : Nat) (x p : Bool) : (g.setP r l x p).poisonPass = g.poisonPass := rfl
@[simp] theorem Group.setP_pairTry (g : Group) (r l : Nat) (x p : Bool) : (g.setP r l x p).pairTry = g.pairTry := rfl
@[simp] theorem Group.setP_pairCrc (g : Group) (r l : Nat) (x p : Bool) : (g.setP r l x p).pairCrc = g.pairCrc := rfl
@[simp] theorem Group.setP_pairBuf (g : Group) (r l : Nat) (x p : Bool) : (g.setP r l x p).pairBuf = g.pairBuf := rfl
@[simp] theorem Group.setP_pairBad (g : Group) (r l : Nat) (x p : Bool) : (g.setP r l x p).pairBad = g.pairBad := rfl
@[simp] theorem Group.setP_compared (g : Group) (r l : Nat) (x p : Bool) : (g.setP r l x p).compared = g.compared := rfl

/-! ### Pieces after an update -/


@[simp] theorem State.setG_g_self (s : State) (k : Nat) (x : Group) : (s.setG k x).g k = x :=
  SMap.get_put_self _ _ _
theorem State.setG_g_ne (s : State) (x : Group) (k j : Nat) (h : j ≠ k) : (s.setG k x).g j = s.g j :=
  SMap.get_put_ne _ _ h
@[simp] theorem State.setB_g (s : State) (k j : Nat) (x : Block) : (s.setB k x).g j = s.g j := rfl
@[simp] theorem State.setGr_g (s : State) (k j : Nat) (x : Grid) : (s.setGr k x).g j = s.g j := rfl
@[simp] theorem State.setCo_g (s : State) (k j : Nat) (x : Core) : (s.setCo k x).g j = s.g j := rfl
@[simp] theorem State.setDi_g (s : State) (k j : Nat) (x : Die) : (s.setDi k x).g j = s.g j := rfl
@[simp] theorem State.setG_b (s : State) (k j : Nat) (x : Group) : (s.setG k x).b j = s.b j := rfl
@[simp] theorem State.setB_b_self (s : State) (k : Nat) (x : Block) : (s.setB k x).b k = x :=
  SMap.get_put_self _ _ _
theorem State.setB_b_ne (s : State) (x : Block) (k j : Nat) (h : j ≠ k) : (s.setB k x).b j = s.b j :=
  SMap.get_put_ne _ _ h
@[simp] theorem State.setGr_b (s : State) (k j : Nat) (x : Grid) : (s.setGr k x).b j = s.b j := rfl
@[simp] theorem State.setCo_b (s : State) (k j : Nat) (x : Core) : (s.setCo k x).b j = s.b j := rfl
@[simp] theorem State.setDi_b (s : State) (k j : Nat) (x : Die) : (s.setDi k x).b j = s.b j := rfl
@[simp] theorem State.setG_gr (s : State) (k j : Nat) (x : Group) : (s.setG k x).gr j = s.gr j := rfl
@[simp] theorem State.setB_gr (s : State) (k j : Nat) (x : Block) : (s.setB k x).gr j = s.gr j := rfl
@[simp] theorem State.setGr_gr_self (s : State) (k : Nat) (x : Grid) : (s.setGr k x).gr k = x :=
  SMap.get_put_self _ _ _
theorem State.setGr_gr_ne (s : State) (x : Grid) (k j : Nat) (h : j ≠ k) : (s.setGr k x).gr j = s.gr j :=
  SMap.get_put_ne _ _ h
@[simp] theorem State.setCo_gr (s : State) (k j : Nat) (x : Core) : (s.setCo k x).gr j = s.gr j := rfl
@[simp] theorem State.setDi_gr (s : State) (k j : Nat) (x : Die) : (s.setDi k x).gr j = s.gr j := rfl
@[simp] theorem State.setG_co (s : State) (k j : Nat) (x : Group) : (s.setG k x).co j = s.co j := rfl
@[simp] theorem State.setB_co (s : State) (k j : Nat) (x : Block) : (s.setB k x).co j = s.co j := rfl
@[simp] theorem State.setGr_co (s : State) (k j : Nat) (x : Grid) : (s.setGr k x).co j = s.co j := rfl
@[simp] theorem State.setCo_co_self (s : State) (k : Nat) (x : Core) : (s.setCo k x).co k = x :=
  SMap.get_put_self _ _ _
theorem State.setCo_co_ne (s : State) (x : Core) (k j : Nat) (h : j ≠ k) : (s.setCo k x).co j = s.co j :=
  SMap.get_put_ne _ _ h
@[simp] theorem State.setDi_co (s : State) (k j : Nat) (x : Die) : (s.setDi k x).co j = s.co j := rfl
@[simp] theorem State.setG_di (s : State) (k j : Nat) (x : Group) : (s.setG k x).di j = s.di j := rfl
@[simp] theorem State.setB_di (s : State) (k j : Nat) (x : Block) : (s.setB k x).di j = s.di j := rfl
@[simp] theorem State.setGr_di (s : State) (k j : Nat) (x : Grid) : (s.setGr k x).di j = s.di j := rfl
@[simp] theorem State.setCo_di (s : State) (k j : Nat) (x : Core) : (s.setCo k x).di j = s.di j := rfl
@[simp] theorem State.setDi_di_self (s : State) (k : Nat) (x : Die) : (s.setDi k x).di k = x :=
  SMap.get_put_self _ _ _
theorem State.setDi_di_ne (s : State) (x : Die) (k j : Nat) (h : j ≠ k) : (s.setDi k x).di j = s.di j :=
  SMap.get_put_ne _ _ h
@[simp] theorem State.beginIssue_g (s : State) (j : Nat) : s.beginIssue.g j = s.g j := rfl
@[simp] theorem State.beginIssue_b (s : State) (j : Nat) : s.beginIssue.b j = s.b j := rfl
@[simp] theorem State.beginIssue_gr (s : State) (j : Nat) : s.beginIssue.gr j = s.gr j := rfl
@[simp] theorem State.beginIssue_co (s : State) (j : Nat) : s.beginIssue.co j = s.co j := rfl
@[simp] theorem State.beginIssue_di (s : State) (j : Nat) : s.beginIssue.di j = s.di j := rfl
@[simp] theorem State.wait_g (s : State) (j : Nat) : s.wait.g j = s.g j := rfl
@[simp] theorem State.wait_b (s : State) (j : Nat) : s.wait.b j = s.b j := rfl
@[simp] theorem State.wait_gr (s : State) (j : Nat) : s.wait.gr j = s.gr j := rfl
@[simp] theorem State.wait_co (s : State) (j : Nat) : s.wait.co j = s.co j := rfl
@[simp] theorem State.wait_di (s : State) (j : Nat) : s.wait.di j = s.di j := rfl

theorem State.updG_eq (s : State) (k : Nat) (f : Group → Group) : s.updG k f = s.setG k (f (s.g k)) := rfl
theorem State.updB_eq (s : State) (k : Nat) (f : Block → Block) : s.updB k f = s.setB k (f (s.b k)) := rfl
theorem State.updGr_eq (s : State) (k : Nat) (f : Grid → Grid) : s.updGr k f = s.setGr k (f (s.gr k)) := rfl
theorem State.updCo_eq (s : State) (k : Nat) (f : Core → Core) : s.updCo k f = s.setCo k (f (s.co k)) := rfl
theorem State.updDi_eq (s : State) (k : Nat) (f : Die → Die) : s.updDi k f = s.setDi k (f (s.di k)) := rfl
theorem State.updCG_eq (s : State) (f : Group → Group) : s.updCG f = s.setG s.cur.gid (f s.cg) := rfl
/-- The issuing group after a change of it. -/
@[simp] theorem State.updCG_cg (s : State) (f : Group → Group) : (s.updCG f).cg = f s.cg := SMap.get_put_self _ _ _
@[simp] theorem State.updCG_cur (s : State) (f : Group → Group) : (s.updCG f).cur = s.cur := rfl
@[simp] theorem State.updCG_mem (s : State) (f : Group → Group) : (s.updCG f).mem = s.mem := rfl
theorem State.updCG_g_ne (s : State) (f : Group → Group) (k : Nat) (h : k ≠ s.cur.gid) : (s.updCG f).g k = s.g k :=
  SMap.get_put_ne _ _ h
/-- Two changes of the issuing group seen from its registers. -/
@[simp] theorem State.updCS_cg (s : State) (f : Split → Split) :
    (s.updCS f).cg = { s.cg with splits := s.cg.splits.upd s.cur.slot f } := State.updCG_cg s _
@[simp] theorem State.updCS_cur (s : State) (f : Split → Split) : (s.updCS f).cur = s.cur := rfl
@[simp] theorem State.updCS_cs (s : State) (f : Split → Split) : (s.updCS f).cs = f s.cs := by
  simp [State.cs]

end Sys2Proof.Machine
end

