-- ==== Sys2Proof/Laws/Lanes.lean ====
section
/-! SUPPORT. Sets of lanes, and what writing a register in each lane of a set leaves. -/

namespace Sys2Proof.Machine

open Sys2Proof

theorem mem_lanesOf (m : LaneMask) (l : Nat) : l ∈ lanesOf m ↔ l < 32 ∧ inMask m l = true := by
  simp [lanesOf]

theorem nodup_lanesOf (m : LaneMask) : (lanesOf m).Nodup := List.nodup_range.filter _

@[simp] theorem lanesOf_zero : lanesOf 0#32 = [] := by decide

@[simp] theorem inMask_zero (l : Nat) : inMask 0#32 l = false := by simp [inMask]

@[simp] theorem inMask_and (a b : LaneMask) (l : Nat) : inMask (a &&& b) l = (inMask a l && inMask b l) := by
  simp [inMask]

/-- The number that a set of lanes below n stands for, and its bits. -/
theorem maskSum_spec (f : Nat → Bool) (n : Nat) :
    (List.range n).foldl (fun a l => if f l then a + 2 ^ l else a) 0 < 2 ^ n ∧
      ∀ l, ((List.range n).foldl (fun a l => if f l then a + 2 ^ l else a) 0).testBit l = (decide (l < n) && f l) := by
  induction n with
  | zero => simp
  | succ n ih =>
    obtain ⟨hlt, hbit⟩ := ih
    rw [List.range_succ, List.foldl_append]
    set x := (List.range n).foldl (fun a l => if f l then a + 2 ^ l else a) 0
    simp only [List.foldl_cons, List.foldl_nil]
    by_cases hf : f n
    · simp only [hf, if_true]
      refine ⟨by rw [Nat.pow_succ]; omega, fun l => ?_⟩
      rw [show x + 2 ^ n = x ||| 2 ^ n by
        have := Nat.two_pow_add_eq_or_of_lt hlt 1; rw [Nat.mul_one] at this; rw [Nat.or_comm]; omega, Nat.testBit_or, hbit, Nat.testBit_two_pow]
      rcases Nat.lt_trichotomy l n with h | h | h
      · simp [h, (show l < n + 1 by omega), (show n ≠ l by omega)]
      · simp [h, hf]
      · simp [(show ¬ l < n by omega), (show ¬ l < n + 1 by omega), (show n ≠ l by omega)]
    · simp only [hf]
      refine ⟨by rw [Nat.pow_succ]; simp; omega, fun l => ?_⟩
      simp only [Bool.false_eq_true, if_false, hbit]
      rcases Nat.lt_trichotomy l n with h | h | h
      · simp [h, (show l < n + 1 by omega)]
      · simp [h, hf]
      · simp [(show ¬ l < n by omega), (show ¬ l < n + 1 by omega)]

@[simp] theorem inMask_maskOf (f : Nat → Bool) (l : Nat) : inMask (maskOf f) l = (decide (l < 32) && f l) := by
  unfold inMask maskOf
  rw [BitVec.getLsbD_ofNat]
  by_cases h : l < 32
  · simp [h, (maskSum_spec f 32).2 l]
  · simp [h]

theorem mask_ext {a b : LaneMask} (h : ∀ l < 32, inMask a l = inMask b l) : a = b :=
  BitVec.eq_of_getLsbD_eq fun i hi => h i hi

theorem maskOf_eq_zero {f : Nat → Bool} (h : ∀ l < 32, f l = false) : maskOf f = 0#32 :=
  mask_ext fun l hl => by simp [hl, h l hl]

@[simp] theorem forLanes_zero (s : State) (f : State → Nat → State) : forLanes 0#32 s f = s := by simp [forLanes]

/-- Writing register d in some lanes: the group, lane by lane. -/
theorem foldl_setV (g : Nat → Word) (p : Nat → Bool) (d : Nat) (ls : List Nat) (s : State) :
    let t := ls.foldl (fun t l => t.setV d l (g l) (p l)) s
    t.cur = s.cur ∧ ({ t with groups := s.groups } = s) ∧ (∀ k, k ≠ s.cur.gid → t.g k = s.g k) ∧
      ({ t.cg with vr := s.cg.vr, vpo := s.cg.vpo } = s.cg) ∧
      (∀ k, (∀ l ∈ ls, k ≠ 32 * d + l) → t.cg.vr.get k = s.cg.vr.get k) ∧
      (∀ r, r ≠ d → t.cg.vpo.get r = s.cg.vpo.get r) := by
  induction ls generalizing s with
  | nil => simp
  | cons a ls ih =>
    have h := ih (s.setV d a (g a) (p a))
    simp only [List.foldl_cons]
    obtain ⟨h1, h2, h3, h4, h5, h6⟩ := h
    have hg : (s.setV d a (g a) (p a)).cg = s.cg.setV d a (g a) (p a) := State.updCG_cg _ _
    rw [hg] at h4 h5 h6
    refine ⟨h1, ?_, fun k hk => ?_, ?_, fun k hk => ?_, fun r hr => ?_⟩
    · have := congrArg (fun u : State => { u with groups := s.groups }) h2
      exact this
    · exact (h3 k hk).trans (State.updCG_g_ne s _ k hk)
    · have := congrArg (fun u : Group => { u with vr := s.cg.vr, vpo := s.cg.vpo }) h4
      exact this
    · rw [h5 k fun l hl => hk l (List.mem_cons_of_mem _ hl)]
      exact SMap.get_put_ne _ _ (hk a List.mem_cons_self)
    · rw [h6 r hr]
      exact SMap.get_upd_ne s.cg.vpo (fun m => withLane m a (p a)) hr

/-- The lanes written hold what was written. -/
theorem foldl_setV_at (g : Nat → Word) (p : Nat → Bool) (d : Nat) (ls : List Nat) (hls : ls.Nodup) (s : State) (l : Nat)
    (hl : l ∈ ls) : (ls.foldl (fun t l => t.setV d l (g l) (p l)) s).cg.vr.get (32 * d + l) = g l := by
  induction ls generalizing s with
  | nil => cases hl
  | cons a ls ih =>
    simp only [List.foldl_cons]
    rw [List.nodup_cons] at hls
    rcases List.mem_cons.1 hl with rfl | h
    · rw [(foldl_setV g p d ls (s.setV d l (g l) (p l))).2.2.2.2.1]
      · rw [show (s.setV d l (g l) (p l)).cg = s.cg.setV d l (g l) (p l) from State.updCG_cg _ _]
        exact SMap.get_put_self _ _ _
      · intro k hk he
        have : l = k := by omega
        exact hls.1 (this ▸ hk)
    · exact ih hls.2 _ h

end Sys2Proof.Machine
end

