-- ==== Sys2Proof/Laws/Issue.lean ====
section
/-! SUPPORT. What the shared operations of an issue do where nothing traps, and what advancing a split leaves: one lemma for
each operation, so that no proof about an instruction unfolds them. -/

namespace Sys2Proof.Machine

open Sys2Proof

theorem perform_next {s : State} (hi : s.hasIssuer = true) (f : State → State) : perform s f = .next (f s.beginIssue) := by
  simp [perform, hi]

theorem perform_fault {s : State} (hi : s.hasIssuer = false) (f : State → State) : perform s f = .fault .noIssuer := by
  simp [perform, hi]

/-- An issue answers a next state exactly where some split issues. -/
theorem perform_isNext (s : State) (f : State → State) : (∃ t, perform s f = .next t) ↔ s.hasIssuer = true := by
  cases h : s.hasIssuer <;> simp [perform, h]

/-! ### What the beginning of an issue leaves -/

@[simp] theorem State.beginIssue_cg (s : State) : s.beginIssue.cg = s.cg := rfl
@[simp] theorem State.beginIssue_cs (s : State) : s.beginIssue.cs = s.cs := rfl
@[simp] theorem State.beginIssue_liveS (s : State) : s.beginIssue.liveS = s.liveS := rfl
@[simp] theorem State.beginIssue_v (s : State) (r l : Nat) : s.beginIssue.v r l = s.v r l := rfl
@[simp] theorem State.beginIssue_vp (s : State) (r l : Nat) : s.beginIssue.vp r l = s.vp r l := rfl
@[simp] theorem State.beginIssue_s (s : State) (r : Nat) : s.beginIssue.s r = s.s r := rfl
@[simp] theorem State.beginIssue_sp (s : State) (r : Nat) : s.beginIssue.sp r = s.sp r := rfl
@[simp] theorem State.beginIssue_p (s : State) (r l : Nat) : s.beginIssue.p r l = s.p r l := rfl
@[simp] theorem State.beginIssue_pp (s : State) (r l : Nat) : s.beginIssue.pp r l = s.pp r l := rfl
@[simp] theorem State.beginIssue_active (s : State) (h : Hdr) : s.beginIssue.active h = s.active h := rfl
@[simp] theorem State.beginIssue_laneActive (s : State) (h : Hdr) : s.beginIssue.laneActive h = s.laneActive h := rfl
@[simp] theorem State.beginIssue_ctlLanes (s : State) (h : Hdr) : s.beginIssue.ctlLanes h = s.ctlLanes h := rfl
@[simp] theorem State.beginIssue_scalarGuard (s : State) (h : Hdr) : s.beginIssue.scalarGuard h = s.scalarGuard h := rfl
@[simp] theorem State.beginIssue_wordTrap (s : State) (i : Instr) : s.beginIssue.wordTrap i = s.wordTrap i := rfl

theorem State.beginIssue_goesOn {s : State} (hi : s.hasIssuer = true) : s.beginIssue.goesOn = true := by
  simp only [State.hasIssuer, Bool.and_eq_true] at hi
  simp [State.goesOn, hi.1.2, hi.2]

/-! ### What advancing leaves -/

/-- Advancing changes the place and the wait of the issuing split, where there is one. -/
theorem State.advance_cg (s : State) :
    s.advance.cg = { s.cg with splits := s.cg.splits.upd s.cur.slot fun x =>
      if x.valid then { x with offset := s.cur.next, waitOn := none } else x } := State.updCS_cg s _
@[simp] theorem State.advance_cur (s : State) : s.advance.cur = s.cur := rfl
theorem State.advance_cs (s : State) (hv : s.cs.valid = true) :
    s.advance.cs = { s.cs with offset := s.cur.next, waitOn := none } := by
  simp [State.advance, hv]
@[simp] theorem State.advance_mem (s : State) : s.advance.mem = s.mem := rfl
theorem State.advance_g_ne (s : State) (k : Nat) (h : k ≠ s.cur.gid) : s.advance.g k = s.g k := State.updCG_g_ne s _ k h
theorem State.advance_outside (s : State) : { s.advance with groups := s.groups } = s := rfl

@[simp] theorem State.advance_mask (s : State) : s.advance.cs.mask = s.cs.mask := by
  simp only [State.advance, State.updCS_cs]
  split <;> rfl
@[simp] theorem State.advance_liveS (s : State) : s.advance.liveS = s.liveS := State.advance_mask s
@[simp] theorem State.advance_v (s : State) (r l : Nat) : s.advance.v r l = s.v r l := by
  simp [State.v, State.advance_cg]
@[simp] theorem State.advance_vp (s : State) (r l : Nat) : s.advance.vp r l = s.vp r l := by
  simp [State.vp, State.advance_cg]
@[simp] theorem State.advance_s (s : State) (r : Nat) : s.advance.s r = s.s r := by
  simp [State.s, State.advance_cg]
@[simp] theorem State.advance_sp (s : State) (r : Nat) : s.advance.sp r = s.sp r := by
  simp [State.sp, State.advance_cg]
@[simp] theorem State.advance_p (s : State) (r l : Nat) : s.advance.p r l = s.p r l := by
  simp [State.p, State.advance_cg]
@[simp] theorem State.advance_pp (s : State) (r l : Nat) : s.advance.pp r l = s.pp r l := by
  simp [State.pp, State.advance_cg]
@[simp] theorem State.advance_alive (s : State) : s.advance.cg.alive = s.cg.alive := by simp [State.advance_cg, Group.alive]
@[simp] theorem State.advance_mmask (s : State) : s.advance.cg.mmask = s.cg.mmask := by simp [State.advance_cg]
@[simp] theorem State.advance_passGuard (s : State) (h : Hdr) (m : LaneMask) : s.advance.passGuard h m = s.passGuard h m := by
  simp [State.passGuard]
@[simp] theorem State.advance_active (s : State) (h : Hdr) : s.advance.active h = s.active h := by simp [State.active]
@[simp] theorem State.advance_laneActive (s : State) (h : Hdr) : s.advance.laneActive h = s.laneActive h := by
  simp [State.laneActive]
@[simp] theorem State.advance_ctlLanes (s : State) (h : Hdr) : s.advance.ctlLanes h = s.ctlLanes h := by
  simp [State.ctlLanes]

/-! ### Issues that meet no trap -/

@[simp] theorem State.killLanes_zero (s : State) : s.killLanes 0#32 = s := forLanes_zero s _

theorem State.guardDeaths_clean {s : State} {h : Hdr} {m : LaneMask} (hg : guardClean h m s) : s.guardDeaths h m = s := by
  unfold State.guardDeaths
  by_cases he : h.ge = true
  · rw [if_pos he, maskOf_eq_zero, State.killLanes_zero]
    intro l hl
    by_cases hm : inMask m l = true
    · simp [hm, hg he l hl hm]
    · simp [hm]
  · rw [if_neg he]

theorem State.poisonedScalar_clean {s : State} {rs : List Nat} (h : ∀ r, r ∈ rs → s.sp r = false) :
    s.poisonedScalar rs = none := by
  have hf : rs.filter s.sp = [] := List.filter_eq_nil_iff.mpr fun r hr => by simp [h r hr]
  rw [State.poisonedScalar, hf]

/-- A lane-class instruction that meets no trap, dooms no lane and is ready advances, and then acts. -/
theorem laneMem_clean {i : Instr} {h : Hdr} {s : State} {doomed : State → LaneMask} {check : State → Option Trap}
    {ready : State → Bool} {act : State → State} (hc : laneClean i h s) (hd : doomed s.beginIssue = 0#32)
    (hk : s.laneActive h = 0#32 ∨ check s.beginIssue = none) (hr : ready s.beginIssue = true) :
    perform s (laneMem i h doomed check ready act) = .next (act s.beginIssue.advance) := by
  obtain ⟨hi, hw, hg, ho⟩ := hc
  have hgo := State.beginIssue_goesOn hi
  have ht : s.beginIssue.laneTrap i h check = none := by
    unfold State.laneTrap
    split
    · rfl
    · rename_i hz
      have hz : ¬ s.laneActive h = 0#32 := fun e => hz (.inr e)
      rw [State.poisonedScalar_clean (s := s.beginIssue) (ho.resolve_left hz)]
      exact hk.resolve_left hz
  rw [perform_next hi]
  congr 1
  unfold laneMem
  rw [State.beginIssue_wordTrap, hw]
  simp only [show s.beginIssue.guardDeaths h (s.beginIssue.liveS &&& s.beginIssue.cur.lanes &&& s.beginIssue.cg.mmask) = s.beginIssue
    from State.guardDeaths_clean (s := s.beginIssue) hg, hd, State.killLanes_zero, hgo, not_true_eq_false, if_false, ht, hr, if_true]

theorem laneInstr_clean {i : Instr} {h : Hdr} {s : State} {check : State → Option Trap} {act : State → State}
    (hc : laneClean i h s) (hk : s.laneActive h = 0#32 ∨ check s.beginIssue = none) :
    perform s (laneInstr i h check act) = .next (act s.beginIssue.advance) :=
  laneMem_clean (doomed := fun _ => 0#32) (ready := fun _ => true) hc rfl hk rfl

theorem laneOnly_clean {i : Instr} {h : Hdr} {s : State} {act : State → State} (hc : laneClean i h s) :
    perform s (laneOnly i h act) = .next (act s.beginIssue.advance) :=
  laneInstr_clean (check := fun _ => none) hc (.inr rfl)

/-- A scalar-class instruction that meets no trap acts on the state before it. -/
theorem scalarCore_clean {i : Instr} {h : Hdr} {s : State} {check : State → Option Trap} {act : State → State → State}
    (hc : scalarClean i h s) (hk : check s.beginIssue = none) :
    perform s (scalarCore i h check act) = .next (act s.beginIssue s.beginIssue) := by
  obtain ⟨hi, hw, hg, hp, ho⟩ := hc
  have hgo := State.beginIssue_goesOn hi
  rw [perform_next hi]
  congr 1
  unfold scalarCore
  rw [State.beginIssue_wordTrap, hw]
  simp only [show s.beginIssue.guardDeaths h (s.beginIssue.liveS &&& s.beginIssue.cg.mmask) = s.beginIssue
    from State.guardDeaths_clean (s := s.beginIssue) hg, hgo, not_true_eq_false, if_false, State.beginIssue_scalarGuard, hp,
    State.poisonedScalar_clean (s := s.beginIssue) ho, hk]

theorem scalarInstr_clean {i : Instr} {h : Hdr} {s : State} {check : State → Option Trap} {ready : State → Bool}
    {act : State → State} (hc : scalarClean i h s) (hk : check s.beginIssue = none) (hr : ready s.beginIssue = true) :
    perform s (scalarInstr i h check ready act) = .next (act s.beginIssue.advance) := by
  rw [show scalarInstr i h check ready act = scalarCore i h check _ from rfl, scalarCore_clean hc hk, if_pos hr]

theorem scalarOnly_clean {i : Instr} {h : Hdr} {s : State} {act : State → State} (hc : scalarClean i h s) :
    perform s (scalarOnly i h act) = .next (act s.beginIssue.advance) :=
  scalarInstr_clean (check := fun _ => none) (ready := fun _ => true) hc rfl rfl

/-- A scalar-class instruction whose guard does not hold only advances (R42). -/
theorem scalarCore_guard {i : Instr} {h : Hdr} {s : State} {check : State → Option Trap} {act : State → State → State}
    (hi : s.hasIssuer = true) (hw : s.wordTrap i = none) (hg : guardClean h (s.liveS &&& s.cg.mmask) s)
    (hp : s.scalarGuard h = false) : perform s (scalarCore i h check act) = .next s.beginIssue.advance := by
  have hgo := State.beginIssue_goesOn hi
  rw [perform_next hi]
  congr 1
  unfold scalarCore
  rw [State.beginIssue_wordTrap, hw]
  simp only [show s.beginIssue.guardDeaths h (s.beginIssue.liveS &&& s.beginIssue.cg.mmask) = s.beginIssue
    from State.guardDeaths_clean (s := s.beginIssue) hg, hgo, not_true_eq_false, if_false, State.beginIssue_scalarGuard, hp]
  simp

/-- A control-class instruction that meets no trap and dooms no lane acts. -/
theorem ctlInstr_clean {i : Instr} {h : Hdr} {s : State} {named doomed : State → LaneMask} {check : State → Option Trap}
    {act : State → State} (hc : ctlClean i h named s) (hn : named s.beginIssue = named s) (hd : doomed s.beginIssue = 0#32)
    (hk : check s.beginIssue = none) :
    perform s (ctlInstr i h named doomed check act) = .next (act s.beginIssue) := by
  obtain ⟨hi, hw, hg⟩ := hc
  have hgo := State.beginIssue_goesOn hi
  rw [perform_next hi]
  congr 1
  unfold ctlInstr
  rw [State.beginIssue_wordTrap, hw]
  simp only [hn, show s.beginIssue.guardDeaths h (named s) = s.beginIssue from State.guardDeaths_clean (s := s.beginIssue) hg,
    hgo, not_true_eq_false, if_false, hd, State.killLanes_zero, hk]

/-- An instruction whose word is illegal, privileged or needs an absent unit takes the trap that R66 names. -/
theorem laneMem_wordTrap {i : Instr} {h : Hdr} {s : State} {doomed : State → LaneMask} {check : State → Option Trap}
    {ready : State → Bool} {act : State → State} {t : Trap} (hi : s.hasIssuer = true) (hw : s.wordTrap i = some t) :
    perform s (laneMem i h doomed check ready act) = .next (s.beginIssue.trapCur t) := by
  rw [perform_next hi]
  congr 1
  unfold laneMem
  rw [State.beginIssue_wordTrap, hw]

theorem scalarCore_wordTrap {i : Instr} {h : Hdr} {s : State} {check : State → Option Trap} {act : State → State → State}
    {t : Trap} (hi : s.hasIssuer = true) (hw : s.wordTrap i = some t) :
    perform s (scalarCore i h check act) = .next (s.beginIssue.trapCur t) := by
  rw [perform_next hi]
  congr 1
  unfold scalarCore
  rw [State.beginIssue_wordTrap, hw]

theorem ctlInstr_wordTrap {i : Instr} {h : Hdr} {s : State} {named doomed : State → LaneMask} {check : State → Option Trap}
    {act : State → State} {t : Trap} (hi : s.hasIssuer = true) (hw : s.wordTrap i = some t) :
    perform s (ctlInstr i h named doomed check act) = .next (s.beginIssue.trapCur t) := by
  rw [perform_next hi]
  congr 1
  unfold ctlInstr
  rw [State.beginIssue_wordTrap, hw]

end Sys2Proof.Machine
end

