-- ==== Sys2Proof/Laws/LaneWrites.lean ====
section
/-! SUPPORT. What a lane-class instruction that writes one register in its active lanes leaves: all of it, once. -/

namespace Sys2Proof.Machine

open Sys2Proof

theorem inMask_withLane (m : LaneMask) (l k : Nat) (b : Bool) (hl : l < 32) :
    inMask (withLane m l b) k = if k = l then b else inMask m k := by
  have hb : ∀ j, (laneBit l).getLsbD j = (decide (j < 32) && decide (l = j)) := fun j => by
    simp only [laneBit, BitVec.getLsbD_ofNat, Nat.testBit_two_pow]
  unfold withLane inMask
  have hm : 32 ≤ k → m.getLsbD k = false := BitVec.getLsbD_of_ge m k
  by_cases hk : k = l
  · subst hk
    cases b <;> simp only [hb, hl, BitVec.getLsbD_or, BitVec.getLsbD_and, BitVec.getLsbD_not, if_true, Bool.false_eq_true,
      if_false] <;> simp
  · have hlk : l ≠ k := fun h => hk h.symm
    cases b <;> simp only [hb, hlk, hk, BitVec.getLsbD_or, BitVec.getLsbD_and, BitVec.getLsbD_not, if_true, Bool.false_eq_true,
      if_false, decide_false, Bool.and_false, Bool.or_false, Bool.not_false, Bool.and_true]
    by_cases h32 : k < 32
    · simp [h32]
    · simp [h32, hm (Nat.le_of_not_lt h32)]

/-- The marks of register d after writing it in some lanes. -/
theorem foldl_setV_mark (g : Nat → Word) (p : Nat → Bool) (d : Nat) (ls : List Nat) (hls : ls.Nodup) (h32 : ∀ l ∈ ls, l < 32)
    (s : State) (k : Nat) :
    inMask ((ls.foldl (fun t l => t.setV d l (g l) (p l)) s).cg.vpo.get d) k =
      if k ∈ ls then p k else inMask (s.cg.vpo.get d) k := by
  induction ls generalizing s with
  | nil => simp
  | cons a ls ih =>
    simp only [List.foldl_cons]
    rw [List.nodup_cons] at hls
    rw [ih hls.2 (fun l hl => h32 l (List.mem_cons_of_mem _ hl)),
      show (s.setV d a (g a) (p a)).cg = s.cg.setV d a (g a) (p a) from State.updCG_cg _ _]
    simp only [Group.setV_vpo, SMap.get_upd_self, inMask_withLane _ _ _ _ (h32 a List.mem_cons_self), List.mem_cons]
    by_cases hk : k ∈ ls
    · simp [hk]
    · by_cases he : k = a
      · subst he
        simp [hk]
      · simp [hk, he]

/-- Writing predicate q in some lanes. -/
theorem foldl_setP (g p : Nat → Bool) (q : Nat) (ls : List Nat) (h32 : ∀ l ∈ ls, l < 32) (hls : ls.Nodup) (s : State) :
    let t := ls.foldl (fun t l => t.setP q l (g l) (p l)) s
    t.cur = s.cur ∧ ({ t with groups := s.groups } = s) ∧ (∀ k, k ≠ s.cur.gid → t.g k = s.g k) ∧
      ({ t.cg with pr := s.cg.pr, ppo := s.cg.ppo } = s.cg) ∧
      (∀ k, inMask (t.cg.pr.get q) k = if k ∈ ls then g k else inMask (s.cg.pr.get q) k) ∧
      (∀ k, inMask (t.cg.ppo.get q) k = if k ∈ ls then p k else inMask (s.cg.ppo.get q) k) ∧
      (∀ r, r ≠ q → t.cg.pr.get r = s.cg.pr.get r ∧ t.cg.ppo.get r = s.cg.ppo.get r) := by
  induction ls generalizing s with
  | nil => simp
  | cons a ls ih =>
    rw [List.nodup_cons] at hls
    have h := ih (fun l hl => h32 l (List.mem_cons_of_mem _ hl)) hls.2 (s.setP q a (g a) (p a))
    simp only [List.foldl_cons]
    obtain ⟨ha, hb, hc, hd, he, hf, hh⟩ := h
    have hg : (s.setP q a (g a) (p a)).cg = s.cg.setP q a (g a) (p a) := State.updCG_cg _ _
    rw [hg] at hd he hf hh
    refine ⟨ha, congrArg (fun u : State => { u with groups := s.groups }) hb,
      fun k hk => (hc k hk).trans (State.updCG_g_ne s _ k hk),
      congrArg (fun u : Group => { u with pr := s.cg.pr, ppo := s.cg.ppo }) hd, fun k => ?_, fun k => ?_, fun r hr => ?_⟩
    · rw [he]
      simp only [Group.setP_pr, SMap.get_upd_self, inMask_withLane _ _ _ _ (h32 a List.mem_cons_self), List.mem_cons]
      by_cases hk : k ∈ ls
      · simp [hk]
      · by_cases e : k = a
        · subst e
          simp [hk]
        · simp [hk, e]
    · rw [hf]
      simp only [Group.setP_ppo, SMap.get_upd_self, inMask_withLane _ _ _ _ (h32 a List.mem_cons_self), List.mem_cons]
      by_cases hk : k ∈ ls
      · simp [hk]
      · by_cases e : k = a
        · subst e
          simp [hk]
        · simp [hk, e]
    · obtain ⟨hx, hy⟩ := hh r hr
      exact ⟨hx.trans (SMap.get_upd_ne s.cg.pr (fun m => withLane m a (g a)) hr),
        hy.trans (SMap.get_upd_ne s.cg.ppo (fun m => withLane m a (p a)) hr)⟩

theorem State.hasIssuer_valid {s : State} (hi : s.hasIssuer = true) : s.cs.valid = true := by
  simp only [State.hasIssuer, Bool.and_eq_true] at hi
  exact hi.2

/-- The splits of the issuing group after it advanced. -/
theorem State.advanced_of_splits {s t : State} (hi : s.hasIssuer = true) (hc : t.cur = s.beginIssue.cur)
    (hs : t.cg.splits = s.beginIssue.advance.cg.splits) : Advanced s t := by
  have hv := State.hasIssuer_valid hi
  refine ⟨hc, ?_, fun k hk => ?_⟩
  · show t.cg.splits.get t.cur.slot = _
    rw [hs, hc]
    exact State.advance_cs s.beginIssue hv
  · rw [hs, State.advance_cg]
    exact SMap.get_upd_ne _ _ hk

/-- An instruction whose act writes register d in its active lanes makes exactly that step. -/
theorem laneWrite_step {i : Instr} {h : Hdr} {d : Nat} {f : State → Nat → Word} {po : State → Nat → Bool} {s : State}
    (hc : laneClean i h s) :
    ∃ t, perform s (laneOnly i h (laneWrite h d f po)) = .next t ∧
      LaneStep h d (fun s l => f s.beginIssue.advance l) (fun s l => po s.beginIssue.advance l) s t := by
  refine ⟨_, laneOnly_clean hc, ?_⟩
  set u := s.beginIssue.advance with hu
  have hact : u.laneActive h = s.laneActive h := by simp [hu]
  have hmem := mem_lanesOf (s.laneActive h)
  have hnd := nodup_lanesOf (s.laneActive h)
  unfold laneWrite forLanes
  rw [hact]
  obtain ⟨h1, h2, h3, h4, h5, h6⟩ := foldl_setV (f u) (po u) d (lanesOf (s.laneActive h)) u
  set t := (lanesOf (s.laneActive h)).foldl (fun t l => t.setV d l (f u l) (po u l)) u with ht
  have hvr : u.cg.vr = s.cg.vr := by simp [hu, State.advance_cg]
  have hvp : u.cg.vpo = s.cg.vpo := by simp [hu, State.advance_cg]
  have hin : ∀ l, l < 32 → inMask (s.laneActive h) l = true → l ∈ lanesOf (s.laneActive h) := fun l a b => (hmem l).2 ⟨a, b⟩
  constructor
  · refine ⟨?_, fun k hk => (h3 k hk).trans (State.advance_g_ne s.beginIssue k hk), fun a => ?_⟩
    · have := congrArg (fun x : State => { x with groups := s.groups, cur := s.cur }) h2
      exact this
    · have := congrArg (fun x : State => x.devByte a) h2
      exact this
  · have := congrArg Group.splits h4
    exact State.advanced_of_splits hc.1 h1 this
  · exact fun l hl hm => foldl_setV_at (f u) (po u) d _ hnd u l (hin l hl hm)
  · intro l hl hm
    rw [ht, foldl_setV_mark _ _ _ _ hnd fun l hl => ((hmem l).1 hl).1]
    rw [if_pos (hin l hl hm)]
  · intro r l hl hr
    rw [h5 (32 * r + l), hvr]
    intro k hk he
    have := (hmem k).1 hk
    rcases hr with hr | hr
    · exact hr (by omega)
    · have : l = k := by omega
      subst this
      simp [hr] at this
  · intro r l hl hr
    by_cases e : r = d
    · subst e
      rw [ht, foldl_setV_mark _ _ _ _ hnd fun l hl => ((hmem l).1 hl).1, hvp]
      rcases hr with hr | hr
      · exact absurd rfl hr
      · rw [if_neg]
        intro hk
        simp [((hmem l).1 hk).2] at hr
    · rw [h6 r e, hvp]
  · have := congrArg (fun g : Group => { g with vr := s.cg.vr, vpo := s.cg.vpo, splits := s.cg.splits }) h4
    refine this.trans ?_
    rw [hu, State.advance_cg]
    rfl

/-- An instruction whose act writes predicate q in its active lanes makes exactly that step. -/
theorem laneWriteP_step {i : Instr} {h : Hdr} {q : Nat} {f po : State → Nat → Bool} {s : State} (hc : laneClean i h s) :
    ∃ t, perform s (laneOnly i h (laneWriteP h q f po)) = .next t ∧
      LanePredStep h q (fun s l => f s.beginIssue.advance l) (fun s l => po s.beginIssue.advance l) s t := by
  refine ⟨_, laneOnly_clean hc, ?_⟩
  set u := s.beginIssue.advance with hu
  have hact : u.laneActive h = s.laneActive h := by simp [hu]
  have hmem := mem_lanesOf (s.laneActive h)
  have hnd := nodup_lanesOf (s.laneActive h)
  unfold laneWriteP forLanes
  rw [hact]
  obtain ⟨h1, h2, h3, h4, h5, h6, h7⟩ := foldl_setP (f u) (po u) q (lanesOf (s.laneActive h)) (fun l hl => ((hmem l).1 hl).1) hnd u
  have hpr : u.cg.pr = s.cg.pr := by simp [hu, State.advance_cg]
  have hpp : u.cg.ppo = s.cg.ppo := by simp [hu, State.advance_cg]
  have hin : ∀ l, l < 32 → inMask (s.laneActive h) l = true → l ∈ lanesOf (s.laneActive h) := fun l a b => (hmem l).2 ⟨a, b⟩
  have hout : ∀ l, inMask (s.laneActive h) l = false → l ∉ lanesOf (s.laneActive h) := fun l a hk => by
    simp [((hmem l).1 hk).2] at a
  constructor
  · refine ⟨?_, fun k hk => (h3 k hk).trans (State.advance_g_ne s.beginIssue k hk), fun a => ?_⟩
    · have := congrArg (fun x : State => { x with groups := s.groups, cur := s.cur }) h2
      exact this
    · have := congrArg (fun x : State => x.devByte a) h2
      exact this
  · have := congrArg Group.splits h4
    exact State.advanced_of_splits hc.1 h1 this
  · exact fun l hl hm => (h5 l).trans (if_pos (hin l hl hm))
  · exact fun l hl hm => (h6 l).trans (if_pos (hin l hl hm))
  · intro r l hl hr
    by_cases e : r = q
    · subst e
      rw [h5, if_neg (hout l (hr.resolve_left fun x => x rfl)), hpr]
    · rw [(h7 r e).1, hpr]
  · intro r l hl hr
    by_cases e : r = q
    · subst e
      rw [h6, if_neg (hout l (hr.resolve_left fun x => x rfl)), hpp]
    · rw [(h7 r e).2, hpp]
  · have := congrArg (fun g : Group => { g with pr := s.cg.pr, ppo := s.cg.ppo, splits := s.cg.splits }) h4
    refine this.trans ?_
    rw [hu, State.advance_cg]
    rfl

end Sys2Proof.Machine
end

