-- ==== Sys2Proof/Laws/Memory.lean ====
section
/-! SUPPORT. Memory operations keep the canonical form, and a byte reads as what was last written. -/

namespace Sys2Proof.Machine

open Sys2Proof

theorem Memory.put_wf {m : Memory} (pa : Nat) (b : Byte) (h : Memory.wf m = true) : Memory.wf (m.put pa b) = true :=
  SMap.canon_put pa b h

/-- Writing bytes keeps the canonical form. -/
theorem Memory.write_wf {m : Memory} (bs : List Byte) (pa : Nat) (h : Memory.wf m = true) : Memory.wf (m.write pa bs) = true := by
  induction bs generalizing m pa with
  | nil => exact h
  | cons b r ih => exact ih (pa + 1) (Memory.put_wf pa b h)

/-- A byte outside the written range keeps its value. -/
theorem Memory.write_other {m : Memory} (bs : List Byte) (pa a : Nat) (h : a < pa ∨ pa + bs.length ≤ a) :
    SMap.get (m.write pa bs) a = SMap.get m a := by
  induction bs generalizing m pa with
  | nil => rfl
  | cons b r ih =>
    simp only [List.length_cons] at h
    rw [Memory.write, ih (pa + 1) (by omega)]
    exact SMap.get_put_ne m b (by omega)

/-- A byte inside it reads as what was written. -/
theorem Memory.write_at {m : Memory} (bs : List Byte) (pa k : Nat) (h : k < bs.length) :
    SMap.get (m.write pa bs) (pa + k) = bs.getD k 0#8 := by
  induction bs generalizing m pa k with
  | nil => simp at h
  | cons b r ih =>
    cases k with
    | zero =>
      rw [Memory.write, Memory.write_other r (pa + 1) (pa + 0) (by omega)]
      simp
    | succ k =>
      rw [Memory.write, show pa + (k + 1) = pa + 1 + k by omega, ih (pa + 1) k (by simpa using h)]
      simp

theorem State.mirWrite_mem (s : State) (mir : Bool) (who : List Origin) (pa : Nat) (bs : List Byte) :
    (s.mirWrite mir who pa bs).mem = s.mem := by
  unfold State.mirWrite
  split <;> rfl

theorem State.lineEvent_mem (s : State) (line : Nat) (bs : List Byte) : (s.lineEvent line bs).mem = s.mem := by
  unfold State.lineEvent
  dsimp only
  split <;> rfl

theorem foldl_updGr_mem (f : Grid → Grid) (hs : List Nat) (s : State) : (hs.foldl (fun t h => t.updGr h f) s).mem = s.mem := by
  induction hs generalizing s with
  | nil => rfl
  | cons h r ih => exact ih (s.updGr h f)

theorem State.setDetmix_mem (s : State) (hs : List Nat) : (s.setDetmix hs).mem = s.mem := foldl_updGr_mem _ hs s

/-- What holds at the start of a fold and is kept by each of its steps holds at its end. -/
theorem foldl_keeps {α β : Type} (P : β → Prop) (f : β → α → β) (hf : ∀ b a, P b → P (f b a)) (l : List α) (b : β) (h : P b) :
    P (l.foldl f b) := by
  induction l generalizing b with
  | nil => exact h
  | cons a r ih => exact ih (f b a) (hf b a h)

/-! Every operation on device memory keeps the canonical form. -/

theorem State.leaveRed_wf {s : State} (line : Nat) (h : Memory.wf s.mem = true) : Memory.wf (s.leaveRed line).mem = true := by
  unfold State.leaveRed
  dsimp only
  split
  · rw [State.mirWrite_mem, State.lineEvent_mem]
    exact Memory.write_wf _ _ h
  · exact h

theorem State.endRed_wf {s : State} (grid : Option Nat) (pa n : Nat) (h : Memory.wf s.mem = true) :
    Memory.wf (s.endRed grid pa n).mem = true := by
  refine foldl_keeps (fun t : State => Memory.wf t.mem = true) _ (fun t line ht => ?_) _ s h
  have hd : ∀ hs, Memory.wf (t.setDetmix hs).mem = true := fun hs => by
    rw [State.setDetmix_mem]
    exact ht
  dsimp only
  split
  · refine State.leaveRed_wf line ?_
    split
    · split
      · exact ht
      · exact hd _
    · exact hd _
  · exact ht

theorem State.devWrite_wf {s : State} (grid : Option Nat) (pa : Nat) (bs : List Byte) (po : Bool) (h : Memory.wf s.mem = true) :
    Memory.wf (s.devWrite grid pa bs po).mem = true := by
  unfold State.devWrite
  split
  · exact h
  · have := Memory.write_wf bs pa (State.endRed_wf grid pa bs.length h)
    split
    · exact this
    · exact this

theorem State.placeWrite_wf {s : State} (grid : Option Nat) (who : List Origin) (p : Place) (bs : List Byte) (po : Bool)
    (h : Memory.wf s.mem = true) : Memory.wf (s.placeWrite grid who p bs po).mem = true := by
  cases p with
  | scratch b key => exact h
  | dev pa mir =>
    show Memory.wf ((s.devWrite grid pa bs po).mirWrite mir who pa bs).mem = true
    rw [State.mirWrite_mem]
    exact State.devWrite_wf grid pa bs po h
  | host a => exact h
  | peer r pa => exact h

theorem State.settleLine_wf {s : State} (grid : Option Nat) (p : Place) (n : Nat) (h : Memory.wf s.mem = true) :
    Memory.wf (s.settleLine grid p n).mem = true := by
  cases p with
  | dev pa mir => exact State.endRed_wf grid pa n h
  | scratch b key => exact h
  | host a => exact h
  | peer r pa => exact h

theorem State.insert_wf {s : State} (grid : Option Nat) (e : Event) (i : Nat) (p : Place) (bs : List Byte) (po : Bool)
    (ev : Option Nat) (h : Memory.wf s.mem = true) : Memory.wf (s.insert grid e i p bs po ev).mem = true := by
  unfold State.insert
  dsimp only
  split
  · exact State.placeWrite_wf grid _ p _ po h
  · exact State.placeWrite_wf grid _ p _ po h

theorem State.pickSlot_mem (s : State) (e : Event) (p : Place) (n : Nat) : (s.pickSlot e p n).2.mem = s.mem := by
  unfold State.pickSlot
  split <;> rfl

/-- A party's write, wherever it falls among the writes, keeps the form. -/
theorem State.writeAs_wf {s : State} (grid : Option Nat) (e : Event) (p : Place) (bs : List Byte) (po : Bool)
    (ev : Option Nat) (h : Memory.wf s.mem = true) : Memory.wf (s.writeAs grid e p bs po ev).mem = true := by
  refine State.insert_wf grid e _ p bs po ev (State.settleLine_wf grid p _ ?_)
  rw [State.pickSlot_mem]
  exact h

theorem State.topWrite_wf {s : State} (grid : Option Nat) (e : Event) (p : Place) (bs : List Byte) (po : Bool)
    (h : Memory.wf s.mem = true) : Memory.wf (s.topWrite grid e p bs po).mem = true := by
  unfold State.topWrite
  split
  · exact h
  · exact State.insert_wf grid e 0 p bs po none (State.settleLine_wf grid p _ h)

/-- An agent's write, from outside the programs, keeps the form. -/
theorem State.agentWrite_wf {s : State} (grid : Option Nat) (q : Origin) (p : Place) (bs : List Byte) (po : Bool)
    (h : Memory.wf s.mem = true) : Memory.wf (s.agentWrite grid q p bs po).mem = true := State.topWrite_wf grid _ p bs po h

theorem State.performStores_wf {s : State} (gid : Nat) (xs : List PairStore) (h : Memory.wf s.mem = true) :
    Memory.wf (s.performStores gid xs).mem = true := by
  unfold State.performStores
  dsimp only
  refine foldl_keeps (fun t : State => Memory.wf t.mem = true) (fun (u : State) (w : Nat × Nat) => u.markPo w.1 w.2) (fun t w ht => ht) _ _ ?_
  refine foldl_keeps (fun t : State => Memory.wf t.mem = true) _ (fun t k ht => ?_) _ _ ?_
  · split <;> exact ht
  · exact foldl_keeps (fun t : State => Memory.wf t.mem = true) _ (fun t x ht => by
      split
      · exact ht
      · exact State.writeAs_wf _ _ _ _ _ _ ht) _ s h

theorem State.pairFlush_wf {s : State} (gid : Nat) (h : Memory.wf s.mem = true) : Memory.wf (s.pairFlush gid).mem = true := by
  unfold State.pairFlush
  dsimp only
  split
  · exact foldl_keeps (fun t : State => Memory.wf t.mem = true) _ (fun t xs ht => State.performStores_wf gid xs ht) _ _ h
  · exact h

theorem State.groupStores_wf {s : State} (gid : Nat) (xs : List PairStore) (h : Memory.wf s.mem = true) :
    Memory.wf (s.groupStores gid xs).mem = true := by
  unfold State.groupStores
  split
  · have hu : ∀ u : State, Memory.wf u.mem = true → ∀ f, Memory.wf (u.updG gid f).mem = true := fun u hu f => hu
    refine hu _ ?_ _
    split
    · exact State.pairFlush_wf gid h
    · exact h
  · exact State.performStores_wf gid xs h

theorem State.groupStore_wf {s : State} (gid : Nat) (p : Place) (bs : List Byte) (po : Bool) (scope : Nat) (rel : Bool) (va : Nat)
    (h : Memory.wf s.mem = true) : Memory.wf (s.groupStore gid p bs po scope rel va).mem = true := State.groupStores_wf gid _ h

/-- A FADD at a line in the exact-reducing state writes no byte. -/
theorem State.fold_mem (s : State) (grid : Option Nat) (e : Event) (pa : Nat) (x : Word) (po : Bool) :
    (s.fold grid e pa x po).mem = s.mem := by
  unfold State.fold
  have hm : ∀ t : State, (if po = true then t.markPo pa 4 else t).mem = t.mem := fun t => by split <;> rfl
  dsimp only
  split
  · split
    · rw [State.setDetmix_mem, hm]
    · rw [hm]
  · rw [if_pos rfl, State.setDetmix_mem, hm]

theorem State.beforeFadd_mem (s : State) (grid : Option Nat) (pa : Nat) (mir : Bool) : (s.beforeFadd grid pa mir).mem = s.mem := by
  unfold State.beforeFadd
  split
  · split <;> rfl
  · rfl

theorem State.beforeRmw_mem (s : State) (grid : Option Nat) (op : AtomOp) (p : Place) : (s.beforeRmw grid op p).mem = s.mem := by
  unfold State.beforeRmw
  split
  · exact State.beforeFadd_mem _ _ _ _
  · rfl

theorem State.rmw_wf {s : State} (grid : Option Nat) (gid : Nat) (e : Event) (op : AtomOp) (p : Place) (x : List Word) (po : Bool)
    (ev : Option Nat) (h : Memory.wf s.mem = true) : Memory.wf (s.rmw grid gid e op p x po ev).2.2.mem = true := by
  have hm := State.beforeRmw_mem s grid op p
  unfold State.rmw
  dsimp only
  generalize s.beforeRmw grid op p = u at hm ⊢
  have hk := State.pickSlot_mem u { e with rmw := true, scope := e.by_.scopeAt p e.scope } p op.size
  generalize u.pickSlot { e with rmw := true, scope := e.by_.scopeAt p e.scope } p op.size = y at hk ⊢
  have hw : Memory.wf y.2.mem = true := by
    rw [hk, hm]
    exact h
  split
  · dsimp only
    rw [State.fold_mem]
    exact hw
  · split
    · exact State.insert_wf _ _ _ _ _ _ _ (State.settleLine_wf _ _ _ hw)
    · dsimp only
      split
      · exact hw
      · split <;> exact hw

end Sys2Proof.Machine
end

