-- ==== Sys2Proof/Laws/PerInstr.lean ====
section
/-! SUPPORT. One law for each instruction about its words (02_encoding.md R38, R59): the first bit of a well-formed
instruction's code tells a compact parcel from a word, a word is followed by as many words as the reader takes, and every word
fits 32 bits. -/

namespace Sys2Proof.Laws.Coded

open Sys2Proof

/-- Code that is read back as it stands. -/
def Shape : Code → Prop
  | .parcel p => p % 2 = 0 ∧ p < 2 ^ 16
  | .word w lits => w % 2 = 1 ∧ w < 2 ^ 32 ∧ lits.length = followWords w ∧ ∀ x, x ∈ lits → x < 2 ^ 32

/-- The words of a well-formed instruction have the shape that the reader expects. -/
def Statement (i : Instr) : Prop := ∀ c, wfError i = none → encode i = some c → Shape c

theorem of_parcel {i : Instr} {p : Nat} (he : encode i = some (.parcel p)) (hp : i.fits = true → p % 2 = 0 ∧ p < 2 ^ 16) :
    Statement i := by
  intro c hw hc
  rw [he] at hc
  obtain rfl := Option.some.inj hc
  unfold wfError at hw
  split at hw
  · exact hp ‹_›
  · cases hw

theorem of_none {i : Instr} (he : encode i = none) : Statement i := by
  intro c _ hc
  rw [he] at hc
  cases hc

theorem mkWord_major {maj : Nat} {h : Hdr} {p : Nat} (hm : maj < 32) (hs : h.stl < 4) (hg : h.gp < 16) :
    mkWord maj h p % 2 = 1 ∧ mkWord maj h p / 2 % 32 = maj ∧ mkWord maj h p / 16384 = p := by
  have ha : h.ge.toNat ≤ 1 := Bool.toNat_le _
  have hb : h.gs.toNat ≤ 1 := Bool.toNat_le _
  unfold mkWord
  omega

theorem mkWord_lt {maj : Nat} {h : Hdr} {p : Nat} (hm : maj < 32) (hs : h.stl < 4) (hg : h.gp < 16) (hp : p < 2 ^ 18) :
    mkWord maj h p < 2 ^ 32 := by
  have ha : h.ge.toNat ≤ 1 := Bool.toNat_le _
  have hb : h.gs.toNat ≤ 1 := Bool.toNat_le _
  unfold mkWord
  omega

/-- How many words follow, from the major and the payload. -/
def follow (maj p : Nat) : Nat :=
  match maj, p with
  | 21, p => if fScFn p = 8 then 1 else if fScFn p = 9 then 2 else 0
  | 30, p => if fA p = 25 then 1 else if fA p = 3 ∧ fB p ≤ 4 then fB p else 0
  | _, _ => 0

theorem followWords_mkWord {maj : Nat} {h : Hdr} {p : Nat} (hm : maj < 32) (hs : h.stl < 4) (hg : h.gp < 16) :
    followWords (mkWord maj h p) = follow maj p := by
  obtain ⟨-, h1, h2⟩ := mkWord_major (p := p) hm hs hg
  unfold followWords
  rw [h1, h2]
  rfl

theorem Hdr.ok_bounds {h : Hdr} (ho : h.ok = true) : h.stl < 4 ∧ h.gp < 16 := by
  simp only [Hdr.ok, Bool.and_eq_true, decide_eq_true_eq] at ho
  exact ⟨ho.1.2, ho.1.1⟩

/-- A word whose payload and following words fit has the shape. -/
theorem of_word {i : Instr} {maj : Nat} {h : Hdr} {p : Nat} {lits : List Nat}
    (he : encode i = some (.word (mkWord maj h p) lits)) (hm : maj < 32)
    (hp : wfError i = none → i.fits = true →
      h.stl < 4 ∧ h.gp < 16 ∧ p < 2 ^ 18 ∧ lits.length = follow maj p ∧ ∀ x, x ∈ lits → x < 2 ^ 32) : Statement i := by
  intro c hw hc
  rw [he] at hc
  obtain rfl := Option.some.inj hc
  have hf : i.fits = true := by
    unfold wfError at hw
    split at hw
    · assumption
    · cases hw
  obtain ⟨hs, hg, hb, hl, hx⟩ := hp hw hf
  exact ⟨(mkWord_major hm hs hg).1, mkWord_lt hm hs hg hb, by rw [hl, followWords_mkWord hm hs hg], hx⟩

/-- A word that no word follows. -/
theorem of_plain {i : Instr} {maj : Nat} {h : Hdr} {p : Nat} (he : encode i = some (.word (mkWord maj h p) [])) (hm : maj < 32)
    (hz : follow maj p = 0) (hp : i.fits = true → h.stl < 4 ∧ h.gp < 16 ∧ p < 2 ^ 18) : Statement i :=
  of_word he hm fun _ hf => ⟨(hp hf).1, (hp hf).2.1, (hp hf).2.2, by rw [hz]; rfl, fun x hx => by cases hx⟩

/-! The bounds of the formats' payloads. -/

theorem v3_lt {a b c : Nat} (ha : a < 64) (hb : b < 64) (hc : c < 64) : pV3 a b c < 2 ^ 18 := by unfold pV3; omega
theorem cmp_lt {a b r q : Nat} (ha : a < 64) (hb : b < 64) (hr : r < 4) (hq : q < 16) : pCmp a b r q < 2 ^ 18 := by unfold pCmp; omega
theorem tile_lt {a b t s m : Nat} (ha : a < 64) (hb : b < 64) (ht : t < 8) (hs : s < 2) (hm : m < 4) : pTile a b t s m < 2 ^ 18 := by
  unfold pTile; omega
theorem vi_lt {m f c : Nat} (hm : m < 256) (hf : f < 16) (hc : c < 64) : pVi m f c < 2 ^ 18 := by unfold pVi; omega
theorem sc_lt {f a d : Nat} (hf : f < 16) (ha : a < 128) (hd : d < 128) : pSc f a d < 2 ^ 18 := by unfold pSc; omega
theorem ld_lt {a p z c : Nat} (ha : a < 64) (hp : p < 32) (hz : z < 8) (hc : c < 16) : pLd a p z c < 2 ^ 18 := by unfold pLd; omega
theorem spad_lt {a b z d m : Nat} (ha : a < 64) (hb : b < 64) (hz : z < 8) (hd : d < 2) (hm : m < 4) : pSpad a b z d m < 2 ^ 18 := by
  unfold pSpad; omega
theorem v3_fA {a b c : Nat} (ha : a < 64) (hb : b < 64) (hc : c < 64) : fA (pV3 a b c) = a := by unfold fA pV3; omega
theorem v3_fB {a b c : Nat} (hb : b < 64) (hc : c < 64) : fB (pV3 a b c) = b := by unfold fB pV3; omega
theorem sc_fn {f a d : Nat} (hf : f < 16) (ha : a < 128) (hd : d < 128) : fScFn (pSc f a d) = f := by unfold fScFn pSc; omega

/-- A word of major 30 whose function takes no words. -/
theorem follow_ctl {a b c : Nat} (ha : a < 64) (hb : b < 64) (hc : c < 64) (hn : a ≠ 25 ∧ a ≠ 3) : follow 30 (pV3 a b c) = 0 := by
  unfold follow
  simp [v3_fA ha hb hc, hn.1, hn.2]
/-- A word of major 21 whose function takes no words. -/
theorem follow_si {f a d : Nat} (hf : f < 16) (ha : a < 128) (hd : d < 128) (hn : f ≠ 8 ∧ f ≠ 9) : follow 21 (pSc f a d) = 0 := by
  unfold follow
  simp [sc_fn hf ha hd, hn.1, hn.2]

theorem Hdr.okMem_bounds {h : Hdr} {n : Nat} (ho : h.okMem = true) (hn : n < 4) : (h.withStl n).stl < 4 ∧ (h.withStl n).gp < 16 := by
  simp only [Hdr.okMem, Bool.and_eq_true] at ho
  exact ⟨hn, (Hdr.ok_bounds ho.1).2⟩


theorem ffma (h : Hdr) (d a b : Nat) : Statement (.ffma h d a b) := of_plain rfl (by decide) rfl fun hf => by
  replace hf : (h.ok && decide (d < 64) && decide (a < 64) && decide (b < 64)) = true := hf
  simp only [Bool.and_eq_true, decide_eq_true_eq] at hf
  exact ⟨(Hdr.ok_bounds hf.1.1.1).1, (Hdr.ok_bounds hf.1.1.1).2, v3_lt (by omega) (by omega) (by omega)⟩
theorem fadd (h : Hdr) (d a b : Nat) : Statement (.fadd h d a b) := of_plain rfl (by decide) rfl fun hf => by
  replace hf : (h.ok && decide (d < 64) && decide (a < 64) && decide (b < 64)) = true := hf
  simp only [Bool.and_eq_true, decide_eq_true_eq] at hf
  exact ⟨(Hdr.ok_bounds hf.1.1.1).1, (Hdr.ok_bounds hf.1.1.1).2, v3_lt (by omega) (by omega) (by omega)⟩
theorem fmul (h : Hdr) (d a b : Nat) : Statement (.fmul h d a b) := of_plain rfl (by decide) rfl fun hf => by
  replace hf : (h.ok && decide (d < 64) && decide (a < 64) && decide (b < 64)) = true := hf
  simp only [Bool.and_eq_true, decide_eq_true_eq] at hf
  exact ⟨(Hdr.ok_bounds hf.1.1.1).1, (Hdr.ok_bounds hf.1.1.1).2, v3_lt (by omega) (by omega) (by omega)⟩
theorem iadd (h : Hdr) (d a b : Nat) : Statement (.iadd h d a b) := of_plain rfl (by decide) rfl fun hf => by
  replace hf : (h.ok && decide (d < 64) && decide (a < 64) && decide (b < 64)) = true := hf
  simp only [Bool.and_eq_true, decide_eq_true_eq] at hf
  exact ⟨(Hdr.ok_bounds hf.1.1.1).1, (Hdr.ok_bounds hf.1.1.1).2, v3_lt (by omega) (by omega) (by omega)⟩
theorem isub (h : Hdr) (d a b : Nat) : Statement (.isub h d a b) := of_plain rfl (by decide) rfl fun hf => by
  replace hf : (h.ok && decide (d < 64) && decide (a < 64) && decide (b < 64)) = true := hf
  simp only [Bool.and_eq_true, decide_eq_true_eq] at hf
  exact ⟨(Hdr.ok_bounds hf.1.1.1).1, (Hdr.ok_bounds hf.1.1.1).2, v3_lt (by omega) (by omega) (by omega)⟩
theorem imad (h : Hdr) (d a b : Nat) : Statement (.imad h d a b) := of_plain rfl (by decide) rfl fun hf => by
  replace hf : (h.ok && decide (d < 64) && decide (a < 64) && decide (b < 64)) = true := hf
  simp only [Bool.and_eq_true, decide_eq_true_eq] at hf
  exact ⟨(Hdr.ok_bounds hf.1.1.1).1, (Hdr.ok_bounds hf.1.1.1).2, v3_lt (by omega) (by omega) (by omega)⟩
theorem and (h : Hdr) (d a b : Nat) : Statement (.and h d a b) := of_plain rfl (by decide) rfl fun hf => by
  replace hf : (h.ok && decide (d < 64) && decide (a < 64) && decide (b < 64)) = true := hf
  simp only [Bool.and_eq_true, decide_eq_true_eq] at hf
  exact ⟨(Hdr.ok_bounds hf.1.1.1).1, (Hdr.ok_bounds hf.1.1.1).2, v3_lt (by omega) (by omega) (by omega)⟩
theorem or (h : Hdr) (d a b : Nat) : Statement (.or h d a b) := of_plain rfl (by decide) rfl fun hf => by
  replace hf : (h.ok && decide (d < 64) && decide (a < 64) && decide (b < 64)) = true := hf
  simp only [Bool.and_eq_true, decide_eq_true_eq] at hf
  exact ⟨(Hdr.ok_bounds hf.1.1.1).1, (Hdr.ok_bounds hf.1.1.1).2, v3_lt (by omega) (by omega) (by omega)⟩
theorem xor (h : Hdr) (d a : Nat) : Statement (.xor h d a) := of_plain rfl (by decide) rfl fun hf => by
  replace hf : (h.ok && decide (d < 64) && decide (a < 64)) = true := hf
  simp only [Bool.and_eq_true, decide_eq_true_eq] at hf
  exact ⟨(Hdr.ok_bounds hf.1.1).1, (Hdr.ok_bounds hf.1.1).2, v3_lt (by omega) (by omega) (by omega)⟩
theorem shl (h : Hdr) (d a : Nat) : Statement (.shl h d a) := of_plain rfl (by decide) rfl fun hf => by
  replace hf : (h.ok && decide (d < 64) && decide (a < 64)) = true := hf
  simp only [Bool.and_eq_true, decide_eq_true_eq] at hf
  exact ⟨(Hdr.ok_bounds hf.1.1).1, (Hdr.ok_bounds hf.1.1).2, v3_lt (by omega) (by omega) (by omega)⟩
theorem shr (h : Hdr) (d a : Nat) : Statement (.shr h d a) := of_plain rfl (by decide) rfl fun hf => by
  replace hf : (h.ok && decide (d < 64) && decide (a < 64)) = true := hf
  simp only [Bool.and_eq_true, decide_eq_true_eq] at hf
  exact ⟨(Hdr.ok_bounds hf.1.1).1, (Hdr.ok_bounds hf.1.1).2, v3_lt (by omega) (by omega) (by omega)⟩
theorem sra (h : Hdr) (d a : Nat) : Statement (.sra h d a) := of_plain rfl (by decide) rfl fun hf => by
  replace hf : (h.ok && decide (d < 64) && decide (a < 64)) = true := hf
  simp only [Bool.and_eq_true, decide_eq_true_eq] at hf
  exact ⟨(Hdr.ok_bounds hf.1.1).1, (Hdr.ok_bounds hf.1.1).2, v3_lt (by omega) (by omega) (by omega)⟩
theorem mul (h : Hdr) (d a : Nat) : Statement (.mul h d a) := of_plain rfl (by decide) rfl fun hf => by
  replace hf : (h.ok && decide (d < 64) && decide (a < 64)) = true := hf
  simp only [Bool.and_eq_true, decide_eq_true_eq] at hf
  exact ⟨(Hdr.ok_bounds hf.1.1).1, (Hdr.ok_bounds hf.1.1).2, v3_lt (by omega) (by omega) (by omega)⟩
theorem mulhs (h : Hdr) (d a : Nat) : Statement (.mulhs h d a) := of_plain rfl (by decide) rfl fun hf => by
  replace hf : (h.ok && decide (d < 64) && decide (a < 64)) = true := hf
  simp only [Bool.and_eq_true, decide_eq_true_eq] at hf
  exact ⟨(Hdr.ok_bounds hf.1.1).1, (Hdr.ok_bounds hf.1.1).2, v3_lt (by omega) (by omega) (by omega)⟩
theorem mulhu (h : Hdr) (d a : Nat) : Statement (.mulhu h d a) := of_plain rfl (by decide) rfl fun hf => by
  replace hf : (h.ok && decide (d < 64) && decide (a < 64)) = true := hf
  simp only [Bool.and_eq_true, decide_eq_true_eq] at hf
  exact ⟨(Hdr.ok_bounds hf.1.1).1, (Hdr.ok_bounds hf.1.1).2, v3_lt (by omega) (by omega) (by omega)⟩
theorem mins (h : Hdr) (d a : Nat) : Statement (.mins h d a) := of_plain rfl (by decide) rfl fun hf => by
  replace hf : (h.ok && decide (d < 64) && decide (a < 64)) = true := hf
  simp only [Bool.and_eq_true, decide_eq_true_eq] at hf
  exact ⟨(Hdr.ok_bounds hf.1.1).1, (Hdr.ok_bounds hf.1.1).2, v3_lt (by omega) (by omega) (by omega)⟩
theorem maxs (h : Hdr) (d a : Nat) : Statement (.maxs h d a) := of_plain rfl (by decide) rfl fun hf => by
  replace hf : (h.ok && decide (d < 64) && decide (a < 64)) = true := hf
  simp only [Bool.and_eq_true, decide_eq_true_eq] at hf
  exact ⟨(Hdr.ok_bounds hf.1.1).1, (Hdr.ok_bounds hf.1.1).2, v3_lt (by omega) (by omega) (by omega)⟩
theorem minu (h : Hdr) (d a : Nat) : Statement (.minu h d a) := of_plain rfl (by decide) rfl fun hf => by
  replace hf : (h.ok && decide (d < 64) && decide (a < 64)) = true := hf
  simp only [Bool.and_eq_true, decide_eq_true_eq] at hf
  exact ⟨(Hdr.ok_bounds hf.1.1).1, (Hdr.ok_bounds hf.1.1).2, v3_lt (by omega) (by omega) (by omega)⟩
theorem maxu (h : Hdr) (d a : Nat) : Statement (.maxu h d a) := of_plain rfl (by decide) rfl fun hf => by
  replace hf : (h.ok && decide (d < 64) && decide (a < 64)) = true := hf
  simp only [Bool.and_eq_true, decide_eq_true_eq] at hf
  exact ⟨(Hdr.ok_bounds hf.1.1).1, (Hdr.ok_bounds hf.1.1).2, v3_lt (by omega) (by omega) (by omega)⟩
theorem andn (h : Hdr) (d a : Nat) : Statement (.andn h d a) := of_plain rfl (by decide) rfl fun hf => by
  replace hf : (h.ok && decide (d < 64) && decide (a < 64)) = true := hf
  simp only [Bool.and_eq_true, decide_eq_true_eq] at hf
  exact ⟨(Hdr.ok_bounds hf.1.1).1, (Hdr.ok_bounds hf.1.1).2, v3_lt (by omega) (by omega) (by omega)⟩
theorem not (h : Hdr) (d a : Nat) : Statement (.not h d a) := of_plain rfl (by decide) rfl fun hf => by
  replace hf : (h.ok && decide (d < 64) && decide (a < 64)) = true := hf
  simp only [Bool.and_eq_true, decide_eq_true_eq] at hf
  exact ⟨(Hdr.ok_bounds hf.1.1).1, (Hdr.ok_bounds hf.1.1).2, v3_lt (by omega) (by omega) (by omega)⟩
theorem neg (h : Hdr) (d a : Nat) : Statement (.neg h d a) := of_plain rfl (by decide) rfl fun hf => by
  replace hf : (h.ok && decide (d < 64) && decide (a < 64)) = true := hf
  simp only [Bool.and_eq_true, decide_eq_true_eq] at hf
  exact ⟨(Hdr.ok_bounds hf.1.1).1, (Hdr.ok_bounds hf.1.1).2, v3_lt (by omega) (by omega) (by omega)⟩
theorem abs (h : Hdr) (d a : Nat) : Statement (.abs h d a) := of_plain rfl (by decide) rfl fun hf => by
  replace hf : (h.ok && decide (d < 64) && decide (a < 64)) = true := hf
  simp only [Bool.and_eq_true, decide_eq_true_eq] at hf
  exact ⟨(Hdr.ok_bounds hf.1.1).1, (Hdr.ok_bounds hf.1.1).2, v3_lt (by omega) (by omega) (by omega)⟩
theorem clz (h : Hdr) (d a : Nat) : Statement (.clz h d a) := of_plain rfl (by decide) rfl fun hf => by
  replace hf : (h.ok && decide (d < 64) && decide (a < 64)) = true := hf
  simp only [Bool.and_eq_true, decide_eq_true_eq] at hf
  exact ⟨(Hdr.ok_bounds hf.1.1).1, (Hdr.ok_bounds hf.1.1).2, v3_lt (by omega) (by omega) (by omega)⟩
theorem popc (h : Hdr) (d a : Nat) : Statement (.popc h d a) := of_plain rfl (by decide) rfl fun hf => by
  replace hf : (h.ok && decide (d < 64) && decide (a < 64)) = true := hf
  simp only [Bool.and_eq_true, decide_eq_true_eq] at hf
  exact ⟨(Hdr.ok_bounds hf.1.1).1, (Hdr.ok_bounds hf.1.1).2, v3_lt (by omega) (by omega) (by omega)⟩
theorem brev (h : Hdr) (d a : Nat) : Statement (.brev h d a) := of_plain rfl (by decide) rfl fun hf => by
  replace hf : (h.ok && decide (d < 64) && decide (a < 64)) = true := hf
  simp only [Bool.and_eq_true, decide_eq_true_eq] at hf
  exact ⟨(Hdr.ok_bounds hf.1.1).1, (Hdr.ok_bounds hf.1.1).2, v3_lt (by omega) (by omega) (by omega)⟩
theorem mov (h : Hdr) (d a : Nat) : Statement (.mov h d a) := of_plain rfl (by decide) rfl fun hf => by
  replace hf : (h.ok && decide (d < 64) && decide (a < 64)) = true := hf
  simp only [Bool.and_eq_true, decide_eq_true_eq] at hf
  exact ⟨(Hdr.ok_bounds hf.1.1).1, (Hdr.ok_bounds hf.1.1).2, v3_lt (by omega) (by omega) (by omega)⟩
theorem bcast (h : Hdr) (d s : Nat) : Statement (.bcast h d s) := of_plain rfl (by decide) rfl fun hf => by
  replace hf : (h.ok && decide (d < 64) && decide (s < 64)) = true := hf
  simp only [Bool.and_eq_true, decide_eq_true_eq] at hf
  exact ⟨(Hdr.ok_bounds hf.1.1).1, (Hdr.ok_bounds hf.1.1).2, v3_lt (by omega) (by omega) (by omega)⟩
theorem lane (h : Hdr) (d : Nat) : Statement (.lane h d) := of_plain rfl (by decide) rfl fun hf => by
  replace hf : (h.ok && decide (d < 64)) = true := hf
  simp only [Bool.and_eq_true, decide_eq_true_eq] at hf
  exact ⟨(Hdr.ok_bounds hf.1).1, (Hdr.ok_bounds hf.1).2, v3_lt (by omega) (by omega) (by omega)⟩
theorem psetv (h : Hdr) (q a : Nat) : Statement (.psetv h q a) := of_plain rfl (by decide) rfl fun hf => by
  replace hf : (h.ok && decide (q < 16) && decide (a < 64)) = true := hf
  simp only [Bool.and_eq_true, decide_eq_true_eq] at hf
  exact ⟨(Hdr.ok_bounds hf.1.1).1, (Hdr.ok_bounds hf.1.1).2, v3_lt (by omega) (by omega) (by omega)⟩
theorem pgetv (h : Hdr) (d b : Nat) : Statement (.pgetv h d b) := of_plain rfl (by decide) rfl fun hf => by
  replace hf : (h.ok && decide (d < 64) && decide (b < 16)) = true := hf
  simp only [Bool.and_eq_true, decide_eq_true_eq] at hf
  exact ⟨(Hdr.ok_bounds hf.1.1).1, (Hdr.ok_bounds hf.1.1).2, v3_lt (by omega) (by omega) (by omega)⟩
theorem pand (h : Hdr) (q b : Nat) : Statement (.pand h q b) := of_plain rfl (by decide) rfl fun hf => by
  replace hf : (h.ok && decide (q < 16) && decide (b < 16)) = true := hf
  simp only [Bool.and_eq_true, decide_eq_true_eq] at hf
  exact ⟨(Hdr.ok_bounds hf.1.1).1, (Hdr.ok_bounds hf.1.1).2, v3_lt (by omega) (by omega) (by omega)⟩
theorem por (h : Hdr) (q b : Nat) : Statement (.por h q b) := of_plain rfl (by decide) rfl fun hf => by
  replace hf : (h.ok && decide (q < 16) && decide (b < 16)) = true := hf
  simp only [Bool.and_eq_true, decide_eq_true_eq] at hf
  exact ⟨(Hdr.ok_bounds hf.1.1).1, (Hdr.ok_bounds hf.1.1).2, v3_lt (by omega) (by omega) (by omega)⟩
theorem pxor (h : Hdr) (q b : Nat) : Statement (.pxor h q b) := of_plain rfl (by decide) rfl fun hf => by
  replace hf : (h.ok && decide (q < 16) && decide (b < 16)) = true := hf
  simp only [Bool.and_eq_true, decide_eq_true_eq] at hf
  exact ⟨(Hdr.ok_bounds hf.1.1).1, (Hdr.ok_bounds hf.1.1).2, v3_lt (by omega) (by omega) (by omega)⟩
theorem pnot (h : Hdr) (q b : Nat) : Statement (.pnot h q b) := of_plain rfl (by decide) rfl fun hf => by
  replace hf : (h.ok && decide (q < 16) && decide (b < 16)) = true := hf
  simp only [Bool.and_eq_true, decide_eq_true_eq] at hf
  exact ⟨(Hdr.ok_bounds hf.1.1).1, (Hdr.ok_bounds hf.1.1).2, v3_lt (by omega) (by omega) (by omega)⟩
theorem pmov (h : Hdr) (q b : Nat) : Statement (.pmov h q b) := of_plain rfl (by decide) rfl fun hf => by
  replace hf : (h.ok && decide (q < 16) && decide (b < 16)) = true := hf
  simp only [Bool.and_eq_true, decide_eq_true_eq] at hf
  exact ⟨(Hdr.ok_bounds hf.1.1).1, (Hdr.ok_bounds hf.1.1).2, v3_lt (by omega) (by omega) (by omega)⟩
theorem fsub (h : Hdr) (d a : Nat) : Statement (.fsub h d a) := of_plain rfl (by decide) rfl fun hf => by
  replace hf : (h.ok && decide (d < 64) && decide (a < 64)) = true := hf
  simp only [Bool.and_eq_true, decide_eq_true_eq] at hf
  exact ⟨(Hdr.ok_bounds hf.1.1).1, (Hdr.ok_bounds hf.1.1).2, v3_lt (by omega) (by omega) (by omega)⟩
theorem fmin (h : Hdr) (d a : Nat) : Statement (.fmin h d a) := of_plain rfl (by decide) rfl fun hf => by
  replace hf : (h.ok && decide (d < 64) && decide (a < 64)) = true := hf
  simp only [Bool.and_eq_true, decide_eq_true_eq] at hf
  exact ⟨(Hdr.ok_bounds hf.1.1).1, (Hdr.ok_bounds hf.1.1).2, v3_lt (by omega) (by omega) (by omega)⟩
theorem fmax (h : Hdr) (d a : Nat) : Statement (.fmax h d a) := of_plain rfl (by decide) rfl fun hf => by
  replace hf : (h.ok && decide (d < 64) && decide (a < 64)) = true := hf
  simp only [Bool.and_eq_true, decide_eq_true_eq] at hf
  exact ⟨(Hdr.ok_bounds hf.1.1).1, (Hdr.ok_bounds hf.1.1).2, v3_lt (by omega) (by omega) (by omega)⟩
theorem fabs (h : Hdr) (d a : Nat) : Statement (.fabs h d a) := of_plain rfl (by decide) rfl fun hf => by
  replace hf : (h.ok && decide (d < 64) && decide (a < 64)) = true := hf
  simp only [Bool.and_eq_true, decide_eq_true_eq] at hf
  exact ⟨(Hdr.ok_bounds hf.1.1).1, (Hdr.ok_bounds hf.1.1).2, v3_lt (by omega) (by omega) (by omega)⟩
theorem fneg (h : Hdr) (d a : Nat) : Statement (.fneg h d a) := of_plain rfl (by decide) rfl fun hf => by
  replace hf : (h.ok && decide (d < 64) && decide (a < 64)) = true := hf
  simp only [Bool.and_eq_true, decide_eq_true_eq] at hf
  exact ⟨(Hdr.ok_bounds hf.1.1).1, (Hdr.ok_bounds hf.1.1).2, v3_lt (by omega) (by omega) (by omega)⟩
theorem rndn (h : Hdr) (d a : Nat) : Statement (.rndn h d a) := of_plain rfl (by decide) rfl fun hf => by
  replace hf : (h.ok && decide (d < 64) && decide (a < 64)) = true := hf
  simp only [Bool.and_eq_true, decide_eq_true_eq] at hf
  exact ⟨(Hdr.ok_bounds hf.1.1).1, (Hdr.ok_bounds hf.1.1).2, v3_lt (by omega) (by omega) (by omega)⟩
theorem rndz (h : Hdr) (d a : Nat) : Statement (.rndz h d a) := of_plain rfl (by decide) rfl fun hf => by
  replace hf : (h.ok && decide (d < 64) && decide (a < 64)) = true := hf
  simp only [Bool.and_eq_true, decide_eq_true_eq] at hf
  exact ⟨(Hdr.ok_bounds hf.1.1).1, (Hdr.ok_bounds hf.1.1).2, v3_lt (by omega) (by omega) (by omega)⟩
theorem rndd (h : Hdr) (d a : Nat) : Statement (.rndd h d a) := of_plain rfl (by decide) rfl fun hf => by
  replace hf : (h.ok && decide (d < 64) && decide (a < 64)) = true := hf
  simp only [Bool.and_eq_true, decide_eq_true_eq] at hf
  exact ⟨(Hdr.ok_bounds hf.1.1).1, (Hdr.ok_bounds hf.1.1).2, v3_lt (by omega) (by omega) (by omega)⟩
theorem rndu (h : Hdr) (d a : Nat) : Statement (.rndu h d a) := of_plain rfl (by decide) rfl fun hf => by
  replace hf : (h.ok && decide (d < 64) && decide (a < 64)) = true := hf
  simp only [Bool.and_eq_true, decide_eq_true_eq] at hf
  exact ⟨(Hdr.ok_bounds hf.1.1).1, (Hdr.ok_bounds hf.1.1).2, v3_lt (by omega) (by omega) (by omega)⟩
theorem rcp (h : Hdr) (d a : Nat) : Statement (.rcp h d a) := of_plain rfl (by decide) rfl fun hf => by
  replace hf : (h.ok && decide (d < 64) && decide (a < 64)) = true := hf
  simp only [Bool.and_eq_true, decide_eq_true_eq] at hf
  exact ⟨(Hdr.ok_bounds hf.1.1).1, (Hdr.ok_bounds hf.1.1).2, v3_lt (by omega) (by omega) (by omega)⟩
theorem rsq (h : Hdr) (d a : Nat) : Statement (.rsq h d a) := of_plain rfl (by decide) rfl fun hf => by
  replace hf : (h.ok && decide (d < 64) && decide (a < 64)) = true := hf
  simp only [Bool.and_eq_true, decide_eq_true_eq] at hf
  exact ⟨(Hdr.ok_bounds hf.1.1).1, (Hdr.ok_bounds hf.1.1).2, v3_lt (by omega) (by omega) (by omega)⟩
theorem sqrt (h : Hdr) (d a : Nat) : Statement (.sqrt h d a) := of_plain rfl (by decide) rfl fun hf => by
  replace hf : (h.ok && decide (d < 64) && decide (a < 64)) = true := hf
  simp only [Bool.and_eq_true, decide_eq_true_eq] at hf
  exact ⟨(Hdr.ok_bounds hf.1.1).1, (Hdr.ok_bounds hf.1.1).2, v3_lt (by omega) (by omega) (by omega)⟩
theorem exp2 (h : Hdr) (d a : Nat) : Statement (.exp2 h d a) := of_plain rfl (by decide) rfl fun hf => by
  replace hf : (h.ok && decide (d < 64) && decide (a < 64)) = true := hf
  simp only [Bool.and_eq_true, decide_eq_true_eq] at hf
  exact ⟨(Hdr.ok_bounds hf.1.1).1, (Hdr.ok_bounds hf.1.1).2, v3_lt (by omega) (by omega) (by omega)⟩
theorem log2 (h : Hdr) (d a : Nat) : Statement (.log2 h d a) := of_plain rfl (by decide) rfl fun hf => by
  replace hf : (h.ok && decide (d < 64) && decide (a < 64)) = true := hf
  simp only [Bool.and_eq_true, decide_eq_true_eq] at hf
  exact ⟨(Hdr.ok_bounds hf.1.1).1, (Hdr.ok_bounds hf.1.1).2, v3_lt (by omega) (by omega) (by omega)⟩
theorem sinpi (h : Hdr) (d a : Nat) : Statement (.sinpi h d a) := of_plain rfl (by decide) rfl fun hf => by
  replace hf : (h.ok && decide (d < 64) && decide (a < 64)) = true := hf
  simp only [Bool.and_eq_true, decide_eq_true_eq] at hf
  exact ⟨(Hdr.ok_bounds hf.1.1).1, (Hdr.ok_bounds hf.1.1).2, v3_lt (by omega) (by omega) (by omega)⟩
theorem cospi (h : Hdr) (d a : Nat) : Statement (.cospi h d a) := of_plain rfl (by decide) rfl fun hf => by
  replace hf : (h.ok && decide (d < 64) && decide (a < 64)) = true := hf
  simp only [Bool.and_eq_true, decide_eq_true_eq] at hf
  exact ⟨(Hdr.ok_bounds hf.1.1).1, (Hdr.ok_bounds hf.1.1).2, v3_lt (by omega) (by omega) (by omega)⟩
theorem tanh (h : Hdr) (d a : Nat) : Statement (.tanh h d a) := of_plain rfl (by decide) rfl fun hf => by
  replace hf : (h.ok && decide (d < 64) && decide (a < 64)) = true := hf
  simp only [Bool.and_eq_true, decide_eq_true_eq] at hf
  exact ⟨(Hdr.ok_bounds hf.1.1).1, (Hdr.ok_bounds hf.1.1).2, v3_lt (by omega) (by omega) (by omega)⟩
theorem sigm (h : Hdr) (d a : Nat) : Statement (.sigm h d a) := of_plain rfl (by decide) rfl fun hf => by
  replace hf : (h.ok && decide (d < 64) && decide (a < 64)) = true := hf
  simp only [Bool.and_eq_true, decide_eq_true_eq] at hf
  exact ⟨(Hdr.ok_bounds hf.1.1).1, (Hdr.ok_bounds hf.1.1).2, v3_lt (by omega) (by omega) (by omega)⟩
theorem fclass (h : Hdr) (d a : Nat) : Statement (.fclass h d a) := of_plain rfl (by decide) rfl fun hf => by
  replace hf : (h.ok && decide (d < 64) && decide (a < 64)) = true := hf
  simp only [Bool.and_eq_true, decide_eq_true_eq] at hf
  exact ⟨(Hdr.ok_bounds hf.1.1).1, (Hdr.ok_bounds hf.1.1).2, v3_lt (by omega) (by omega) (by omega)⟩
theorem hadd2 (h : Hdr) (d a : Nat) : Statement (.hadd2 h d a) := of_plain rfl (by decide) rfl fun hf => by
  replace hf : (h.ok && decide (d < 64) && decide (a < 64)) = true := hf
  simp only [Bool.and_eq_true, decide_eq_true_eq] at hf
  exact ⟨(Hdr.ok_bounds hf.1.1).1, (Hdr.ok_bounds hf.1.1).2, v3_lt (by omega) (by omega) (by omega)⟩
theorem hmul2 (h : Hdr) (d a : Nat) : Statement (.hmul2 h d a) := of_plain rfl (by decide) rfl fun hf => by
  replace hf : (h.ok && decide (d < 64) && decide (a < 64)) = true := hf
  simp only [Bool.and_eq_true, decide_eq_true_eq] at hf
  exact ⟨(Hdr.ok_bounds hf.1.1).1, (Hdr.ok_bounds hf.1.1).2, v3_lt (by omega) (by omega) (by omega)⟩
theorem hmax2 (h : Hdr) (d a : Nat) : Statement (.hmax2 h d a) := of_plain rfl (by decide) rfl fun hf => by
  replace hf : (h.ok && decide (d < 64) && decide (a < 64)) = true := hf
  simp only [Bool.and_eq_true, decide_eq_true_eq] at hf
  exact ⟨(Hdr.ok_bounds hf.1.1).1, (Hdr.ok_bounds hf.1.1).2, v3_lt (by omega) (by omega) (by omega)⟩
theorem cvtF32I32 (h : Hdr) (d a r : Nat) : Statement (.cvtF32I32 h d a r) := of_plain rfl (by decide) rfl fun hf => by
  replace hf : (h.ok && decide (d < 64) && decide (a < 64) && decide (r < 4)) = true := hf
  simp only [Bool.and_eq_true, decide_eq_true_eq] at hf
  exact ⟨(Hdr.ok_bounds hf.1.1.1).1, (Hdr.ok_bounds hf.1.1.1).2, v3_lt (by omega) (by omega) (by omega)⟩
theorem cvtF32Ui32 (h : Hdr) (d a r : Nat) : Statement (.cvtF32Ui32 h d a r) := of_plain rfl (by decide) rfl fun hf => by
  replace hf : (h.ok && decide (d < 64) && decide (a < 64) && decide (r < 4)) = true := hf
  simp only [Bool.and_eq_true, decide_eq_true_eq] at hf
  exact ⟨(Hdr.ok_bounds hf.1.1.1).1, (Hdr.ok_bounds hf.1.1.1).2, v3_lt (by omega) (by omega) (by omega)⟩
theorem cvtI32F32 (h : Hdr) (d a r : Nat) : Statement (.cvtI32F32 h d a r) := of_plain rfl (by decide) rfl fun hf => by
  replace hf : (h.ok && decide (d < 64) && decide (a < 64) && decide (r < 4)) = true := hf
  simp only [Bool.and_eq_true, decide_eq_true_eq] at hf
  exact ⟨(Hdr.ok_bounds hf.1.1.1).1, (Hdr.ok_bounds hf.1.1.1).2, v3_lt (by omega) (by omega) (by omega)⟩
theorem cvtUi32F32 (h : Hdr) (d a r : Nat) : Statement (.cvtUi32F32 h d a r) := of_plain rfl (by decide) rfl fun hf => by
  replace hf : (h.ok && decide (d < 64) && decide (a < 64) && decide (r < 4)) = true := hf
  simp only [Bool.and_eq_true, decide_eq_true_eq] at hf
  exact ⟨(Hdr.ok_bounds hf.1.1.1).1, (Hdr.ok_bounds hf.1.1.1).2, v3_lt (by omega) (by omega) (by omega)⟩
theorem cvtBf16F32 (h : Hdr) (d a r : Nat) : Statement (.cvtBf16F32 h d a r) := of_plain rfl (by decide) rfl fun hf => by
  replace hf : (h.ok && decide (d < 64) && decide (a < 64) && decide (r < 4)) = true := hf
  simp only [Bool.and_eq_true, decide_eq_true_eq] at hf
  exact ⟨(Hdr.ok_bounds hf.1.1.1).1, (Hdr.ok_bounds hf.1.1.1).2, v3_lt (by omega) (by omega) (by omega)⟩
theorem cvtFp16F32 (h : Hdr) (d a r : Nat) : Statement (.cvtFp16F32 h d a r) := of_plain rfl (by decide) rfl fun hf => by
  replace hf : (h.ok && decide (d < 64) && decide (a < 64) && decide (r < 4)) = true := hf
  simp only [Bool.and_eq_true, decide_eq_true_eq] at hf
  exact ⟨(Hdr.ok_bounds hf.1.1.1).1, (Hdr.ok_bounds hf.1.1.1).2, v3_lt (by omega) (by omega) (by omega)⟩
theorem cvtF32Bf16 (h : Hdr) (d a : Nat) : Statement (.cvtF32Bf16 h d a) := of_plain rfl (by decide) rfl fun hf => by
  replace hf : (h.ok && decide (d < 64) && decide (a < 64)) = true := hf
  simp only [Bool.and_eq_true, decide_eq_true_eq] at hf
  exact ⟨(Hdr.ok_bounds hf.1.1).1, (Hdr.ok_bounds hf.1.1).2, v3_lt (by omega) (by omega) (by omega)⟩
theorem cvtF32Fp16 (h : Hdr) (d a : Nat) : Statement (.cvtF32Fp16 h d a) := of_plain rfl (by decide) rfl fun hf => by
  replace hf : (h.ok && decide (d < 64) && decide (a < 64)) = true := hf
  simp only [Bool.and_eq_true, decide_eq_true_eq] at hf
  exact ⟨(Hdr.ok_bounds hf.1.1).1, (Hdr.ok_bounds hf.1.1).2, v3_lt (by omega) (by omega) (by omega)⟩
theorem cvtE4m3F32 (h : Hdr) (d a r : Nat) : Statement (.cvtE4m3F32 h d a r) := of_plain rfl (by decide) rfl fun hf => by
  replace hf : (h.ok && decide (d < 64) && decide (a < 64) && decide (r < 4)) = true := hf
  simp only [Bool.and_eq_true, decide_eq_true_eq] at hf
  exact ⟨(Hdr.ok_bounds hf.1.1.1).1, (Hdr.ok_bounds hf.1.1.1).2, v3_lt (by omega) (by omega) (by omega)⟩
theorem cvtE5m2F32 (h : Hdr) (d a r : Nat) : Statement (.cvtE5m2F32 h d a r) := of_plain rfl (by decide) rfl fun hf => by
  replace hf : (h.ok && decide (d < 64) && decide (a < 64) && decide (r < 4)) = true := hf
  simp only [Bool.and_eq_true, decide_eq_true_eq] at hf
  exact ⟨(Hdr.ok_bounds hf.1.1.1).1, (Hdr.ok_bounds hf.1.1.1).2, v3_lt (by omega) (by omega) (by omega)⟩
theorem cvtE2m1F32 (h : Hdr) (d a r : Nat) : Statement (.cvtE2m1F32 h d a r) := of_plain rfl (by decide) rfl fun hf => by
  replace hf : (h.ok && decide (d < 64) && decide (a < 64) && decide (r < 4)) = true := hf
  simp only [Bool.and_eq_true, decide_eq_true_eq] at hf
  exact ⟨(Hdr.ok_bounds hf.1.1.1).1, (Hdr.ok_bounds hf.1.1.1).2, v3_lt (by omega) (by omega) (by omega)⟩
theorem cvtF32E4m3 (h : Hdr) (d a : Nat) : Statement (.cvtF32E4m3 h d a) := of_plain rfl (by decide) rfl fun hf => by
  replace hf : (h.ok && decide (d < 64) && decide (a < 64)) = true := hf
  simp only [Bool.and_eq_true, decide_eq_true_eq] at hf
  exact ⟨(Hdr.ok_bounds hf.1.1).1, (Hdr.ok_bounds hf.1.1).2, v3_lt (by omega) (by omega) (by omega)⟩
theorem cvtF32E5m2 (h : Hdr) (d a : Nat) : Statement (.cvtF32E5m2 h d a) := of_plain rfl (by decide) rfl fun hf => by
  replace hf : (h.ok && decide (d < 64) && decide (a < 64)) = true := hf
  simp only [Bool.and_eq_true, decide_eq_true_eq] at hf
  exact ⟨(Hdr.ok_bounds hf.1.1).1, (Hdr.ok_bounds hf.1.1).2, v3_lt (by omega) (by omega) (by omega)⟩
theorem cvtF32E2m1 (h : Hdr) (d a : Nat) : Statement (.cvtF32E2m1 h d a) := of_plain rfl (by decide) rfl fun hf => by
  replace hf : (h.ok && decide (d < 64) && decide (a < 64)) = true := hf
  simp only [Bool.and_eq_true, decide_eq_true_eq] at hf
  exact ⟨(Hdr.ok_bounds hf.1.1).1, (Hdr.ok_bounds hf.1.1).2, v3_lt (by omega) (by omega) (by omega)⟩
theorem cvtInt8I32 (h : Hdr) (d a r : Nat) : Statement (.cvtInt8I32 h d a r) := of_plain rfl (by decide) rfl fun hf => by
  replace hf : (h.ok && decide (d < 64) && decide (a < 64) && decide (r < 4)) = true := hf
  simp only [Bool.and_eq_true, decide_eq_true_eq] at hf
  exact ⟨(Hdr.ok_bounds hf.1.1.1).1, (Hdr.ok_bounds hf.1.1.1).2, v3_lt (by omega) (by omega) (by omega)⟩
theorem cvtF32Int8 (h : Hdr) (d a : Nat) : Statement (.cvtF32Int8 h d a) := of_plain rfl (by decide) rfl fun hf => by
  replace hf : (h.ok && decide (d < 64) && decide (a < 64)) = true := hf
  simp only [Bool.and_eq_true, decide_eq_true_eq] at hf
  exact ⟨(Hdr.ok_bounds hf.1.1).1, (Hdr.ok_bounds hf.1.1).2, v3_lt (by omega) (by omega) (by omega)⟩
theorem voteany (h : Hdr) (s q : Nat) : Statement (.voteany h s q) := of_plain rfl (by decide) rfl fun hf => by
  replace hf : (h.ok && decide (s < 64) && decide (q < 16)) = true := hf
  simp only [Bool.and_eq_true, decide_eq_true_eq] at hf
  exact ⟨(Hdr.ok_bounds hf.1.1).1, (Hdr.ok_bounds hf.1.1).2, v3_lt (by omega) (by omega) (by omega)⟩
theorem voteall (h : Hdr) (s q : Nat) : Statement (.voteall h s q) := of_plain rfl (by decide) rfl fun hf => by
  replace hf : (h.ok && decide (s < 64) && decide (q < 16)) = true := hf
  simp only [Bool.and_eq_true, decide_eq_true_eq] at hf
  exact ⟨(Hdr.ok_bounds hf.1.1).1, (Hdr.ok_bounds hf.1.1).2, v3_lt (by omega) (by omega) (by omega)⟩
theorem ballot (h : Hdr) (s q : Nat) : Statement (.ballot h s q) := of_plain rfl (by decide) rfl fun hf => by
  replace hf : (h.ok && decide (s < 64) && decide (q < 16)) = true := hf
  simp only [Bool.and_eq_true, decide_eq_true_eq] at hf
  exact ⟨(Hdr.ok_bounds hf.1.1).1, (Hdr.ok_bounds hf.1.1).2, v3_lt (by omega) (by omega) (by omega)⟩
theorem redadd (h : Hdr) (s a : Nat) : Statement (.redadd h s a) := of_plain rfl (by decide) rfl fun hf => by
  replace hf : (h.ok && decide (s < 64) && decide (a < 64)) = true := hf
  simp only [Bool.and_eq_true, decide_eq_true_eq] at hf
  exact ⟨(Hdr.ok_bounds hf.1.1).1, (Hdr.ok_bounds hf.1.1).2, v3_lt (by omega) (by omega) (by omega)⟩
theorem redfadd (h : Hdr) (s a : Nat) : Statement (.redfadd h s a) := of_plain rfl (by decide) rfl fun hf => by
  replace hf : (h.ok && decide (s < 64) && decide (a < 64)) = true := hf
  simp only [Bool.and_eq_true, decide_eq_true_eq] at hf
  exact ⟨(Hdr.ok_bounds hf.1.1).1, (Hdr.ok_bounds hf.1.1).2, v3_lt (by omega) (by omega) (by omega)⟩
theorem redfmax (h : Hdr) (s a : Nat) : Statement (.redfmax h s a) := of_plain rfl (by decide) rfl fun hf => by
  replace hf : (h.ok && decide (s < 64) && decide (a < 64)) = true := hf
  simp only [Bool.and_eq_true, decide_eq_true_eq] at hf
  exact ⟨(Hdr.ok_bounds hf.1.1).1, (Hdr.ok_bounds hf.1.1).2, v3_lt (by omega) (by omega) (by omega)⟩
theorem redmaxs (h : Hdr) (s a : Nat) : Statement (.redmaxs h s a) := of_plain rfl (by decide) rfl fun hf => by
  replace hf : (h.ok && decide (s < 64) && decide (a < 64)) = true := hf
  simp only [Bool.and_eq_true, decide_eq_true_eq] at hf
  exact ⟨(Hdr.ok_bounds hf.1.1).1, (Hdr.ok_bounds hf.1.1).2, v3_lt (by omega) (by omega) (by omega)⟩
theorem scanadd (h : Hdr) (d a : Nat) : Statement (.scanadd h d a) := of_plain rfl (by decide) rfl fun hf => by
  replace hf : (h.ok && decide (d < 64) && decide (a < 64)) = true := hf
  simp only [Bool.and_eq_true, decide_eq_true_eq] at hf
  exact ⟨(Hdr.ok_bounds hf.1.1).1, (Hdr.ok_bounds hf.1.1).2, v3_lt (by omega) (by omega) (by omega)⟩
theorem scanfadd (h : Hdr) (d a : Nat) : Statement (.scanfadd h d a) := of_plain rfl (by decide) rfl fun hf => by
  replace hf : (h.ok && decide (d < 64) && decide (a < 64)) = true := hf
  simp only [Bool.and_eq_true, decide_eq_true_eq] at hf
  exact ⟨(Hdr.ok_bounds hf.1.1).1, (Hdr.ok_bounds hf.1.1).2, v3_lt (by omega) (by omega) (by omega)⟩
theorem amax (h : Hdr) (s a : Nat) : Statement (.amax h s a) := of_plain rfl (by decide) rfl fun hf => by
  replace hf : (h.ok && decide (s < 64) && decide (a < 64)) = true := hf
  simp only [Bool.and_eq_true, decide_eq_true_eq] at hf
  exact ⟨(Hdr.ok_bounds hf.1.1).1, (Hdr.ok_bounds hf.1.1).2, v3_lt (by omega) (by omega) (by omega)⟩
theorem matchEq (h : Hdr) (d a : Nat) : Statement (.matchEq h d a) := of_plain rfl (by decide) rfl fun hf => by
  replace hf : (h.ok && decide (d < 64) && decide (a < 64)) = true := hf
  simp only [Bool.and_eq_true, decide_eq_true_eq] at hf
  exact ⟨(Hdr.ok_bounds hf.1.1).1, (Hdr.ok_bounds hf.1.1).2, v3_lt (by omega) (by omega) (by omega)⟩
theorem elect (h : Hdr) (s : Nat) : Statement (.elect h s) := of_plain rfl (by decide) rfl fun hf => by
  replace hf : (h.ok && decide (s < 64)) = true := hf
  simp only [Bool.and_eq_true, decide_eq_true_eq] at hf
  exact ⟨(Hdr.ok_bounds hf.1).1, (Hdr.ok_bounds hf.1).2, v3_lt (by omega) (by omega) (by omega)⟩
theorem rdlane (h : Hdr) (s a : Nat) : Statement (.rdlane h s a) := of_plain rfl (by decide) rfl fun hf => by
  replace hf : (h.ok && decide (s < 64) && decide (a < 64)) = true := hf
  simp only [Bool.and_eq_true, decide_eq_true_eq] at hf
  exact ⟨(Hdr.ok_bounds hf.1.1).1, (Hdr.ok_bounds hf.1.1).2, v3_lt (by omega) (by omega) (by omega)⟩
theorem shfl (h : Hdr) (d a : Nat) : Statement (.shfl h d a) := of_plain rfl (by decide) rfl fun hf => by
  replace hf : (h.ok && decide (d < 64) && decide (a < 64)) = true := hf
  simp only [Bool.and_eq_true, decide_eq_true_eq] at hf
  exact ⟨(Hdr.ok_bounds hf.1.1).1, (Hdr.ok_bounds hf.1.1).2, v3_lt (by omega) (by omega) (by omega)⟩
theorem setmm (h : Hdr) (s : Nat) : Statement (.setmm h s) := of_plain rfl (by decide) rfl fun hf => by
  replace hf : (h.ok && decide (s < 64)) = true := hf
  simp only [Bool.and_eq_true, decide_eq_true_eq] at hf
  exact ⟨(Hdr.ok_bounds hf.1).1, (Hdr.ok_bounds hf.1).2, v3_lt (by omega) (by omega) (by omega)⟩
theorem getmm (h : Hdr) (s : Nat) : Statement (.getmm h s) := of_plain rfl (by decide) rfl fun hf => by
  replace hf : (h.ok && decide (s < 64)) = true := hf
  simp only [Bool.and_eq_true, decide_eq_true_eq] at hf
  exact ⟨(Hdr.ok_bounds hf.1).1, (Hdr.ok_bounds hf.1).2, v3_lt (by omega) (by omega) (by omega)⟩
theorem cmpI32 (h : Hdr) (q r a b : Nat) : Statement (.cmpI32 h q r a b) := of_plain rfl (by decide) rfl fun hf => by
  replace hf : (h.ok && decide (q < 16) && decide (r < 4) && decide (a < 64) && decide (b < 64)) = true := hf
  simp only [Bool.and_eq_true, decide_eq_true_eq] at hf
  exact ⟨(Hdr.ok_bounds hf.1.1.1.1).1, (Hdr.ok_bounds hf.1.1.1.1).2, cmp_lt (by omega) (by omega) (by omega) (by omega)⟩
theorem cmpUi32 (h : Hdr) (q r a b : Nat) : Statement (.cmpUi32 h q r a b) := of_plain rfl (by decide) rfl fun hf => by
  replace hf : (h.ok && decide (q < 16) && decide (r < 4) && decide (a < 64) && decide (b < 64)) = true := hf
  simp only [Bool.and_eq_true, decide_eq_true_eq] at hf
  exact ⟨(Hdr.ok_bounds hf.1.1.1.1).1, (Hdr.ok_bounds hf.1.1.1.1).2, cmp_lt (by omega) (by omega) (by omega) (by omega)⟩
theorem cmpF32 (h : Hdr) (q r a b : Nat) : Statement (.cmpF32 h q r a b) := of_plain rfl (by decide) rfl fun hf => by
  replace hf : (h.ok && decide (q < 16) && decide (r < 4) && decide (a < 64) && decide (b < 64)) = true := hf
  simp only [Bool.and_eq_true, decide_eq_true_eq] at hf
  exact ⟨(Hdr.ok_bounds hf.1.1.1.1).1, (Hdr.ok_bounds hf.1.1.1.1).2, cmp_lt (by omega) (by omega) (by omega) (by omega)⟩
theorem mxRd (h : Hdr) (m s t i v : Nat) : Statement (.mxRd h m s t i v) := of_plain rfl (by decide) rfl fun hf => by
  replace hf : (h.ok && decide (m < 4) && decide (s < 2) && decide (t < 8) && decide (i < 64) && decide (v < 64)) = true := hf
  simp only [Bool.and_eq_true, decide_eq_true_eq] at hf
  exact ⟨(Hdr.ok_bounds hf.1.1.1.1.1).1, (Hdr.ok_bounds hf.1.1.1.1.1).2, tile_lt (by omega) (by omega) (by omega) (by omega) (by omega)⟩
theorem mxWr (h : Hdr) (m s t i v : Nat) : Statement (.mxWr h m s t i v) := of_plain rfl (by decide) rfl fun hf => by
  replace hf : (h.ok && decide (m < 4) && decide (s < 2) && decide (t < 8) && decide (i < 64) && decide (v < 64)) = true := hf
  simp only [Bool.and_eq_true, decide_eq_true_eq] at hf
  exact ⟨(Hdr.ok_bounds hf.1.1.1.1.1).1, (Hdr.ok_bounds hf.1.1.1.1.1).2, tile_lt (by omega) (by omega) (by omega) (by omega) (by omega)⟩
theorem movi (h : Hdr) (d m : Nat) : Statement (.movi h d m) := of_plain rfl (by decide) rfl fun hf => by
  replace hf : (h.ok && decide (d < 64) && decide (m < 256)) = true := hf
  simp only [Bool.and_eq_true, decide_eq_true_eq] at hf
  exact ⟨(Hdr.ok_bounds hf.1.1).1, (Hdr.ok_bounds hf.1.1).2, vi_lt (by omega) (by omega) (by omega)⟩
theorem addi (h : Hdr) (d m : Nat) : Statement (.addi h d m) := of_plain rfl (by decide) rfl fun hf => by
  replace hf : (h.ok && decide (d < 64) && decide (m < 256)) = true := hf
  simp only [Bool.and_eq_true, decide_eq_true_eq] at hf
  exact ⟨(Hdr.ok_bounds hf.1.1).1, (Hdr.ok_bounds hf.1.1).2, vi_lt (by omega) (by omega) (by omega)⟩
theorem andi (h : Hdr) (d m : Nat) : Statement (.andi h d m) := of_plain rfl (by decide) rfl fun hf => by
  replace hf : (h.ok && decide (d < 64) && decide (m < 256)) = true := hf
  simp only [Bool.and_eq_true, decide_eq_true_eq] at hf
  exact ⟨(Hdr.ok_bounds hf.1.1).1, (Hdr.ok_bounds hf.1.1).2, vi_lt (by omega) (by omega) (by omega)⟩
theorem ori (h : Hdr) (d m : Nat) : Statement (.ori h d m) := of_plain rfl (by decide) rfl fun hf => by
  replace hf : (h.ok && decide (d < 64) && decide (m < 256)) = true := hf
  simp only [Bool.and_eq_true, decide_eq_true_eq] at hf
  exact ⟨(Hdr.ok_bounds hf.1.1).1, (Hdr.ok_bounds hf.1.1).2, vi_lt (by omega) (by omega) (by omega)⟩
theorem xori (h : Hdr) (d m : Nat) : Statement (.xori h d m) := of_plain rfl (by decide) rfl fun hf => by
  replace hf : (h.ok && decide (d < 64) && decide (m < 256)) = true := hf
  simp only [Bool.and_eq_true, decide_eq_true_eq] at hf
  exact ⟨(Hdr.ok_bounds hf.1.1).1, (Hdr.ok_bounds hf.1.1).2, vi_lt (by omega) (by omega) (by omega)⟩
theorem shli (h : Hdr) (d m : Nat) : Statement (.shli h d m) := of_plain rfl (by decide) rfl fun hf => by
  replace hf : (h.ok && decide (d < 64) && decide (m < 256)) = true := hf
  simp only [Bool.and_eq_true, decide_eq_true_eq] at hf
  exact ⟨(Hdr.ok_bounds hf.1.1).1, (Hdr.ok_bounds hf.1.1).2, vi_lt (by omega) (by omega) (by omega)⟩
theorem shri (h : Hdr) (d m : Nat) : Statement (.shri h d m) := of_plain rfl (by decide) rfl fun hf => by
  replace hf : (h.ok && decide (d < 64) && decide (m < 256)) = true := hf
  simp only [Bool.and_eq_true, decide_eq_true_eq] at hf
  exact ⟨(Hdr.ok_bounds hf.1.1).1, (Hdr.ok_bounds hf.1.1).2, vi_lt (by omega) (by omega) (by omega)⟩
theorem srai (h : Hdr) (d m : Nat) : Statement (.srai h d m) := of_plain rfl (by decide) rfl fun hf => by
  replace hf : (h.ok && decide (d < 64) && decide (m < 256)) = true := hf
  simp only [Bool.and_eq_true, decide_eq_true_eq] at hf
  exact ⟨(Hdr.ok_bounds hf.1.1).1, (Hdr.ok_bounds hf.1.1).2, vi_lt (by omega) (by omega) (by omega)⟩
theorem muli (h : Hdr) (d m : Nat) : Statement (.muli h d m) := of_plain rfl (by decide) rfl fun hf => by
  replace hf : (h.ok && decide (d < 64) && decide (m < 256)) = true := hf
  simp only [Bool.and_eq_true, decide_eq_true_eq] at hf
  exact ⟨(Hdr.ok_bounds hf.1.1).1, (Hdr.ok_bounds hf.1.1).2, vi_lt (by omega) (by omega) (by omega)⟩
theorem inshi (h : Hdr) (d m : Nat) : Statement (.inshi h d m) := of_plain rfl (by decide) rfl fun hf => by
  replace hf : (h.ok && decide (d < 64) && decide (m < 256)) = true := hf
  simp only [Bool.and_eq_true, decide_eq_true_eq] at hf
  exact ⟨(Hdr.ok_bounds hf.1.1).1, (Hdr.ok_bounds hf.1.1).2, vi_lt (by omega) (by omega) (by omega)⟩
theorem sMov (h : Hdr) (d a : Nat) : Statement (.sMov h d a) := of_plain rfl (by decide) rfl fun hf => by
  replace hf : (h.ok && decide (d < 128) && decide (a < 128)) = true := hf
  simp only [Bool.and_eq_true, decide_eq_true_eq] at hf
  exact ⟨(Hdr.ok_bounds hf.1.1).1, (Hdr.ok_bounds hf.1.1).2, sc_lt (by omega) (by omega) (by omega)⟩
theorem sAdd (h : Hdr) (d a : Nat) : Statement (.sAdd h d a) := of_plain rfl (by decide) rfl fun hf => by
  replace hf : (h.ok && decide (d < 128) && decide (a < 128)) = true := hf
  simp only [Bool.and_eq_true, decide_eq_true_eq] at hf
  exact ⟨(Hdr.ok_bounds hf.1.1).1, (Hdr.ok_bounds hf.1.1).2, sc_lt (by omega) (by omega) (by omega)⟩
theorem sSub (h : Hdr) (d a : Nat) : Statement (.sSub h d a) := of_plain rfl (by decide) rfl fun hf => by
  replace hf : (h.ok && decide (d < 128) && decide (a < 128)) = true := hf
  simp only [Bool.and_eq_true, decide_eq_true_eq] at hf
  exact ⟨(Hdr.ok_bounds hf.1.1).1, (Hdr.ok_bounds hf.1.1).2, sc_lt (by omega) (by omega) (by omega)⟩
theorem sMul (h : Hdr) (d a : Nat) : Statement (.sMul h d a) := of_plain rfl (by decide) rfl fun hf => by
  replace hf : (h.ok && decide (d < 128) && decide (a < 128)) = true := hf
  simp only [Bool.and_eq_true, decide_eq_true_eq] at hf
  exact ⟨(Hdr.ok_bounds hf.1.1).1, (Hdr.ok_bounds hf.1.1).2, sc_lt (by omega) (by omega) (by omega)⟩
theorem sMulhu (h : Hdr) (d a : Nat) : Statement (.sMulhu h d a) := of_plain rfl (by decide) rfl fun hf => by
  replace hf : (h.ok && decide (d < 128) && decide (a < 128)) = true := hf
  simp only [Bool.and_eq_true, decide_eq_true_eq] at hf
  exact ⟨(Hdr.ok_bounds hf.1.1).1, (Hdr.ok_bounds hf.1.1).2, sc_lt (by omega) (by omega) (by omega)⟩
theorem sAnd (h : Hdr) (d a : Nat) : Statement (.sAnd h d a) := of_plain rfl (by decide) rfl fun hf => by
  replace hf : (h.ok && decide (d < 128) && decide (a < 128)) = true := hf
  simp only [Bool.and_eq_true, decide_eq_true_eq] at hf
  exact ⟨(Hdr.ok_bounds hf.1.1).1, (Hdr.ok_bounds hf.1.1).2, sc_lt (by omega) (by omega) (by omega)⟩
theorem sOr (h : Hdr) (d a : Nat) : Statement (.sOr h d a) := of_plain rfl (by decide) rfl fun hf => by
  replace hf : (h.ok && decide (d < 128) && decide (a < 128)) = true := hf
  simp only [Bool.and_eq_true, decide_eq_true_eq] at hf
  exact ⟨(Hdr.ok_bounds hf.1.1).1, (Hdr.ok_bounds hf.1.1).2, sc_lt (by omega) (by omega) (by omega)⟩
theorem sXor (h : Hdr) (d a : Nat) : Statement (.sXor h d a) := of_plain rfl (by decide) rfl fun hf => by
  replace hf : (h.ok && decide (d < 128) && decide (a < 128)) = true := hf
  simp only [Bool.and_eq_true, decide_eq_true_eq] at hf
  exact ⟨(Hdr.ok_bounds hf.1.1).1, (Hdr.ok_bounds hf.1.1).2, sc_lt (by omega) (by omega) (by omega)⟩
theorem sShl (h : Hdr) (d a : Nat) : Statement (.sShl h d a) := of_plain rfl (by decide) rfl fun hf => by
  replace hf : (h.ok && decide (d < 128) && decide (a < 128)) = true := hf
  simp only [Bool.and_eq_true, decide_eq_true_eq] at hf
  exact ⟨(Hdr.ok_bounds hf.1.1).1, (Hdr.ok_bounds hf.1.1).2, sc_lt (by omega) (by omega) (by omega)⟩
theorem sShr (h : Hdr) (d a : Nat) : Statement (.sShr h d a) := of_plain rfl (by decide) rfl fun hf => by
  replace hf : (h.ok && decide (d < 128) && decide (a < 128)) = true := hf
  simp only [Bool.and_eq_true, decide_eq_true_eq] at hf
  exact ⟨(Hdr.ok_bounds hf.1.1).1, (Hdr.ok_bounds hf.1.1).2, sc_lt (by omega) (by omega) (by omega)⟩
theorem sSra (h : Hdr) (d a : Nat) : Statement (.sSra h d a) := of_plain rfl (by decide) rfl fun hf => by
  replace hf : (h.ok && decide (d < 128) && decide (a < 128)) = true := hf
  simp only [Bool.and_eq_true, decide_eq_true_eq] at hf
  exact ⟨(Hdr.ok_bounds hf.1.1).1, (Hdr.ok_bounds hf.1.1).2, sc_lt (by omega) (by omega) (by omega)⟩
theorem sMin (h : Hdr) (d a : Nat) : Statement (.sMin h d a) := of_plain rfl (by decide) rfl fun hf => by
  replace hf : (h.ok && decide (d < 128) && decide (a < 128)) = true := hf
  simp only [Bool.and_eq_true, decide_eq_true_eq] at hf
  exact ⟨(Hdr.ok_bounds hf.1.1).1, (Hdr.ok_bounds hf.1.1).2, sc_lt (by omega) (by omega) (by omega)⟩
theorem sMax (h : Hdr) (d a : Nat) : Statement (.sMax h d a) := of_plain rfl (by decide) rfl fun hf => by
  replace hf : (h.ok && decide (d < 128) && decide (a < 128)) = true := hf
  simp only [Bool.and_eq_true, decide_eq_true_eq] at hf
  exact ⟨(Hdr.ok_bounds hf.1.1).1, (Hdr.ok_bounds hf.1.1).2, sc_lt (by omega) (by omega) (by omega)⟩
theorem sMinu (h : Hdr) (d a : Nat) : Statement (.sMinu h d a) := of_plain rfl (by decide) rfl fun hf => by
  replace hf : (h.ok && decide (d < 128) && decide (a < 128)) = true := hf
  simp only [Bool.and_eq_true, decide_eq_true_eq] at hf
  exact ⟨(Hdr.ok_bounds hf.1.1).1, (Hdr.ok_bounds hf.1.1).2, sc_lt (by omega) (by omega) (by omega)⟩
theorem sMaxu (h : Hdr) (d a : Nat) : Statement (.sMaxu h d a) := of_plain rfl (by decide) rfl fun hf => by
  replace hf : (h.ok && decide (d < 128) && decide (a < 128)) = true := hf
  simp only [Bool.and_eq_true, decide_eq_true_eq] at hf
  exact ⟨(Hdr.ok_bounds hf.1.1).1, (Hdr.ok_bounds hf.1.1).2, sc_lt (by omega) (by omega) (by omega)⟩
theorem sSlt (h : Hdr) (d a : Nat) : Statement (.sSlt h d a) := of_plain rfl (by decide) rfl fun hf => by
  replace hf : (h.ok && decide (d < 128) && decide (a < 128)) = true := hf
  simp only [Bool.and_eq_true, decide_eq_true_eq] at hf
  exact ⟨(Hdr.ok_bounds hf.1.1).1, (Hdr.ok_bounds hf.1.1).2, sc_lt (by omega) (by omega) (by omega)⟩
theorem sAdd64 (h : Hdr) (d a : Nat) : Statement (.sAdd64 h d a) := of_plain rfl (by decide) rfl fun hf => by
  replace hf : (h.ok && decide (d < 128) && decide (a < 128)) = true := hf
  simp only [Bool.and_eq_true, decide_eq_true_eq] at hf
  exact ⟨(Hdr.ok_bounds hf.1.1).1, (Hdr.ok_bounds hf.1.1).2, sc_lt (by omega) (by omega) (by omega)⟩
theorem sSub64 (h : Hdr) (d a : Nat) : Statement (.sSub64 h d a) := of_plain rfl (by decide) rfl fun hf => by
  replace hf : (h.ok && decide (d < 128) && decide (a < 128)) = true := hf
  simp only [Bool.and_eq_true, decide_eq_true_eq] at hf
  exact ⟨(Hdr.ok_bounds hf.1.1).1, (Hdr.ok_bounds hf.1.1).2, sc_lt (by omega) (by omega) (by omega)⟩
theorem sLea (h : Hdr) (d a : Nat) : Statement (.sLea h d a) := of_plain rfl (by decide) rfl fun hf => by
  replace hf : (h.ok && decide (d < 128) && decide (a < 128)) = true := hf
  simp only [Bool.and_eq_true, decide_eq_true_eq] at hf
  exact ⟨(Hdr.ok_bounds hf.1.1).1, (Hdr.ok_bounds hf.1.1).2, sc_lt (by omega) (by omega) (by omega)⟩
theorem sLeas (h : Hdr) (d a : Nat) : Statement (.sLeas h d a) := of_plain rfl (by decide) rfl fun hf => by
  replace hf : (h.ok && decide (d < 128) && decide (a < 128)) = true := hf
  simp only [Bool.and_eq_true, decide_eq_true_eq] at hf
  exact ⟨(Hdr.ok_bounds hf.1.1).1, (Hdr.ok_bounds hf.1.1).2, sc_lt (by omega) (by omega) (by omega)⟩
theorem sSltu (h : Hdr) (d a : Nat) : Statement (.sSltu h d a) := of_plain rfl (by decide) rfl fun hf => by
  replace hf : (h.ok && decide (d < 128) && decide (a < 128)) = true := hf
  simp only [Bool.and_eq_true, decide_eq_true_eq] at hf
  exact ⟨(Hdr.ok_bounds hf.1.1).1, (Hdr.ok_bounds hf.1.1).2, sc_lt (by omega) (by omega) (by omega)⟩
theorem sSeq (h : Hdr) (d a : Nat) : Statement (.sSeq h d a) := of_plain rfl (by decide) rfl fun hf => by
  replace hf : (h.ok && decide (d < 128) && decide (a < 128)) = true := hf
  simp only [Bool.and_eq_true, decide_eq_true_eq] at hf
  exact ⟨(Hdr.ok_bounds hf.1.1).1, (Hdr.ok_bounds hf.1.1).2, sc_lt (by omega) (by omega) (by omega)⟩
theorem sNot (h : Hdr) (d a : Nat) : Statement (.sNot h d a) := of_plain rfl (by decide) rfl fun hf => by
  replace hf : (h.ok && decide (d < 128) && decide (a < 128)) = true := hf
  simp only [Bool.and_eq_true, decide_eq_true_eq] at hf
  exact ⟨(Hdr.ok_bounds hf.1.1).1, (Hdr.ok_bounds hf.1.1).2, sc_lt (by omega) (by omega) (by omega)⟩
theorem sNeg (h : Hdr) (d a : Nat) : Statement (.sNeg h d a) := of_plain rfl (by decide) rfl fun hf => by
  replace hf : (h.ok && decide (d < 128) && decide (a < 128)) = true := hf
  simp only [Bool.and_eq_true, decide_eq_true_eq] at hf
  exact ⟨(Hdr.ok_bounds hf.1.1).1, (Hdr.ok_bounds hf.1.1).2, sc_lt (by omega) (by omega) (by omega)⟩
theorem sClz (h : Hdr) (d a : Nat) : Statement (.sClz h d a) := of_plain rfl (by decide) rfl fun hf => by
  replace hf : (h.ok && decide (d < 128) && decide (a < 128)) = true := hf
  simp only [Bool.and_eq_true, decide_eq_true_eq] at hf
  exact ⟨(Hdr.ok_bounds hf.1.1).1, (Hdr.ok_bounds hf.1.1).2, sc_lt (by omega) (by omega) (by omega)⟩
theorem sPopc (h : Hdr) (d a : Nat) : Statement (.sPopc h d a) := of_plain rfl (by decide) rfl fun hf => by
  replace hf : (h.ok && decide (d < 128) && decide (a < 128)) = true := hf
  simp only [Bool.and_eq_true, decide_eq_true_eq] at hf
  exact ⟨(Hdr.ok_bounds hf.1.1).1, (Hdr.ok_bounds hf.1.1).2, sc_lt (by omega) (by omega) (by omega)⟩
theorem sGetsr (h : Hdr) (d a : Nat) : Statement (.sGetsr h d a) := of_plain rfl (by decide) rfl fun hf => by
  replace hf : (h.ok && decide (d < 128) && decide (a < 128)) = true := hf
  simp only [Bool.and_eq_true, decide_eq_true_eq] at hf
  exact ⟨(Hdr.ok_bounds hf.1.1).1, (Hdr.ok_bounds hf.1.1).2, sc_lt (by omega) (by omega) (by omega)⟩
theorem sSetsr (h : Hdr) (d a : Nat) : Statement (.sSetsr h d a) := of_plain rfl (by decide) rfl fun hf => by
  replace hf : (h.ok && decide (d < 128) && decide (a < 128)) = true := hf
  simp only [Bool.and_eq_true, decide_eq_true_eq] at hf
  exact ⟨(Hdr.ok_bounds hf.1.1).1, (Hdr.ok_bounds hf.1.1).2, sc_lt (by omega) (by omega) (by omega)⟩
theorem sPset (h : Hdr) (d q : Nat) : Statement (.sPset h d q) := of_plain rfl (by decide) rfl fun hf => by
  replace hf : (h.ok && decide (d < 128) && decide (q < 16)) = true := hf
  simp only [Bool.and_eq_true, decide_eq_true_eq] at hf
  exact ⟨(Hdr.ok_bounds hf.1.1).1, (Hdr.ok_bounds hf.1.1).2, sc_lt (by omega) (by omega) (by omega)⟩
theorem sRdsys (h : Hdr) (d a : Nat) : Statement (.sRdsys h d a) := of_plain rfl (by decide) rfl fun hf => by
  replace hf : (h.ok && decide (d < 128) && decide (a < 128)) = true := hf
  simp only [Bool.and_eq_true, decide_eq_true_eq] at hf
  exact ⟨(Hdr.ok_bounds hf.1.1).1, (Hdr.ok_bounds hf.1.1).2, sc_lt (by omega) (by omega) (by omega)⟩
theorem sWrsys (h : Hdr) (d a : Nat) : Statement (.sWrsys h d a) := of_plain rfl (by decide) rfl fun hf => by
  replace hf : (h.ok && decide (d < 128) && decide (a < 128)) = true := hf
  simp only [Bool.and_eq_true, decide_eq_true_eq] at hf
  exact ⟨(Hdr.ok_bounds hf.1.1).1, (Hdr.ok_bounds hf.1.1).2, sc_lt (by omega) (by omega) (by omega)⟩
theorem sMovi (h : Hdr) (d m : Nat) : Statement (.sMovi h d m) := of_word rfl (by decide) fun _ hf => by
  replace hf : (h.ok && decide (d < 128) && decide (m < 128)) = true := hf
  simp only [Bool.and_eq_true, decide_eq_true_eq] at hf
  exact ⟨(Hdr.ok_bounds hf.1.1).1, (Hdr.ok_bounds hf.1.1).2, sc_lt (by omega) (by omega) (by omega), (follow_si (by omega) (by omega) (by omega) (by decide)).symm, fun x hx => by cases hx⟩
theorem sAddi (h : Hdr) (d m : Nat) : Statement (.sAddi h d m) := of_word rfl (by decide) fun _ hf => by
  replace hf : (h.ok && decide (d < 128) && decide (m < 128)) = true := hf
  simp only [Bool.and_eq_true, decide_eq_true_eq] at hf
  exact ⟨(Hdr.ok_bounds hf.1.1).1, (Hdr.ok_bounds hf.1.1).2, sc_lt (by omega) (by omega) (by omega), (follow_si (by omega) (by omega) (by omega) (by decide)).symm, fun x hx => by cases hx⟩
theorem sAndi (h : Hdr) (d m : Nat) : Statement (.sAndi h d m) := of_word rfl (by decide) fun _ hf => by
  replace hf : (h.ok && decide (d < 128) && decide (m < 128)) = true := hf
  simp only [Bool.and_eq_true, decide_eq_true_eq] at hf
  exact ⟨(Hdr.ok_bounds hf.1.1).1, (Hdr.ok_bounds hf.1.1).2, sc_lt (by omega) (by omega) (by omega), (follow_si (by omega) (by omega) (by omega) (by decide)).symm, fun x hx => by cases hx⟩
theorem sOri (h : Hdr) (d m : Nat) : Statement (.sOri h d m) := of_word rfl (by decide) fun _ hf => by
  replace hf : (h.ok && decide (d < 128) && decide (m < 128)) = true := hf
  simp only [Bool.and_eq_true, decide_eq_true_eq] at hf
  exact ⟨(Hdr.ok_bounds hf.1.1).1, (Hdr.ok_bounds hf.1.1).2, sc_lt (by omega) (by omega) (by omega), (follow_si (by omega) (by omega) (by omega) (by decide)).symm, fun x hx => by cases hx⟩
theorem sXori (h : Hdr) (d m : Nat) : Statement (.sXori h d m) := of_word rfl (by decide) fun _ hf => by
  replace hf : (h.ok && decide (d < 128) && decide (m < 128)) = true := hf
  simp only [Bool.and_eq_true, decide_eq_true_eq] at hf
  exact ⟨(Hdr.ok_bounds hf.1.1).1, (Hdr.ok_bounds hf.1.1).2, sc_lt (by omega) (by omega) (by omega), (follow_si (by omega) (by omega) (by omega) (by decide)).symm, fun x hx => by cases hx⟩
theorem sShli (h : Hdr) (d m : Nat) : Statement (.sShli h d m) := of_word rfl (by decide) fun _ hf => by
  replace hf : (h.ok && decide (d < 128) && decide (m < 128)) = true := hf
  simp only [Bool.and_eq_true, decide_eq_true_eq] at hf
  exact ⟨(Hdr.ok_bounds hf.1.1).1, (Hdr.ok_bounds hf.1.1).2, sc_lt (by omega) (by omega) (by omega), (follow_si (by omega) (by omega) (by omega) (by decide)).symm, fun x hx => by cases hx⟩
theorem sShri (h : Hdr) (d m : Nat) : Statement (.sShri h d m) := of_word rfl (by decide) fun _ hf => by
  replace hf : (h.ok && decide (d < 128) && decide (m < 128)) = true := hf
  simp only [Bool.and_eq_true, decide_eq_true_eq] at hf
  exact ⟨(Hdr.ok_bounds hf.1.1).1, (Hdr.ok_bounds hf.1.1).2, sc_lt (by omega) (by omega) (by omega), (follow_si (by omega) (by omega) (by omega) (by decide)).symm, fun x hx => by cases hx⟩
theorem sSrai (h : Hdr) (d m : Nat) : Statement (.sSrai h d m) := of_word rfl (by decide) fun _ hf => by
  replace hf : (h.ok && decide (d < 128) && decide (m < 128)) = true := hf
  simp only [Bool.and_eq_true, decide_eq_true_eq] at hf
  exact ⟨(Hdr.ok_bounds hf.1.1).1, (Hdr.ok_bounds hf.1.1).2, sc_lt (by omega) (by omega) (by omega), (follow_si (by omega) (by omega) (by omega) (by decide)).symm, fun x hx => by cases hx⟩
theorem sLit (h : Hdr) (d lit : Nat) : Statement (.sLit h d lit) := of_word rfl (by decide) fun _ hf => by
  replace hf : (h.ok && decide (d < 128) && decide (lit < 4294967296)) = true := hf
  simp only [Bool.and_eq_true, decide_eq_true_eq] at hf
  obtain ⟨hs, hg⟩ := Hdr.ok_bounds hf.1.1
  refine ⟨hs, hg, sc_lt (by omega) (by omega) (by omega), ?_, fun x hx => ?_⟩
  · unfold follow
    simp [sc_fn (show 8 < 16 by omega) (show 0 < 128 by omega) (show d < 128 by omega)]
  · simp only [List.mem_cons, List.not_mem_nil, or_false] at hx
    omega
theorem sLit64 (h : Hdr) (d lo hi : Nat) : Statement (.sLit64 h d lo hi) := of_word rfl (by decide) fun _ hf => by
  replace hf : (h.ok && decide (d < 128) && decide (lo < 4294967296) && decide (hi < 4294967296)) = true := hf
  simp only [Bool.and_eq_true, decide_eq_true_eq] at hf
  obtain ⟨hs, hg⟩ := Hdr.ok_bounds hf.1.1.1
  refine ⟨hs, hg, sc_lt (by omega) (by omega) (by omega), ?_, fun x hx => ?_⟩
  · unfold follow
    simp [sc_fn (show 9 < 16 by omega) (show 0 < 128 by omega) (show d < 128 by omega)]
  · simp only [List.mem_cons, List.not_mem_nil, or_false] at hx
    omega
theorem sMuli (h : Hdr) (d m : Nat) : Statement (.sMuli h d m) := of_word rfl (by decide) fun _ hf => by
  replace hf : (h.ok && decide (d < 128) && decide (m < 128)) = true := hf
  simp only [Bool.and_eq_true, decide_eq_true_eq] at hf
  exact ⟨(Hdr.ok_bounds hf.1.1).1, (Hdr.ok_bounds hf.1.1).2, sc_lt (by omega) (by omega) (by omega), (follow_si (by omega) (by omega) (by omega) (by decide)).symm, fun x hx => by cases hx⟩
theorem sSlti (h : Hdr) (d m : Nat) : Statement (.sSlti h d m) := of_word rfl (by decide) fun _ hf => by
  replace hf : (h.ok && decide (d < 128) && decide (m < 128)) = true := hf
  simp only [Bool.and_eq_true, decide_eq_true_eq] at hf
  exact ⟨(Hdr.ok_bounds hf.1.1).1, (Hdr.ok_bounds hf.1.1).2, sc_lt (by omega) (by omega) (by omega), (follow_si (by omega) (by omega) (by omega) (by decide)).symm, fun x hx => by cases hx⟩
theorem sAddi64 (h : Hdr) (d m : Nat) : Statement (.sAddi64 h d m) := of_word rfl (by decide) fun _ hf => by
  replace hf : (h.ok && decide (d < 128) && decide (m < 128)) = true := hf
  simp only [Bool.and_eq_true, decide_eq_true_eq] at hf
  exact ⟨(Hdr.ok_bounds hf.1.1).1, (Hdr.ok_bounds hf.1.1).2, sc_lt (by omega) (by omega) (by omega), (follow_si (by omega) (by omega) (by omega) (by decide)).symm, fun x hx => by cases hx⟩
theorem ld (h : Hdr) (o c z a v : Nat) : Statement (.ld h o c z a v) := of_plain rfl (by decide) rfl fun hf => by
  replace hf : (h.okMem && decide (o < 4) && decide (c < 16) && decide (z < 8) && decide (a < 32) && decide (v < 64)) = true := hf
  simp only [Bool.and_eq_true, decide_eq_true_eq] at hf
  exact ⟨(Hdr.okMem_bounds (n := o) hf.1.1.1.1.1 (by omega)).1, (Hdr.okMem_bounds (n := o) hf.1.1.1.1.1 (by omega)).2, ld_lt (by omega) (by omega) (by omega) (by omega)⟩
theorem st (h : Hdr) (o c z a v : Nat) : Statement (.st h o c z a v) := of_plain rfl (by decide) rfl fun hf => by
  replace hf : (h.okMem && decide (o < 4) && decide (c < 16) && decide (z < 8) && decide (a < 32) && decide (v < 64)) = true := hf
  simp only [Bool.and_eq_true, decide_eq_true_eq] at hf
  exact ⟨(Hdr.okMem_bounds (n := o) hf.1.1.1.1.1 (by omega)).1, (Hdr.okMem_bounds (n := o) hf.1.1.1.1.1 (by omega)).2, ld_lt (by omega) (by omega) (by omega) (by omega)⟩
theorem lds (h : Hdr) (o z a v : Nat) : Statement (.lds h o z a v) := of_plain rfl (by decide) rfl fun hf => by
  replace hf : (h.okMem && decide (o < 4) && decide (z < 8) && decide (a < 64) && decide (v < 64)) = true := hf
  simp only [Bool.and_eq_true, decide_eq_true_eq] at hf
  exact ⟨(Hdr.okMem_bounds (n := o) hf.1.1.1.1 (by omega)).1, (Hdr.okMem_bounds (n := o) hf.1.1.1.1 (by omega)).2, spad_lt (by omega) (by omega) (by omega) (by omega) (by omega)⟩
theorem ldsBcast (h : Hdr) (o z a v : Nat) : Statement (.ldsBcast h o z a v) := of_plain rfl (by decide) rfl fun hf => by
  replace hf : (h.okMem && decide (o < 4) && decide (z < 8) && decide (a < 64) && decide (v < 64)) = true := hf
  simp only [Bool.and_eq_true, decide_eq_true_eq] at hf
  exact ⟨(Hdr.okMem_bounds (n := o) hf.1.1.1.1 (by omega)).1, (Hdr.okMem_bounds (n := o) hf.1.1.1.1 (by omega)).2, spad_lt (by omega) (by omega) (by omega) (by omega) (by omega)⟩
theorem sts (h : Hdr) (o z a v : Nat) : Statement (.sts h o z a v) := of_plain rfl (by decide) rfl fun hf => by
  replace hf : (h.okMem && decide (o < 4) && decide (z < 8) && decide (a < 64) && decide (v < 64)) = true := hf
  simp only [Bool.and_eq_true, decide_eq_true_eq] at hf
  exact ⟨(Hdr.okMem_bounds (n := o) hf.1.1.1.1 (by omega)).1, (Hdr.okMem_bounds (n := o) hf.1.1.1.1 (by omega)).2, spad_lt (by omega) (by omega) (by omega) (by omega) (by omega)⟩
theorem atomAdd (h : Hdr) (o c a d : Nat) : Statement (.atomAdd h o c a d) := of_plain rfl (by decide) rfl fun hf => by
  replace hf : (h.okMem && decide (o < 4) && decide (c < 16) && decide (a < 32) && decide (d < 64)) = true := hf
  simp only [Bool.and_eq_true, decide_eq_true_eq] at hf
  exact ⟨(Hdr.okMem_bounds (n := o) hf.1.1.1.1 (by omega)).1, (Hdr.okMem_bounds (n := o) hf.1.1.1.1 (by omega)).2, ld_lt (by omega) (by omega) (by omega) (by omega)⟩
theorem atomUmax (h : Hdr) (o c a d : Nat) : Statement (.atomUmax h o c a d) := of_plain rfl (by decide) rfl fun hf => by
  replace hf : (h.okMem && decide (o < 4) && decide (c < 16) && decide (a < 32) && decide (d < 64)) = true := hf
  simp only [Bool.and_eq_true, decide_eq_true_eq] at hf
  exact ⟨(Hdr.okMem_bounds (n := o) hf.1.1.1.1 (by omega)).1, (Hdr.okMem_bounds (n := o) hf.1.1.1.1 (by omega)).2, ld_lt (by omega) (by omega) (by omega) (by omega)⟩
theorem atomExch (h : Hdr) (o c a d : Nat) : Statement (.atomExch h o c a d) := of_plain rfl (by decide) rfl fun hf => by
  replace hf : (h.okMem && decide (o < 4) && decide (c < 16) && decide (a < 32) && decide (d < 64)) = true := hf
  simp only [Bool.and_eq_true, decide_eq_true_eq] at hf
  exact ⟨(Hdr.okMem_bounds (n := o) hf.1.1.1.1 (by omega)).1, (Hdr.okMem_bounds (n := o) hf.1.1.1.1 (by omega)).2, ld_lt (by omega) (by omega) (by omega) (by omega)⟩
theorem atomCas (h : Hdr) (o c a d : Nat) : Statement (.atomCas h o c a d) := of_plain rfl (by decide) rfl fun hf => by
  replace hf : (h.okMem && decide (o < 4) && decide (c < 16) && decide (a < 32) && decide (d < 64)) = true := hf
  simp only [Bool.and_eq_true, decide_eq_true_eq] at hf
  exact ⟨(Hdr.okMem_bounds (n := o) hf.1.1.1.1 (by omega)).1, (Hdr.okMem_bounds (n := o) hf.1.1.1.1 (by omega)).2, ld_lt (by omega) (by omega) (by omega) (by omega)⟩
theorem atomFadd (h : Hdr) (o c a d : Nat) : Statement (.atomFadd h o c a d) := of_plain rfl (by decide) rfl fun hf => by
  replace hf : (h.okMem && decide (o < 4) && decide (c < 16) && decide (a < 32) && decide (d < 64)) = true := hf
  simp only [Bool.and_eq_true, decide_eq_true_eq] at hf
  exact ⟨(Hdr.okMem_bounds (n := o) hf.1.1.1.1 (by omega)).1, (Hdr.okMem_bounds (n := o) hf.1.1.1.1 (by omega)).2, ld_lt (by omega) (by omega) (by omega) (by omega)⟩
theorem atomFmin (h : Hdr) (o c a d : Nat) : Statement (.atomFmin h o c a d) := of_plain rfl (by decide) rfl fun hf => by
  replace hf : (h.okMem && decide (o < 4) && decide (c < 16) && decide (a < 32) && decide (d < 64)) = true := hf
  simp only [Bool.and_eq_true, decide_eq_true_eq] at hf
  exact ⟨(Hdr.okMem_bounds (n := o) hf.1.1.1.1 (by omega)).1, (Hdr.okMem_bounds (n := o) hf.1.1.1.1 (by omega)).2, ld_lt (by omega) (by omega) (by omega) (by omega)⟩
theorem atomFmax (h : Hdr) (o c a d : Nat) : Statement (.atomFmax h o c a d) := of_plain rfl (by decide) rfl fun hf => by
  replace hf : (h.okMem && decide (o < 4) && decide (c < 16) && decide (a < 32) && decide (d < 64)) = true := hf
  simp only [Bool.and_eq_true, decide_eq_true_eq] at hf
  exact ⟨(Hdr.okMem_bounds (n := o) hf.1.1.1.1 (by omega)).1, (Hdr.okMem_bounds (n := o) hf.1.1.1.1 (by omega)).2, ld_lt (by omega) (by omega) (by omega) (by omega)⟩
theorem atomAdd64 (h : Hdr) (o c a d : Nat) : Statement (.atomAdd64 h o c a d) := of_plain rfl (by decide) rfl fun hf => by
  replace hf : (h.okMem && decide (o < 4) && decide (c < 16) && decide (a < 32) && decide (d < 64)) = true := hf
  simp only [Bool.and_eq_true, decide_eq_true_eq] at hf
  exact ⟨(Hdr.okMem_bounds (n := o) hf.1.1.1.1 (by omega)).1, (Hdr.okMem_bounds (n := o) hf.1.1.1.1 (by omega)).2, ld_lt (by omega) (by omega) (by omega) (by omega)⟩
theorem atomExch64 (h : Hdr) (o c a d : Nat) : Statement (.atomExch64 h o c a d) := of_plain rfl (by decide) rfl fun hf => by
  replace hf : (h.okMem && decide (o < 4) && decide (c < 16) && decide (a < 32) && decide (d < 64)) = true := hf
  simp only [Bool.and_eq_true, decide_eq_true_eq] at hf
  exact ⟨(Hdr.okMem_bounds (n := o) hf.1.1.1.1 (by omega)).1, (Hdr.okMem_bounds (n := o) hf.1.1.1.1 (by omega)).2, ld_lt (by omega) (by omega) (by omega) (by omega)⟩
theorem atomCas64 (h : Hdr) (o c a d : Nat) : Statement (.atomCas64 h o c a d) := of_plain rfl (by decide) rfl fun hf => by
  replace hf : (h.okMem && decide (o < 4) && decide (c < 16) && decide (a < 32) && decide (d < 64)) = true := hf
  simp only [Bool.and_eq_true, decide_eq_true_eq] at hf
  exact ⟨(Hdr.okMem_bounds (n := o) hf.1.1.1.1 (by omega)).1, (Hdr.okMem_bounds (n := o) hf.1.1.1.1 (by omega)).2, ld_lt (by omega) (by omega) (by omega) (by omega)⟩
theorem sLdW (h : Hdr) (c d a : Nat) : Statement (.sLdW h c d a) := of_plain rfl (by decide) rfl fun hf => by
  replace hf : (h.okMem && decide (c < 4) && decide (d < 128) && decide (a < 128)) = true := hf
  simp only [Bool.and_eq_true, decide_eq_true_eq] at hf
  exact ⟨(Hdr.okMem_bounds (n := c) hf.1.1.1 (by omega)).1, (Hdr.okMem_bounds (n := c) hf.1.1.1 (by omega)).2, sc_lt (by omega) (by omega) (by omega)⟩
theorem sLdD (h : Hdr) (c d a : Nat) : Statement (.sLdD h c d a) := of_plain rfl (by decide) rfl fun hf => by
  replace hf : (h.okMem && decide (c < 4) && decide (d < 128) && decide (a < 128)) = true := hf
  simp only [Bool.and_eq_true, decide_eq_true_eq] at hf
  exact ⟨(Hdr.okMem_bounds (n := c) hf.1.1.1 (by omega)).1, (Hdr.okMem_bounds (n := c) hf.1.1.1 (by omega)).2, sc_lt (by omega) (by omega) (by omega)⟩
theorem sLdQ (h : Hdr) (c d a : Nat) : Statement (.sLdQ h c d a) := of_plain rfl (by decide) rfl fun hf => by
  replace hf : (h.okMem && decide (c < 4) && decide (d < 128) && decide (a < 128)) = true := hf
  simp only [Bool.and_eq_true, decide_eq_true_eq] at hf
  exact ⟨(Hdr.okMem_bounds (n := c) hf.1.1.1 (by omega)).1, (Hdr.okMem_bounds (n := c) hf.1.1.1 (by omega)).2, sc_lt (by omega) (by omega) (by omega)⟩
theorem sLdO (h : Hdr) (c d a : Nat) : Statement (.sLdO h c d a) := of_plain rfl (by decide) rfl fun hf => by
  replace hf : (h.okMem && decide (c < 4) && decide (d < 128) && decide (a < 128)) = true := hf
  simp only [Bool.and_eq_true, decide_eq_true_eq] at hf
  exact ⟨(Hdr.okMem_bounds (n := c) hf.1.1.1 (by omega)).1, (Hdr.okMem_bounds (n := c) hf.1.1.1 (by omega)).2, sc_lt (by omega) (by omega) (by omega)⟩
theorem sStW (h : Hdr) (c d a : Nat) : Statement (.sStW h c d a) := of_plain rfl (by decide) rfl fun hf => by
  replace hf : (h.okMem && decide (c < 4) && decide (d < 128) && decide (a < 128)) = true := hf
  simp only [Bool.and_eq_true, decide_eq_true_eq] at hf
  exact ⟨(Hdr.okMem_bounds (n := c) hf.1.1.1 (by omega)).1, (Hdr.okMem_bounds (n := c) hf.1.1.1 (by omega)).2, sc_lt (by omega) (by omega) (by omega)⟩
theorem sStD (h : Hdr) (c d a : Nat) : Statement (.sStD h c d a) := of_plain rfl (by decide) rfl fun hf => by
  replace hf : (h.okMem && decide (c < 4) && decide (d < 128) && decide (a < 128)) = true := hf
  simp only [Bool.and_eq_true, decide_eq_true_eq] at hf
  exact ⟨(Hdr.okMem_bounds (n := c) hf.1.1.1 (by omega)).1, (Hdr.okMem_bounds (n := c) hf.1.1.1 (by omega)).2, sc_lt (by omega) (by omega) (by omega)⟩
theorem sStQ (h : Hdr) (c d a : Nat) : Statement (.sStQ h c d a) := of_plain rfl (by decide) rfl fun hf => by
  replace hf : (h.okMem && decide (c < 4) && decide (d < 128) && decide (a < 128)) = true := hf
  simp only [Bool.and_eq_true, decide_eq_true_eq] at hf
  exact ⟨(Hdr.okMem_bounds (n := c) hf.1.1.1 (by omega)).1, (Hdr.okMem_bounds (n := c) hf.1.1.1 (by omega)).2, sc_lt (by omega) (by omega) (by omega)⟩
theorem sAtomAdd (h : Hdr) (c d a : Nat) : Statement (.sAtomAdd h c d a) := of_plain rfl (by decide) rfl fun hf => by
  replace hf : (h.okMem && decide (c < 4) && decide (d < 128) && decide (a < 128)) = true := hf
  simp only [Bool.and_eq_true, decide_eq_true_eq] at hf
  exact ⟨(Hdr.okMem_bounds (n := c) hf.1.1.1 (by omega)).1, (Hdr.okMem_bounds (n := c) hf.1.1.1 (by omega)).2, sc_lt (by omega) (by omega) (by omega)⟩
theorem sAtomCas (h : Hdr) (c d a : Nat) : Statement (.sAtomCas h c d a) := of_plain rfl (by decide) rfl fun hf => by
  replace hf : (h.okMem && decide (c < 4) && decide (d < 128) && decide (a < 128)) = true := hf
  simp only [Bool.and_eq_true, decide_eq_true_eq] at hf
  exact ⟨(Hdr.okMem_bounds (n := c) hf.1.1.1 (by omega)).1, (Hdr.okMem_bounds (n := c) hf.1.1.1 (by omega)).2, sc_lt (by omega) (by omega) (by omega)⟩
theorem sLdAcqW (h : Hdr) (c d a : Nat) : Statement (.sLdAcqW h c d a) := of_plain rfl (by decide) rfl fun hf => by
  replace hf : (h.okMem && decide (c < 4) && decide (d < 128) && decide (a < 128)) = true := hf
  simp only [Bool.and_eq_true, decide_eq_true_eq] at hf
  exact ⟨(Hdr.okMem_bounds (n := c) hf.1.1.1 (by omega)).1, (Hdr.okMem_bounds (n := c) hf.1.1.1 (by omega)).2, sc_lt (by omega) (by omega) (by omega)⟩
theorem sStRelW (h : Hdr) (c d a : Nat) : Statement (.sStRelW h c d a) := of_plain rfl (by decide) rfl fun hf => by
  replace hf : (h.okMem && decide (c < 4) && decide (d < 128) && decide (a < 128)) = true := hf
  simp only [Bool.and_eq_true, decide_eq_true_eq] at hf
  exact ⟨(Hdr.okMem_bounds (n := c) hf.1.1.1 (by omega)).1, (Hdr.okMem_bounds (n := c) hf.1.1.1 (by omega)).2, sc_lt (by omega) (by omega) (by omega)⟩
theorem bra (h : Hdr) (o : Nat) : Statement (.bra h o) := of_plain rfl (by decide) rfl fun hf => by
  replace hf : (h.ok && decide (o < 262144)) = true := hf
  simp only [Bool.and_eq_true, decide_eq_true_eq] at hf
  exact ⟨(Hdr.ok_bounds hf.1).1, (Hdr.ok_bounds hf.1).2, by omega⟩
theorem call (h : Hdr) (o : Nat) : Statement (.call h o) := of_plain rfl (by decide) rfl fun hf => by
  replace hf : (h.ok && decide (o < 262144)) = true := hf
  simp only [Bool.and_eq_true, decide_eq_true_eq] at hf
  exact ⟨(Hdr.ok_bounds hf.1).1, (Hdr.ok_bounds hf.1).2, by omega⟩
theorem nop (h : Hdr) : Statement (.nop h) := of_word rfl (by decide) fun _ hf => by
  replace hf : (h.ok) = true := hf
  exact ⟨(Hdr.ok_bounds hf).1, (Hdr.ok_bounds hf).2, v3_lt (by omega) (by omega) (by omega), (follow_ctl (by omega) (by omega) (by omega) (by decide)).symm, fun x hx => by cases hx⟩
theorem exit (h : Hdr) : Statement (.exit h) := of_word rfl (by decide) fun _ hf => by
  replace hf : (h.ok) = true := hf
  exact ⟨(Hdr.ok_bounds hf).1, (Hdr.ok_bounds hf).2, v3_lt (by omega) (by omega) (by omega), (follow_ctl (by omega) (by omega) (by omega) (by decide)).symm, fun x hx => by cases hx⟩
theorem brx (h : Hdr) (a : Nat) : Statement (.brx h a) := of_word rfl (by decide) fun _ hf => by
  replace hf : (h.ok && decide (a < 64)) = true := hf
  simp only [Bool.and_eq_true, decide_eq_true_eq] at hf
  exact ⟨(Hdr.ok_bounds hf.1).1, (Hdr.ok_bounds hf.1).2, v3_lt (by omega) (by omega) (by omega), (follow_ctl (by omega) (by omega) (by omega) (by decide)).symm, fun x hx => by cases hx⟩
theorem mbr (h : Hdr) (arms : List Arm) : Statement (.mbr h arms) := of_word rfl (by decide) fun hw hf => by
  have hr : 1 ≤ arms.length ∧ arms.length ≤ 4 := by
    simp only [wfError, hf, if_true] at hw
    have : decide (1 ≤ arms.length ∧ arms.length ≤ 4) = true := by
      cases hd : decide (1 ≤ arms.length ∧ arms.length ≤ 4)
      · replace hw : firstFail [(decide (1 ≤ arms.length ∧ arms.length ≤ 4), .range)] = none := hw
        simp [hd, firstFail] at hw
      · rfl
    simpa using this
  replace hf : (h.ok && arms.all Arm.fits) = true := hf
  simp only [Bool.and_eq_true] at hf
  obtain ⟨hs, hg⟩ := Hdr.ok_bounds hf.1
  refine ⟨hs, hg, v3_lt (by omega) (by omega) (by omega), ?_, fun x hx => ?_⟩
  · unfold follow
    simp [v3_fA (show 3 < 64 by omega) (show arms.length < 64 by omega) (show 0 < 64 by omega),
      v3_fB (a := 3) (show arms.length < 64 by omega) (show 0 < 64 by omega), hr.2]
  · obtain ⟨a, ha, rfl⟩ := List.mem_map.1 hx
    have hfit := List.all_eq_true.1 hf.2 a ha
    simp only [Arm.fits, Bool.and_eq_true, decide_eq_true_eq] at hfit
    have hb : a.sense.toNat ≤ 1 := Bool.toNat_le _
    unfold armWord
    omega
theorem join (h : Hdr) : Statement (.join h) := of_word rfl (by decide) fun _ hf => by
  replace hf : (h.ok) = true := hf
  exact ⟨(Hdr.ok_bounds hf).1, (Hdr.ok_bounds hf).2, v3_lt (by omega) (by omega) (by omega), (follow_ctl (by omega) (by omega) (by omega) (by decide)).symm, fun x hx => by cases hx⟩
theorem yield (h : Hdr) : Statement (.yield h) := of_word rfl (by decide) fun _ hf => by
  replace hf : (h.ok) = true := hf
  exact ⟨(Hdr.ok_bounds hf).1, (Hdr.ok_bounds hf).2, v3_lt (by omega) (by omega) (by omega), (follow_ctl (by omega) (by omega) (by omega) (by decide)).symm, fun x hx => by cases hx⟩
theorem trig (h : Hdr) : Statement (.trig h) := of_word rfl (by decide) fun _ hf => by
  replace hf : (h.ok) = true := hf
  exact ⟨(Hdr.ok_bounds hf).1, (Hdr.ok_bounds hf).2, v3_lt (by omega) (by omega) (by omega), (follow_ctl (by omega) (by omega) (by omega) (by decide)).symm, fun x hx => by cases hx⟩
theorem pset (h : Hdr) (a : Nat) : Statement (.pset h a) := of_word rfl (by decide) fun _ hf => by
  replace hf : (h.ok && decide (a < 64)) = true := hf
  simp only [Bool.and_eq_true, decide_eq_true_eq] at hf
  exact ⟨(Hdr.ok_bounds hf.1).1, (Hdr.ok_bounds hf.1).2, v3_lt (by omega) (by omega) (by omega), (follow_ctl (by omega) (by omega) (by omega) (by decide)).symm, fun x hx => by cases hx⟩
theorem pseti (h : Hdr) (x : Nat) : Statement (.pseti h x) := of_word rfl (by decide) fun _ hf => by
  replace hf : (h.ok && decide (x < 64)) = true := hf
  simp only [Bool.and_eq_true, decide_eq_true_eq] at hf
  exact ⟨(Hdr.ok_bounds hf.1).1, (Hdr.ok_bounds hf.1).2, v3_lt (by omega) (by omega) (by omega), (follow_ctl (by omega) (by omega) (by omega) (by decide)).symm, fun x hx => by cases hx⟩
theorem pget (h : Hdr) (d : Nat) : Statement (.pget h d) := of_word rfl (by decide) fun _ hf => by
  replace hf : (h.ok && decide (d < 64)) = true := hf
  simp only [Bool.and_eq_true, decide_eq_true_eq] at hf
  exact ⟨(Hdr.ok_bounds hf.1).1, (Hdr.ok_bounds hf.1).2, v3_lt (by omega) (by omega) (by omega), (follow_ctl (by omega) (by omega) (by omega) (by decide)).symm, fun x hx => by cases hx⟩
theorem pmask (h : Hdr) (y x : Nat) : Statement (.pmask h y x) := of_word rfl (by decide) fun _ hf => by
  replace hf : (h.ok && decide (y < 64) && decide (x < 64)) = true := hf
  simp only [Bool.and_eq_true, decide_eq_true_eq] at hf
  exact ⟨(Hdr.ok_bounds hf.1.1).1, (Hdr.ok_bounds hf.1.1).2, v3_lt (by omega) (by omega) (by omega), (follow_ctl (by omega) (by omega) (by omega) (by decide)).symm, fun x hx => by cases hx⟩
theorem bar (h : Hdr) (y x : Nat) : Statement (.bar h y x) := of_word rfl (by decide) fun _ hf => by
  replace hf : (h.ok && decide (y < 64) && decide (x < 64)) = true := hf
  simp only [Bool.and_eq_true, decide_eq_true_eq] at hf
  exact ⟨(Hdr.ok_bounds hf.1.1).1, (Hdr.ok_bounds hf.1.1).2, v3_lt (by omega) (by omega) (by omega), (follow_ctl (by omega) (by omega) (by omega) (by decide)).symm, fun x hx => by cases hx⟩
theorem barArv (h : Hdr) (y x : Nat) : Statement (.barArv h y x) := of_word rfl (by decide) fun _ hf => by
  replace hf : (h.ok && decide (y < 64) && decide (x < 64)) = true := hf
  simp only [Bool.and_eq_true, decide_eq_true_eq] at hf
  exact ⟨(Hdr.ok_bounds hf.1.1).1, (Hdr.ok_bounds hf.1.1).2, v3_lt (by omega) (by omega) (by omega), (follow_ctl (by omega) (by omega) (by omega) (by decide)).symm, fun x hx => by cases hx⟩
theorem cbar (h : Hdr) : Statement (.cbar h) := of_word rfl (by decide) fun _ hf => by
  replace hf : (h.ok) = true := hf
  exact ⟨(Hdr.ok_bounds hf).1, (Hdr.ok_bounds hf).2, v3_lt (by omega) (by omega) (by omega), (follow_ctl (by omega) (by omega) (by omega) (by decide)).symm, fun x hx => by cases hx⟩
theorem sbInit (h : Hdr) (y x : Nat) : Statement (.sbInit h y x) := of_word rfl (by decide) fun _ hf => by
  replace hf : (h.ok && decide (y < 64) && decide (x < 64)) = true := hf
  simp only [Bool.and_eq_true, decide_eq_true_eq] at hf
  exact ⟨(Hdr.ok_bounds hf.1.1).1, (Hdr.ok_bounds hf.1.1).2, v3_lt (by omega) (by omega) (by omega), (follow_ctl (by omega) (by omega) (by omega) (by decide)).symm, fun x hx => by cases hx⟩
theorem sbArv (h : Hdr) (x : Nat) : Statement (.sbArv h x) := of_word rfl (by decide) fun _ hf => by
  replace hf : (h.ok && decide (x < 64)) = true := hf
  simp only [Bool.and_eq_true, decide_eq_true_eq] at hf
  exact ⟨(Hdr.ok_bounds hf.1).1, (Hdr.ok_bounds hf.1).2, v3_lt (by omega) (by omega) (by omega), (follow_ctl (by omega) (by omega) (by omega) (by decide)).symm, fun x hx => by cases hx⟩
theorem sbWait (h : Hdr) (y x : Nat) : Statement (.sbWait h y x) := of_word rfl (by decide) fun _ hf => by
  replace hf : (h.ok && decide (y < 64) && decide (x < 64)) = true := hf
  simp only [Bool.and_eq_true, decide_eq_true_eq] at hf
  exact ⟨(Hdr.ok_bounds hf.1.1).1, (Hdr.ok_bounds hf.1.1).2, v3_lt (by omega) (by omega) (by omega), (follow_ctl (by omega) (by omega) (by omega) (by decide)).symm, fun x hx => by cases hx⟩
theorem sbTest (h : Hdr) (y x : Nat) : Statement (.sbTest h y x) := of_word rfl (by decide) fun _ hf => by
  replace hf : (h.ok && decide (y < 64) && decide (x < 64)) = true := hf
  simp only [Bool.and_eq_true, decide_eq_true_eq] at hf
  exact ⟨(Hdr.ok_bounds hf.1.1).1, (Hdr.ok_bounds hf.1.1).2, v3_lt (by omega) (by omega) (by omega), (follow_ctl (by omega) (by omega) (by omega) (by decide)).symm, fun x hx => by cases hx⟩
theorem waitc (h : Hdr) (y x : Nat) : Statement (.waitc h y x) := of_word rfl (by decide) fun _ hf => by
  replace hf : (h.ok && decide (y < 64) && decide (x < 64)) = true := hf
  simp only [Bool.and_eq_true, decide_eq_true_eq] at hf
  exact ⟨(Hdr.ok_bounds hf.1.1).1, (Hdr.ok_bounds hf.1.1).2, v3_lt (by omega) (by omega) (by omega), (follow_ctl (by omega) (by omega) (by omega) (by decide)).symm, fun x hx => by cases hx⟩
theorem tlwait (h : Hdr) (y x : Nat) : Statement (.tlwait h y x) := of_word rfl (by decide) fun _ hf => by
  replace hf : (h.ok && decide (y < 64) && decide (x < 64)) = true := hf
  simp only [Bool.and_eq_true, decide_eq_true_eq] at hf
  exact ⟨(Hdr.ok_bounds hf.1.1).1, (Hdr.ok_bounds hf.1.1).2, v3_lt (by omega) (by omega) (by omega), (follow_ctl (by omega) (by omega) (by omega) (by decide)).symm, fun x hx => by cases hx⟩
theorem tlread (h : Hdr) (y x : Nat) : Statement (.tlread h y x) := of_word rfl (by decide) fun _ hf => by
  replace hf : (h.ok && decide (y < 64) && decide (x < 64)) = true := hf
  simp only [Bool.and_eq_true, decide_eq_true_eq] at hf
  exact ⟨(Hdr.ok_bounds hf.1.1).1, (Hdr.ok_bounds hf.1.1).2, v3_lt (by omega) (by omega) (by omega), (follow_ctl (by omega) (by omega) (by omega) (by decide)).symm, fun x hx => by cases hx⟩
theorem fence (h : Hdr) (y x : Nat) : Statement (.fence h y x) := of_word rfl (by decide) fun _ hf => by
  replace hf : (h.ok && decide (y < 64) && decide (x < 64)) = true := hf
  simp only [Bool.and_eq_true, decide_eq_true_eq] at hf
  exact ⟨(Hdr.ok_bounds hf.1.1).1, (Hdr.ok_bounds hf.1.1).2, v3_lt (by omega) (by omega) (by omega), (follow_ctl (by omega) (by omega) (by omega) (by decide)).symm, fun x hx => by cases hx⟩
theorem fenceMir (h : Hdr) (x : Nat) : Statement (.fenceMir h x) := of_word rfl (by decide) fun _ hf => by
  replace hf : (h.ok && decide (x < 64)) = true := hf
  simp only [Bool.and_eq_true, decide_eq_true_eq] at hf
  exact ⟨(Hdr.ok_bounds hf.1).1, (Hdr.ok_bounds hf.1).2, v3_lt (by omega) (by omega) (by omega), (follow_ctl (by omega) (by omega) (by omega) (by decide)).symm, fun x hx => by cases hx⟩
theorem trap (h : Hdr) (c : Nat) : Statement (.trap h c) := of_word rfl (by decide) fun _ hf => by
  replace hf : (h.ok && decide (c < 4096)) = true := hf
  simp only [Bool.and_eq_true, decide_eq_true_eq] at hf
  exact ⟨(Hdr.ok_bounds hf.1).1, (Hdr.ok_bounds hf.1).2, by unfold pTrap; omega, (show follow 30 (pTrap c) = 0 by
    have hA : fA (pTrap c) = 22 := by unfold fA pTrap; omega
    unfold follow
    simp [hA]).symm, fun x hx => by cases hx⟩
theorem tret (h : Hdr) : Statement (.tret h) := of_word rfl (by decide) fun _ hf => by
  replace hf : (h.ok) = true := hf
  exact ⟨(Hdr.ok_bounds hf).1, (Hdr.ok_bounds hf).2, v3_lt (by omega) (by omega) (by omega), (follow_ctl (by omega) (by omega) (by omega) (by decide)).symm, fun x hx => by cases hx⟩
theorem region (h : Hdr) : Statement (.region h) := of_word rfl (by decide) fun _ hf => by
  replace hf : (h.ok) = true := hf
  exact ⟨(Hdr.ok_bounds hf).1, (Hdr.ok_bounds hf).2, v3_lt (by omega) (by omega) (by omega), (follow_ctl (by omega) (by omega) (by omega) (by decide)).symm, fun x hx => by cases hx⟩
theorem sigchk (h : Hdr) (lit : Nat) : Statement (.sigchk h lit) := of_word rfl (by decide) fun _ hf => by
  replace hf : (h.ok && decide (lit < 4294967296)) = true := hf
  simp only [Bool.and_eq_true, decide_eq_true_eq] at hf
  obtain ⟨hs, hg⟩ := Hdr.ok_bounds hf.1
  refine ⟨hs, hg, v3_lt (by omega) (by omega) (by omega), ?_, fun x hx => ?_⟩
  · unfold follow
    simp [v3_fA (show 25 < 64 by omega) (show 0 < 64 by omega) (show 0 < 64 by omega)]
  · simp only [List.mem_cons, List.not_mem_nil, or_false] at hx
    omega
theorem brk (h : Hdr) : Statement (.brk h) := of_word rfl (by decide) fun _ hf => by
  replace hf : (h.ok) = true := hf
  exact ⟨(Hdr.ok_bounds hf).1, (Hdr.ok_bounds hf).2, v3_lt (by omega) (by omega) (by omega), (follow_ctl (by omega) (by omega) (by omega) (by decide)).symm, fun x hx => by cases hx⟩
theorem wqNext (h : Hdr) (x : Nat) : Statement (.wqNext h x) := of_word rfl (by decide) fun _ hf => by
  replace hf : (h.ok && decide (x < 64)) = true := hf
  simp only [Bool.and_eq_true, decide_eq_true_eq] at hf
  exact ⟨(Hdr.ok_bounds hf.1).1, (Hdr.ok_bounds hf.1).2, v3_lt (by omega) (by omega) (by omega), (follow_ctl (by omega) (by omega) (by omega) (by decide)).symm, fun x hx => by cases hx⟩
theorem recv (h : Hdr) (y x : Nat) : Statement (.recv h y x) := of_word rfl (by decide) fun _ hf => by
  replace hf : (h.ok && decide (y < 64) && decide (x < 64)) = true := hf
  simp only [Bool.and_eq_true, decide_eq_true_eq] at hf
  exact ⟨(Hdr.ok_bounds hf.1.1).1, (Hdr.ok_bounds hf.1.1).2, v3_lt (by omega) (by omega) (by omega), (follow_ctl (by omega) (by omega) (by omega) (by decide)).symm, fun x hx => by cases hx⟩
theorem send (h : Hdr) (y x : Nat) : Statement (.send h y x) := of_word rfl (by decide) fun _ hf => by
  replace hf : (h.ok && decide (y < 64) && decide (x < 64)) = true := hf
  simp only [Bool.and_eq_true, decide_eq_true_eq] at hf
  exact ⟨(Hdr.ok_bounds hf.1.1).1, (Hdr.ok_bounds hf.1.1).2, v3_lt (by omega) (by omega) (by omega), (follow_ctl (by omega) (by omega) (by omega) (by decide)).symm, fun x hx => by cases hx⟩
theorem launch (h : Hdr) (y x : Nat) : Statement (.launch h y x) := of_word rfl (by decide) fun _ hf => by
  replace hf : (h.ok && decide (y < 64) && decide (x < 64)) = true := hf
  simp only [Bool.and_eq_true, decide_eq_true_eq] at hf
  exact ⟨(Hdr.ok_bounds hf.1.1).1, (Hdr.ok_bounds hf.1.1).2, v3_lt (by omega) (by omega) (by omega), (follow_ctl (by omega) (by omega) (by omega) (by decide)).symm, fun x hx => by cases hx⟩
theorem joinw (h : Hdr) (y x : Nat) : Statement (.joinw h y x) := of_word rfl (by decide) fun _ hf => by
  replace hf : (h.ok && decide (y < 64) && decide (x < 64)) = true := hf
  simp only [Bool.and_eq_true, decide_eq_true_eq] at hf
  exact ⟨(Hdr.ok_bounds hf.1.1).1, (Hdr.ok_bounds hf.1.1).2, v3_lt (by omega) (by omega) (by omega), (follow_ctl (by omega) (by omega) (by omega) (by decide)).symm, fun x hx => by cases hx⟩
theorem tagL (h : Hdr) (d a : Nat) : Statement (.tagL h d a) := of_word rfl (by decide) fun _ hf => by
  replace hf : (h.ok && decide (d < 64) && decide (a < 64)) = true := hf
  simp only [Bool.and_eq_true, decide_eq_true_eq] at hf
  exact ⟨(Hdr.ok_bounds hf.1.1).1, (Hdr.ok_bounds hf.1.1).2, v3_lt (by omega) (by omega) (by omega), (follow_ctl (by omega) (by omega) (by omega) (by decide)).symm, fun x hx => by cases hx⟩
theorem tagI (h : Hdr) (d a : Nat) : Statement (.tagI h d a) := of_word rfl (by decide) fun _ hf => by
  replace hf : (h.ok && decide (d < 64) && decide (a < 64)) = true := hf
  simp only [Bool.and_eq_true, decide_eq_true_eq] at hf
  exact ⟨(Hdr.ok_bounds hf.1.1).1, (Hdr.ok_bounds hf.1.1).2, v3_lt (by omega) (by omega) (by omega), (follow_ctl (by omega) (by omega) (by omega) (by decide)).symm, fun x hx => by cases hx⟩
theorem tagE (h : Hdr) (d a : Nat) : Statement (.tagE h d a) := of_word rfl (by decide) fun _ hf => by
  replace hf : (h.ok && decide (d < 64) && decide (a < 64)) = true := hf
  simp only [Bool.and_eq_true, decide_eq_true_eq] at hf
  exact ⟨(Hdr.ok_bounds hf.1.1).1, (Hdr.ok_bounds hf.1.1).2, v3_lt (by omega) (by omega) (by omega), (follow_ctl (by omega) (by omega) (by omega) (by decide)).symm, fun x hx => by cases hx⟩
theorem pref (h : Hdr) (x : Nat) : Statement (.pref h x) := of_word rfl (by decide) fun _ hf => by
  replace hf : (h.ok && decide (x < 64)) = true := hf
  simp only [Bool.and_eq_true, decide_eq_true_eq] at hf
  exact ⟨(Hdr.ok_bounds hf.1).1, (Hdr.ok_bounds hf.1).2, v3_lt (by omega) (by omega) (by omega), (follow_ctl (by omega) (by omega) (by omega) (by decide)).symm, fun x hx => by cases hx⟩
theorem ovtld (h : Hdr) (x : Nat) : Statement (.ovtld h x) := of_word rfl (by decide) fun _ hf => by
  replace hf : (h.ok && decide (x < 64)) = true := hf
  simp only [Bool.and_eq_true, decide_eq_true_eq] at hf
  exact ⟨(Hdr.ok_bounds hf.1).1, (Hdr.ok_bounds hf.1).2, v3_lt (by omega) (by omega) (by omega), (follow_ctl (by omega) (by omega) (by omega) (by decide)).symm, fun x hx => by cases hx⟩
theorem srseed (h : Hdr) (a : Nat) : Statement (.srseed h a) := of_word rfl (by decide) fun _ hf => by
  replace hf : (h.ok && decide (a < 64)) = true := hf
  simp only [Bool.and_eq_true, decide_eq_true_eq] at hf
  exact ⟨(Hdr.ok_bounds hf.1).1, (Hdr.ok_bounds hf.1).2, v3_lt (by omega) (by omega) (by omega), (follow_ctl (by omega) (by omega) (by omega) (by decide)).symm, fun x hx => by cases hx⟩
theorem srget (h : Hdr) (d : Nat) : Statement (.srget h d) := of_word rfl (by decide) fun _ hf => by
  replace hf : (h.ok && decide (d < 64)) = true := hf
  simp only [Bool.and_eq_true, decide_eq_true_eq] at hf
  exact ⟨(Hdr.ok_bounds hf.1).1, (Hdr.ok_bounds hf.1).2, v3_lt (by omega) (by omega) (by omega), (follow_ctl (by omega) (by omega) (by omega) (by decide)).symm, fun x hx => by cases hx⟩
theorem pchk (h : Hdr) (y a : Nat) : Statement (.pchk h y a) := of_word rfl (by decide) fun _ hf => by
  replace hf : (h.ok && decide (y < 64) && decide (a < 64)) = true := hf
  simp only [Bool.and_eq_true, decide_eq_true_eq] at hf
  exact ⟨(Hdr.ok_bounds hf.1.1).1, (Hdr.ok_bounds hf.1.1).2, v3_lt (by omega) (by omega) (by omega), (follow_ctl (by omega) (by omega) (by omega) (by decide)).symm, fun x hx => by cases hx⟩
theorem drain (h : Hdr) (y x : Nat) : Statement (.drain h y x) := of_word rfl (by decide) fun _ hf => by
  replace hf : (h.ok && decide (y < 64) && decide (x < 64)) = true := hf
  simp only [Bool.and_eq_true, decide_eq_true_eq] at hf
  exact ⟨(Hdr.ok_bounds hf.1.1).1, (Hdr.ok_bounds hf.1.1).2, v3_lt (by omega) (by omega) (by omega), (follow_ctl (by omega) (by omega) (by omega) (by decide)).symm, fun x hx => by cases hx⟩
theorem scanRun (h : Hdr) (y x : Nat) : Statement (.scanRun h y x) := of_word rfl (by decide) fun _ hf => by
  replace hf : (h.ok && decide (y < 64) && decide (x < 64)) = true := hf
  simp only [Bool.and_eq_true, decide_eq_true_eq] at hf
  exact ⟨(Hdr.ok_bounds hf.1.1).1, (Hdr.ok_bounds hf.1.1).2, v3_lt (by omega) (by omega) (by omega), (follow_ctl (by omega) (by omega) (by omega) (by decide)).symm, fun x hx => by cases hx⟩
theorem scanSig (h : Hdr) (y x : Nat) : Statement (.scanSig h y x) := of_word rfl (by decide) fun _ hf => by
  replace hf : (h.ok && decide (y < 64) && decide (x < 64)) = true := hf
  simp only [Bool.and_eq_true, decide_eq_true_eq] at hf
  exact ⟨(Hdr.ok_bounds hf.1.1).1, (Hdr.ok_bounds hf.1.1).2, v3_lt (by omega) (by omega) (by omega), (follow_ctl (by omega) (by omega) (by omega) (by decide)).symm, fun x hx => by cases hx⟩
theorem cmapSet (h : Hdr) (y x : Nat) : Statement (.cmapSet h y x) := of_word rfl (by decide) fun _ hf => by
  replace hf : (h.ok && decide (y < 64) && decide (x < 64)) = true := hf
  simp only [Bool.and_eq_true, decide_eq_true_eq] at hf
  exact ⟨(Hdr.ok_bounds hf.1.1).1, (Hdr.ok_bounds hf.1.1).2, v3_lt (by omega) (by omega) (by omega), (follow_ctl (by omega) (by omega) (by omega) (by decide)).symm, fun x hx => by cases hx⟩
theorem tqPop (h : Hdr) (y x : Nat) : Statement (.tqPop h y x) := of_word rfl (by decide) fun _ hf => by
  replace hf : (h.ok && decide (y < 64) && decide (x < 64)) = true := hf
  simp only [Bool.and_eq_true, decide_eq_true_eq] at hf
  exact ⟨(Hdr.ok_bounds hf.1.1).1, (Hdr.ok_bounds hf.1.1).2, v3_lt (by omega) (by omega) (by omega), (follow_ctl (by omega) (by omega) (by omega) (by decide)).symm, fun x hx => by cases hx⟩
theorem callx (h : Hdr) (a : Nat) : Statement (.callx h a) := of_word rfl (by decide) fun _ hf => by
  replace hf : (h.ok && decide (a < 64)) = true := hf
  simp only [Bool.and_eq_true, decide_eq_true_eq] at hf
  exact ⟨(Hdr.ok_bounds hf.1).1, (Hdr.ok_bounds hf.1).2, v3_lt (by omega) (by omega) (by omega), (follow_ctl (by omega) (by omega) (by omega) (by decide)).symm, fun x hx => by cases hx⟩
theorem ret (h : Hdr) : Statement (.ret h) := of_word rfl (by decide) fun _ hf => by
  replace hf : (h.ok) = true := hf
  exact ⟨(Hdr.ok_bounds hf).1, (Hdr.ok_bounds hf).2, v3_lt (by omega) (by omega) (by omega), (follow_ctl (by omega) (by omega) (by omega) (by decide)).symm, fun x hx => by cases hx⟩
theorem cpTensor (h : Hdr) (y x : Nat) : Statement (.cpTensor h y x) := of_plain rfl (by decide) rfl fun hf => by
  replace hf : (h.ok && decide (y < 64) && decide (x < 64)) = true := hf
  simp only [Bool.and_eq_true, decide_eq_true_eq] at hf
  exact ⟨(Hdr.ok_bounds hf.1.1).1, (Hdr.ok_bounds hf.1.1).2, v3_lt (by omega) (by omega) (by omega)⟩
theorem cpLin (h : Hdr) (x : Nat) : Statement (.cpLin h x) := of_plain rfl (by decide) rfl fun hf => by
  replace hf : (h.ok && decide (x < 64)) = true := hf
  simp only [Bool.and_eq_true, decide_eq_true_eq] at hf
  exact ⟨(Hdr.ok_bounds hf.1).1, (Hdr.ok_bounds hf.1).2, v3_lt (by omega) (by omega) (by omega)⟩
theorem cpGather (h : Hdr) (y x : Nat) : Statement (.cpGather h y x) := of_plain rfl (by decide) rfl fun hf => by
  replace hf : (h.ok && decide (y < 64) && decide (x < 64)) = true := hf
  simp only [Bool.and_eq_true, decide_eq_true_eq] at hf
  exact ⟨(Hdr.ok_bounds hf.1.1).1, (Hdr.ok_bounds hf.1.1).2, v3_lt (by omega) (by omega) (by omega)⟩
theorem cpScatter (h : Hdr) (y x : Nat) : Statement (.cpScatter h y x) := of_plain rfl (by decide) rfl fun hf => by
  replace hf : (h.ok && decide (y < 64) && decide (x < 64)) = true := hf
  simp only [Bool.and_eq_true, decide_eq_true_eq] at hf
  exact ⟨(Hdr.ok_bounds hf.1.1).1, (Hdr.ok_bounds hf.1.1).2, v3_lt (by omega) (by omega) (by omega)⟩
theorem cpFollow (h : Hdr) (a x : Nat) : Statement (.cpFollow h a x) := of_plain rfl (by decide) rfl fun hf => by
  replace hf : (h.ok && decide (a < 64) && decide (x < 64)) = true := hf
  simp only [Bool.and_eq_true, decide_eq_true_eq] at hf
  exact ⟨(Hdr.ok_bounds hf.1.1).1, (Hdr.ok_bounds hf.1.1).2, v3_lt (by omega) (by omega) (by omega)⟩
theorem cpCancel (h : Hdr) (x : Nat) : Statement (.cpCancel h x) := of_plain rfl (by decide) rfl fun hf => by
  replace hf : (h.ok && decide (x < 64)) = true := hf
  simp only [Bool.and_eq_true, decide_eq_true_eq] at hf
  exact ⟨(Hdr.ok_bounds hf.1).1, (Hdr.ok_bounds hf.1).2, v3_lt (by omega) (by omega) (by omega)⟩
theorem mxMma (h : Hdr) (y a : Nat) : Statement (.mxMma h y a) := of_plain rfl (by decide) rfl fun hf => by
  replace hf : (h.ok && decide (y < 64) && decide (a < 64)) = true := hf
  simp only [Bool.and_eq_true, decide_eq_true_eq] at hf
  exact ⟨(Hdr.ok_bounds hf.1.1).1, (Hdr.ok_bounds hf.1.1).2, v3_lt (by omega) (by omega) (by omega)⟩
theorem mxAcq (h : Hdr) (t : Nat) : Statement (.mxAcq h t) := of_plain rfl (by decide) rfl fun hf => by
  replace hf : (h.ok && decide (t < 64)) = true := hf
  simp only [Bool.and_eq_true, decide_eq_true_eq] at hf
  exact ⟨(Hdr.ok_bounds hf.1).1, (Hdr.ok_bounds hf.1).2, v3_lt (by omega) (by omega) (by omega)⟩
theorem mxRel (h : Hdr) (t : Nat) : Statement (.mxRel h t) := of_plain rfl (by decide) rfl fun hf => by
  replace hf : (h.ok && decide (t < 64)) = true := hf
  simp only [Bool.and_eq_true, decide_eq_true_eq] at hf
  exact ⟨(Hdr.ok_bounds hf.1).1, (Hdr.ok_bounds hf.1).2, v3_lt (by omega) (by omega) (by omega)⟩
theorem mxZero (h : Hdr) (y t : Nat) : Statement (.mxZero h y t) := of_plain rfl (by decide) rfl fun hf => by
  replace hf : (h.ok && decide (y < 64) && decide (t < 64)) = true := hf
  simp only [Bool.and_eq_true, decide_eq_true_eq] at hf
  exact ⟨(Hdr.ok_bounds hf.1.1).1, (Hdr.ok_bounds hf.1.1).2, v3_lt (by omega) (by omega) (by omega)⟩
theorem mxStraw (h : Hdr) (y t : Nat) : Statement (.mxStraw h y t) := of_plain rfl (by decide) rfl fun hf => by
  replace hf : (h.ok && decide (y < 64) && decide (t < 64)) = true := hf
  simp only [Bool.and_eq_true, decide_eq_true_eq] at hf
  exact ⟨(Hdr.ok_bounds hf.1.1).1, (Hdr.ok_bounds hf.1.1).2, v3_lt (by omega) (by omega) (by omega)⟩
theorem mxAddraw (h : Hdr) (y t : Nat) : Statement (.mxAddraw h y t) := of_plain rfl (by decide) rfl fun hf => by
  replace hf : (h.ok && decide (y < 64) && decide (t < 64)) = true := hf
  simp only [Bool.and_eq_true, decide_eq_true_eq] at hf
  exact ⟨(Hdr.ok_bounds hf.1.1).1, (Hdr.ok_bounds hf.1.1).2, v3_lt (by omega) (by omega) (by omega)⟩
theorem mxStat (h : Hdr) (y t : Nat) : Statement (.mxStat h y t) := of_plain rfl (by decide) rfl fun hf => by
  replace hf : (h.ok && decide (y < 64) && decide (t < 64)) = true := hf
  simp only [Bool.and_eq_true, decide_eq_true_eq] at hf
  exact ⟨(Hdr.ok_bounds hf.1.1).1, (Hdr.ok_bounds hf.1.1).2, v3_lt (by omega) (by omega) (by omega)⟩
theorem mxApf (h : Hdr) (x : Nat) : Statement (.mxApf h x) := of_plain rfl (by decide) rfl fun hf => by
  replace hf : (h.ok && decide (x < 64)) = true := hf
  simp only [Bool.and_eq_true, decide_eq_true_eq] at hf
  exact ⟨(Hdr.ok_bounds hf.1).1, (Hdr.ok_bounds hf.1).2, v3_lt (by omega) (by omega) (by omega)⟩
theorem mxAinv (h : Hdr) (x : Nat) : Statement (.mxAinv h x) := of_plain rfl (by decide) rfl fun hf => by
  replace hf : (h.ok && decide (x < 64)) = true := hf
  simp only [Bool.and_eq_true, decide_eq_true_eq] at hf
  exact ⟨(Hdr.ok_bounds hf.1).1, (Hdr.ok_bounds hf.1).2, v3_lt (by omega) (by omega) (by omega)⟩
theorem mxAqry (h : Hdr) (y x : Nat) : Statement (.mxAqry h y x) := of_plain rfl (by decide) rfl fun hf => by
  replace hf : (h.ok && decide (y < 64) && decide (x < 64)) = true := hf
  simp only [Bool.and_eq_true, decide_eq_true_eq] at hf
  exact ⟨(Hdr.ok_bounds hf.1.1).1, (Hdr.ok_bounds hf.1.1).2, v3_lt (by omega) (by omega) (by omega)⟩
theorem smCfg (h : Hdr) (x : Nat) : Statement (.smCfg h x) := of_plain rfl (by decide) rfl fun hf => by
  replace hf : (h.ok && decide (x < 64)) = true := hf
  simp only [Bool.and_eq_true, decide_eq_true_eq] at hf
  exact ⟨(Hdr.ok_bounds hf.1).1, (Hdr.ok_bounds hf.1).2, v3_lt (by omega) (by omega) (by omega)⟩
theorem smKey (h : Hdr) (y m : Nat) : Statement (.smKey h y m) := of_plain rfl (by decide) rfl fun hf => by
  replace hf : (h.ok && decide (y < 64) && decide (m < 64)) = true := hf
  simp only [Bool.and_eq_true, decide_eq_true_eq] at hf
  exact ⟨(Hdr.ok_bounds hf.1.1).1, (Hdr.ok_bounds hf.1.1).2, v3_lt (by omega) (by omega) (by omega)⟩
theorem colRed (h : Hdr) (x : Nat) : Statement (.colRed h x) := of_plain rfl (by decide) rfl fun hf => by
  replace hf : (h.ok && decide (x < 64)) = true := hf
  simp only [Bool.and_eq_true, decide_eq_true_eq] at hf
  exact ⟨(Hdr.ok_bounds hf.1).1, (Hdr.ok_bounds hf.1).2, v3_lt (by omega) (by omega) (by omega)⟩
theorem cNop : Statement .cNop := of_parcel rfl fun _ => by decide
theorem atomAnd (h : Hdr) (o c a d : Nat) : Statement (.atomAnd h o c a d) := of_plain rfl (by decide) rfl fun hf => by
  replace hf : (h.okMem && decide (o < 4) && decide (c < 16) && decide (a < 32) && decide (d < 64)) = true := hf
  simp only [Bool.and_eq_true, decide_eq_true_eq] at hf
  exact ⟨(Hdr.okMem_bounds (n := o) hf.1.1.1.1 (by omega)).1, (Hdr.okMem_bounds (n := o) hf.1.1.1.1 (by omega)).2, ld_lt (by omega) (by omega) (by omega) (by omega)⟩
theorem atomOr (h : Hdr) (o c a d : Nat) : Statement (.atomOr h o c a d) := of_plain rfl (by decide) rfl fun hf => by
  replace hf : (h.okMem && decide (o < 4) && decide (c < 16) && decide (a < 32) && decide (d < 64)) = true := hf
  simp only [Bool.and_eq_true, decide_eq_true_eq] at hf
  exact ⟨(Hdr.okMem_bounds (n := o) hf.1.1.1.1 (by omega)).1, (Hdr.okMem_bounds (n := o) hf.1.1.1.1 (by omega)).2, ld_lt (by omega) (by omega) (by omega) (by omega)⟩
theorem atomXor (h : Hdr) (o c a d : Nat) : Statement (.atomXor h o c a d) := of_plain rfl (by decide) rfl fun hf => by
  replace hf : (h.okMem && decide (o < 4) && decide (c < 16) && decide (a < 32) && decide (d < 64)) = true := hf
  simp only [Bool.and_eq_true, decide_eq_true_eq] at hf
  exact ⟨(Hdr.okMem_bounds (n := o) hf.1.1.1.1 (by omega)).1, (Hdr.okMem_bounds (n := o) hf.1.1.1.1 (by omega)).2, ld_lt (by omega) (by omega) (by omega) (by omega)⟩
theorem atomSmin (h : Hdr) (o c a d : Nat) : Statement (.atomSmin h o c a d) := of_plain rfl (by decide) rfl fun hf => by
  replace hf : (h.okMem && decide (o < 4) && decide (c < 16) && decide (a < 32) && decide (d < 64)) = true := hf
  simp only [Bool.and_eq_true, decide_eq_true_eq] at hf
  exact ⟨(Hdr.okMem_bounds (n := o) hf.1.1.1.1 (by omega)).1, (Hdr.okMem_bounds (n := o) hf.1.1.1.1 (by omega)).2, ld_lt (by omega) (by omega) (by omega) (by omega)⟩
theorem atomSmax (h : Hdr) (o c a d : Nat) : Statement (.atomSmax h o c a d) := of_plain rfl (by decide) rfl fun hf => by
  replace hf : (h.okMem && decide (o < 4) && decide (c < 16) && decide (a < 32) && decide (d < 64)) = true := hf
  simp only [Bool.and_eq_true, decide_eq_true_eq] at hf
  exact ⟨(Hdr.okMem_bounds (n := o) hf.1.1.1.1 (by omega)).1, (Hdr.okMem_bounds (n := o) hf.1.1.1.1 (by omega)).2, ld_lt (by omega) (by omega) (by omega) (by omega)⟩
theorem atomUmin (h : Hdr) (o c a d : Nat) : Statement (.atomUmin h o c a d) := of_plain rfl (by decide) rfl fun hf => by
  replace hf : (h.okMem && decide (o < 4) && decide (c < 16) && decide (a < 32) && decide (d < 64)) = true := hf
  simp only [Bool.and_eq_true, decide_eq_true_eq] at hf
  exact ⟨(Hdr.okMem_bounds (n := o) hf.1.1.1.1 (by omega)).1, (Hdr.okMem_bounds (n := o) hf.1.1.1.1 (by omega)).2, ld_lt (by omega) (by omega) (by omega) (by omega)⟩
theorem drainPreempt (h : Hdr) (y x : Nat) : Statement (.drainPreempt h y x) := of_word rfl (by decide) fun _ hf => by
  replace hf : (h.ok && decide (y < 64) && decide (x < 64)) = true := hf
  simp only [Bool.and_eq_true, decide_eq_true_eq] at hf
  exact ⟨(Hdr.ok_bounds hf.1.1).1, (Hdr.ok_bounds hf.1.1).2, v3_lt (by omega) (by omega) (by omega), (follow_ctl (by omega) (by omega) (by omega) (by decide)).symm, fun x hx => by cases hx⟩
theorem drainClear (h : Hdr) (y x : Nat) : Statement (.drainClear h y x) := of_word rfl (by decide) fun _ hf => by
  replace hf : (h.ok && decide (y < 64) && decide (x < 64)) = true := hf
  simp only [Bool.and_eq_true, decide_eq_true_eq] at hf
  exact ⟨(Hdr.ok_bounds hf.1.1).1, (Hdr.ok_bounds hf.1.1).2, v3_lt (by omega) (by omega) (by omega), (follow_ctl (by omega) (by omega) (by omega) (by decide)).symm, fun x hx => by cases hx⟩
theorem scanRunAbort (h : Hdr) (y x : Nat) : Statement (.scanRunAbort h y x) := of_word rfl (by decide) fun _ hf => by
  replace hf : (h.ok && decide (y < 64) && decide (x < 64)) = true := hf
  simp only [Bool.and_eq_true, decide_eq_true_eq] at hf
  exact ⟨(Hdr.ok_bounds hf.1.1).1, (Hdr.ok_bounds hf.1.1).2, v3_lt (by omega) (by omega) (by omega), (follow_ctl (by omega) (by omega) (by omega) (by decide)).symm, fun x hx => by cases hx⟩
theorem cmapSetRemove (h : Hdr) (y x : Nat) : Statement (.cmapSetRemove h y x) := of_word rfl (by decide) fun _ hf => by
  replace hf : (h.ok && decide (y < 64) && decide (x < 64)) = true := hf
  simp only [Bool.and_eq_true, decide_eq_true_eq] at hf
  exact ⟨(Hdr.ok_bounds hf.1.1).1, (Hdr.ok_bounds hf.1.1).2, v3_lt (by omega) (by omega) (by omega), (follow_ctl (by omega) (by omega) (by omega) (by decide)).symm, fun x hx => by cases hx⟩
theorem smLdc (h : Hdr) (x : Nat) : Statement (.smLdc h x) := of_plain rfl (by decide) rfl fun hf => by
  replace hf : (h.ok && decide (x < 64)) = true := hf
  simp only [Bool.and_eq_true, decide_eq_true_eq] at hf
  exact ⟨(Hdr.ok_bounds hf.1).1, (Hdr.ok_bounds hf.1).2, v3_lt (by omega) (by omega) (by omega)⟩
theorem smLdb (h : Hdr) (x : Nat) : Statement (.smLdb h x) := of_plain rfl (by decide) rfl fun hf => by
  replace hf : (h.ok && decide (x < 64)) = true := hf
  simp only [Bool.and_eq_true, decide_eq_true_eq] at hf
  exact ⟨(Hdr.ok_bounds hf.1).1, (Hdr.ok_bounds hf.1).2, v3_lt (by omega) (by omega) (by omega)⟩
theorem smClamp (h : Hdr) (x : Nat) : Statement (.smClamp h x) := of_plain rfl (by decide) rfl fun hf => by
  replace hf : (h.ok && decide (x < 64)) = true := hf
  simp only [Bool.and_eq_true, decide_eq_true_eq] at hf
  exact ⟨(Hdr.ok_bounds hf.1).1, (Hdr.ok_bounds hf.1).2, v3_lt (by omega) (by omega) (by omega)⟩
theorem smInit (h : Hdr) (x : Nat) : Statement (.smInit h x) := of_plain rfl (by decide) rfl fun hf => by
  replace hf : (h.ok && decide (x < 64)) = true := hf
  simp only [Bool.and_eq_true, decide_eq_true_eq] at hf
  exact ⟨(Hdr.ok_bounds hf.1).1, (Hdr.ok_bounds hf.1).2, v3_lt (by omega) (by omega) (by omega)⟩
theorem smSweep (h : Hdr) (x : Nat) : Statement (.smSweep h x) := of_plain rfl (by decide) rfl fun hf => by
  replace hf : (h.ok && decide (x < 64)) = true := hf
  simp only [Bool.and_eq_true, decide_eq_true_eq] at hf
  exact ⟨(Hdr.ok_bounds hf.1).1, (Hdr.ok_bounds hf.1).2, v3_lt (by omega) (by omega) (by omega)⟩
theorem smRead (h : Hdr) (x : Nat) : Statement (.smRead h x) := of_plain rfl (by decide) rfl fun hf => by
  replace hf : (h.ok && decide (x < 64)) = true := hf
  simp only [Bool.and_eq_true, decide_eq_true_eq] at hf
  exact ⟨(Hdr.ok_bounds hf.1).1, (Hdr.ok_bounds hf.1).2, v3_lt (by omega) (by omega) (by omega)⟩
theorem smHlth (h : Hdr) (x : Nat) : Statement (.smHlth h x) := of_plain rfl (by decide) rfl fun hf => by
  replace hf : (h.ok && decide (x < 64)) = true := hf
  simp only [Bool.and_eq_true, decide_eq_true_eq] at hf
  exact ⟨(Hdr.ok_bounds hf.1).1, (Hdr.ok_bounds hf.1).2, v3_lt (by omega) (by omega) (by omega)⟩
theorem smBx (h : Hdr) (x : Nat) : Statement (.smBx h x) := of_plain rfl (by decide) rfl fun hf => by
  replace hf : (h.ok && decide (x < 64)) = true := hf
  simp only [Bool.and_eq_true, decide_eq_true_eq] at hf
  exact ⟨(Hdr.ok_bounds hf.1).1, (Hdr.ok_bounds hf.1).2, v3_lt (by omega) (by omega) (by omega)⟩
theorem colBcast (h : Hdr) (x : Nat) : Statement (.colBcast h x) := of_plain rfl (by decide) rfl fun hf => by
  replace hf : (h.ok && decide (x < 64)) = true := hf
  simp only [Bool.and_eq_true, decide_eq_true_eq] at hf
  exact ⟨(Hdr.ok_bounds hf.1).1, (Hdr.ok_bounds hf.1).2, v3_lt (by omega) (by omega) (by omega)⟩
theorem colGath (h : Hdr) (x : Nat) : Statement (.colGath h x) := of_plain rfl (by decide) rfl fun hf => by
  replace hf : (h.ok && decide (x < 64)) = true := hf
  simp only [Bool.and_eq_true, decide_eq_true_eq] at hf
  exact ⟨(Hdr.ok_bounds hf.1).1, (Hdr.ok_bounds hf.1).2, v3_lt (by omega) (by omega) (by omega)⟩
theorem cMov (d a : Nat) : Statement (.cMov d a) := of_parcel rfl fun hf => by
  replace hf : (decide (d < 64) && decide (a < 32)) = true := hf
  simp only [Bool.and_eq_true, decide_eq_true_eq] at hf
  omega
theorem cIadd (d a : Nat) : Statement (.cIadd d a) := of_parcel rfl fun hf => by
  replace hf : (decide (d < 64) && decide (a < 32)) = true := hf
  simp only [Bool.and_eq_true, decide_eq_true_eq] at hf
  omega
theorem cIsub (d a : Nat) : Statement (.cIsub d a) := of_parcel rfl fun hf => by
  replace hf : (decide (d < 64) && decide (a < 32)) = true := hf
  simp only [Bool.and_eq_true, decide_eq_true_eq] at hf
  omega
theorem cAnd (d a : Nat) : Statement (.cAnd d a) := of_parcel rfl fun hf => by
  replace hf : (decide (d < 64) && decide (a < 32)) = true := hf
  simp only [Bool.and_eq_true, decide_eq_true_eq] at hf
  omega
theorem cOr (d a : Nat) : Statement (.cOr d a) := of_parcel rfl fun hf => by
  replace hf : (decide (d < 64) && decide (a < 32)) = true := hf
  simp only [Bool.and_eq_true, decide_eq_true_eq] at hf
  omega
theorem cXor (d a : Nat) : Statement (.cXor d a) := of_parcel rfl fun hf => by
  replace hf : (decide (d < 64) && decide (a < 32)) = true := hf
  simp only [Bool.and_eq_true, decide_eq_true_eq] at hf
  omega
theorem cShl (d a : Nat) : Statement (.cShl d a) := of_parcel rfl fun hf => by
  replace hf : (decide (d < 64) && decide (a < 32)) = true := hf
  simp only [Bool.and_eq_true, decide_eq_true_eq] at hf
  omega
theorem cShr (d a : Nat) : Statement (.cShr d a) := of_parcel rfl fun hf => by
  replace hf : (decide (d < 64) && decide (a < 32)) = true := hf
  simp only [Bool.and_eq_true, decide_eq_true_eq] at hf
  omega
theorem cFadd (d a : Nat) : Statement (.cFadd d a) := of_parcel rfl fun hf => by
  replace hf : (decide (d < 64) && decide (a < 32)) = true := hf
  simp only [Bool.and_eq_true, decide_eq_true_eq] at hf
  omega
theorem cFmul (d a : Nat) : Statement (.cFmul d a) := of_parcel rfl fun hf => by
  replace hf : (decide (d < 64) && decide (a < 32)) = true := hf
  simp only [Bool.and_eq_true, decide_eq_true_eq] at hf
  omega
theorem cFsub (d a : Nat) : Statement (.cFsub d a) := of_parcel rfl fun hf => by
  replace hf : (decide (d < 64) && decide (a < 32)) = true := hf
  simp only [Bool.and_eq_true, decide_eq_true_eq] at hf
  omega
theorem cFmax (d a : Nat) : Statement (.cFmax d a) := of_parcel rfl fun hf => by
  replace hf : (decide (d < 64) && decide (a < 32)) = true := hf
  simp only [Bool.and_eq_true, decide_eq_true_eq] at hf
  omega
theorem cFmin (d a : Nat) : Statement (.cFmin d a) := of_parcel rfl fun hf => by
  replace hf : (decide (d < 64) && decide (a < 32)) = true := hf
  simp only [Bool.and_eq_true, decide_eq_true_eq] at hf
  omega
theorem cImul (d a : Nat) : Statement (.cImul d a) := of_parcel rfl fun hf => by
  replace hf : (decide (d < 64) && decide (a < 32)) = true := hf
  simp only [Bool.and_eq_true, decide_eq_true_eq] at hf
  omega
theorem cSra (d a : Nat) : Statement (.cSra d a) := of_parcel rfl fun hf => by
  replace hf : (decide (d < 64) && decide (a < 32)) = true := hf
  simp only [Bool.and_eq_true, decide_eq_true_eq] at hf
  omega
theorem ovf (gid : Nat) : Statement (.ovf gid) := of_none rfl
theorem accessComplete (gid path : Nat) : Statement (.accessComplete gid path) := of_none rfl
theorem splitMerge (gid : Nat) : Statement (.splitMerge gid) := of_none rfl
theorem heldLaneReturn (gid : Nat) : Statement (.heldLaneReturn gid) := of_none rfl
theorem pairCompare (gid : Nat) (differ : Bool) : Statement (.pairCompare gid differ) := of_none rfl
theorem drainQuiescent (core : Nat) : Statement (.drainQuiescent core) := of_none rfl
theorem scanEnd (core observed : Nat) : Statement (.scanEnd core observed) := of_none rfl
theorem firmwareScanAbort (core : Nat) : Statement (.firmwareScanAbort core) := of_none rfl
theorem sluiceCommandRun (bid ctx : Nat) : Statement (.sluiceCommandRun bid ctx) := of_none rfl
theorem copyCommandComplete (bid ctx num : Nat) : Statement (.copyCommandComplete bid ctx num) := of_none rfl
theorem followOnIssue (bid ctx : Nat) : Statement (.followOnIssue bid ctx) := of_none rfl
theorem mmaCommandStart (core part : Nat) : Statement (.mmaCommandStart core part) := of_none rfl
theorem kStep (core part : Nat) : Statement (.kStep core part) := of_none rfl
theorem adapterStage (core part : Nat) : Statement (.adapterStage core part) := of_none rfl
theorem adapterFillLand (die key : Nat) : Statement (.adapterFillLand die key) := of_none rfl
theorem adapterFillFail (die key : Nat) : Statement (.adapterFillFail die key) := of_none rfl
theorem mmaCommandComplete (core part : Nat) : Statement (.mmaCommandComplete core part) := of_none rfl
theorem samplingCommandRun (bid ctx : Nat) : Statement (.samplingCommandRun bid ctx) := of_none rfl
theorem colourStep (core : Nat) : Statement (.colourStep core) := of_none rfl
theorem bxLanding (bid ctx : Nat) : Statement (.bxLanding bid ctx) := of_none rfl
theorem arrayUnbind (core : Nat) : Statement (.arrayUnbind core) := of_none rfl
theorem collectiveComplete (bid ctx num : Nat) (peers : List PeerPart) : Statement (.collectiveComplete bid ctx num peers) := of_none rfl
theorem handlerEntry (gid : Nat) : Statement (.handlerEntry gid) := of_none rfl
theorem regionRestart (gid : Nat) : Statement (.regionRestart gid) := of_none rfl
theorem deferredRecordEnqueue (die : Nat) : Statement (.deferredRecordEnqueue die) := of_none rfl
theorem tqractResume : Statement .tqractResume := of_none rfl
theorem tqractKill : Statement .tqractKill := of_none rfl
theorem containPartition (core part : Nat) : Statement (.containPartition core part) := of_none rfl
theorem containSluice (die sluice : Nat) : Statement (.containSluice die sluice) := of_none rfl
theorem containMatrixArray (core part : Nat) : Statement (.containMatrixArray core part) := of_none rfl
theorem containSamplingArray (core : Nat) : Statement (.containSamplingArray core) := of_none rfl
theorem containCollectiveEngine (die : Nat) : Statement (.containCollectiveEngine die) := of_none rfl
theorem containDieLink (die other : Nat) : Statement (.containDieLink die other) := of_none rfl
theorem containShagalPort (port : Nat) : Statement (.containShagalPort port) := of_none rfl
theorem containResetEnd : Statement .containResetEnd := of_none rfl
theorem keyerase (cmd : Nat) : Statement (.keyerase cmd) := of_none rfl
theorem securityAlarm (source : Nat) : Statement (.securityAlarm source) := of_none rfl
theorem tlbInvalidate (core : Nat) : Statement (.tlbInvalidate core) := of_none rfl
theorem tlbInvalidateDone (core : Nat) : Statement (.tlbInvalidateDone core) := of_none rfl
theorem adirWrite (reg value : Nat) : Statement (.adirWrite reg value) := of_none rfl
theorem smctlWrite (core value : Nat) : Statement (.smctlWrite core value) := of_none rfl
theorem fabidWrite (value : Nat) : Statement (.fabidWrite value) := of_none rfl
theorem tickperWrite (value : Nat) : Statement (.tickperWrite value) := of_none rfl
theorem tickloRead (gid d : Nat) : Statement (.tickloRead gid d) := of_none rfl
theorem exchangeTick : Statement .exchangeTick := of_none rfl
theorem tickFlitsApply : Statement .tickFlitsApply := of_none rfl
theorem ptpLock (tick : Nat) : Statement (.ptpLock tick) := of_none rfl
theorem mirrorEnable : Statement .mirrorEnable := of_none rfl
theorem mirrorResyncDone : Statement .mirrorResyncDone := of_none rfl
theorem mirrorAck : Statement .mirrorAck := of_none rfl
theorem peerAccess (rank tick : Nat) (acc : PeerAcc) : Statement (.peerAccess rank tick acc) := of_none rfl
theorem portPartnerDetect (port : Nat) : Statement (.portPartnerDetect port) := of_none rfl
theorem portTrainPass (port : Nat) : Statement (.portTrainPass port) := of_none rfl
theorem portTrainTimeout (port : Nat) : Statement (.portTrainTimeout port) := of_none rfl
theorem portRecoverEnter (port : Nat) : Statement (.portRecoverEnter port) := of_none rfl
theorem portRecoverDone (port : Nat) : Statement (.portRecoverDone port) := of_none rfl
theorem portRecoverFail (port : Nat) : Statement (.portRecoverFail port) := of_none rfl
theorem flitReplay (port : Nat) : Statement (.flitReplay port) := of_none rfl
theorem dieLinkRetry (die other : Nat) : Statement (.dieLinkRetry die other) := of_none rfl
theorem inletWrite (q : Nat) (bytes : List Byte) : Statement (.inletWrite q bytes) := of_none rfl
theorem outletWrite (q : Nat) : Statement (.outletWrite q) := of_none rfl
theorem outconsWrite (q value : Nat) : Statement (.outconsWrite q value) := of_none rfl
theorem hostApertureAccess (acc : HostAcc) : Statement (.hostApertureAccess acc) := of_none rfl
theorem attestationRequest (nonce : List Byte) : Statement (.attestationRequest nonce) := of_none rfl
theorem provisioningCommand (signed : Bool) : Statement (.provisioningCommand signed) := of_none rfl
theorem powerUp (img : BootImage) : Statement (.powerUp img) := of_none rfl
theorem moduleReset : Statement .moduleReset := of_none rfl
theorem headgateFault (die : Nat) : Statement (.headgateFault die) := of_none rfl
theorem controlGridRestart : Statement .controlGridRestart := of_none rfl
theorem thermalThrottle (celsius khz : Nat) : Statement (.thermalThrottle celsius khz) := of_none rfl
theorem correctableError (die : Nat) : Statement (.correctableError die) := of_none rfl
theorem uncorrectableError (die : Nat) (u : ErrUnit) : Statement (.uncorrectableError die u) := of_none rfl
theorem gridAdmit (grid : Nat) : Statement (.gridAdmit grid) := of_none rfl
theorem blockBind (grid blk : Nat) (cores : List Nat) : Statement (.blockBind grid blk cores) := of_none rfl
theorem groupSlotRelease (gid : Nat) : Statement (.groupSlotRelease gid) := of_none rfl
theorem tileUnbind (core tile : Nat) : Statement (.tileUnbind core tile) := of_none rfl
theorem gridComplete (grid : GridEnd) : Statement (.gridComplete grid) := of_none rfl
theorem preemptRequest (bid : Nat) : Statement (.preemptRequest bid) := of_none rfl
theorem drainToSave (bid : Nat) : Statement (.drainToSave bid) := of_none rfl
theorem preemptionSave (bid : Nat) : Statement (.preemptionSave bid) := of_none rfl
theorem flushAndRestart (bid : Nat) : Statement (.flushAndRestart bid) := of_none rfl
theorem unitRestore (bid : Nat) (cores : List Nat) : Statement (.unitRestore bid cores) := of_none rfl
theorem watchdog (gid : Nat) : Statement (.watchdog gid) := of_none rfl
theorem remoteTimeout (gid slot : Nat) : Statement (.remoteTimeout gid slot) := of_none rfl
theorem powerLoss : Statement .powerLoss := of_none rfl
theorem powerLimitClock (khz : Nat) : Statement (.powerLimitClock khz) := of_none rfl
theorem adapterKeyEvict (die key : Nat) : Statement (.adapterKeyEvict die key) := of_none rfl
theorem tlbEntryDrop (shared : Bool) (unit va : Nat) : Statement (.tlbEntryDrop shared unit va) := of_none rfl
theorem firmwareUpdateRequest (signed : Bool) : Statement (.firmwareUpdateRequest signed) := of_none rfl

end Sys2Proof.Laws.Coded
end

