-- ==== Sys2Proof/Laws/ScalarWrites.lean ====
section
/-! SUPPORT. What a scalar-class instruction that writes scalar registers leaves: all of it, once. -/

namespace Sys2Proof.Machine

open Sys2Proof

/-- Scalar registers written one after another. -/
def State.setSs (s : State) (ws : List (Nat × Word)) : State := ws.foldl (fun t w => t.setS w.1 w.2) s

@[simp] theorem State.setSs_one (s : State) (d : Nat) (x : Word) : s.setSs [(d, x)] = s.setS d x := rfl
@[simp] theorem State.setSs_two (s : State) (d e : Nat) (x y : Word) : s.setSs [(d, x), (e, y)] = (s.setS d x).setS e y := rfl
theorem State.setS2_eq (s : State) (d n : Nat) : s.setS2 d n = s.setSs [(d, loW n), (d + 1, hiW n)] := rfl

theorem State.setSs_spec (ws : List (Nat × Word)) (hn : (ws.map Prod.fst).Nodup) (s : State) :
    let t := s.setSs ws
    t.cur = s.cur ∧ ({ t with groups := s.groups } = s) ∧ (∀ k, k ≠ s.cur.gid → t.g k = s.g k) ∧
      ({ t.cg with sr := s.cg.sr, spo := s.cg.spo } = s.cg) ∧
      (∀ r x, (r, x) ∈ ws → t.cg.sr.get r = x ∧ t.cg.spo.get r = false) ∧
      (∀ r, r ∉ ws.map Prod.fst → t.cg.sr.get r = s.cg.sr.get r ∧ t.cg.spo.get r = s.cg.spo.get r) := by
  induction ws generalizing s with
  | nil => simp [State.setSs]
  | cons a ws ih =>
    obtain ⟨d, x⟩ := a
    simp only [List.map_cons, List.nodup_cons] at hn
    have h := ih hn.2 (s.setS d x)
    simp only [State.setSs, List.foldl_cons] at h ⊢
    obtain ⟨ha, hb, hc, hd, he, hf⟩ := h
    have hg : (s.setS d x).cg = s.cg.setS d x := State.updCG_cg _ _
    rw [hg] at hd hf
    refine ⟨ha, congrArg (fun u : State => { u with groups := s.groups }) hb,
      fun k hk => (hc k hk).trans (State.updCG_g_ne s _ k hk),
      congrArg (fun u : Group => { u with sr := s.cg.sr, spo := s.cg.spo }) hd, fun r y hr => ?_, fun r hr => ?_⟩
    · rcases List.mem_cons.1 hr with h | h
      · obtain ⟨rfl, rfl⟩ := Prod.mk.inj h
        rw [(hf r hn.1).1, (hf r hn.1).2]
        exact ⟨SMap.get_put_self _ _ _, SMap.get_put_self s.cg.spo r false⟩
      · exact he r y h
    · simp only [List.map_cons, List.mem_cons, not_or] at hr
      rw [(hf r hr.2).1, (hf r hr.2).2]
      exact ⟨SMap.get_put_ne _ _ hr.1, SMap.get_put_ne s.cg.spo false hr.1⟩

/-- After advancing, writing some scalar registers is exactly that step. -/
theorem setSs_step {s : State} (hi : s.hasIssuer = true) {ws : List (Nat × Word)} (hn : (ws.map Prod.fst).Nodup) :
    ScalarStep ws s (s.beginIssue.advance.setSs ws) := by
  obtain ⟨ha, hb, hc, hd, he, hf⟩ := State.setSs_spec ws hn s.beginIssue.advance
  have hsr : s.beginIssue.advance.cg.sr = s.cg.sr := by simp [State.advance_cg]
  have hsp : s.beginIssue.advance.cg.spo = s.cg.spo := by simp [State.advance_cg]
  constructor
  · refine ⟨?_, fun k hk => (hc k hk).trans (State.advance_g_ne s.beginIssue k hk), fun a => ?_⟩
    · have := congrArg (fun x : State => { x with groups := s.groups, cur := s.cur }) hb
      exact this
    · have := congrArg (fun x : State => x.devByte a) hb
      exact this
  · have := congrArg Group.splits hd
    exact State.advanced_of_splits hi ha this
  · exact he
  · intro r hr
    rw [(hf r hr).1, (hf r hr).2, hsr, hsp]
    exact ⟨rfl, rfl⟩
  · have := congrArg (fun g : Group => { g with sr := s.cg.sr, spo := s.cg.spo, splits := s.cg.splits }) hd
    refine this.trans ?_
    rw [State.advance_cg]
    rfl

/-- An instruction of the scalar unit that writes one register. -/
theorem setS_step {i : Instr} {h : Hdr} {d : Nat} {f : State → Word} {s : State} (hc : scalarClean i h s) :
    ∃ t, perform s (scalarOnly i h fun u => u.setS d (f u)) = .next t ∧ ScalarStep [(d, f s.beginIssue.advance)] s t :=
  ⟨_, scalarOnly_clean hc, setSs_step hc.1 (ws := [(d, f s.beginIssue.advance)]) (by simp)⟩

/-- An instruction of the scalar unit that writes a pair. -/
theorem setS2_step {i : Instr} {h : Hdr} {d : Nat} {f : State → Nat} {s : State} (hc : scalarClean i h s) :
    ∃ t, perform s (scalarOnly i h fun u => u.setS2 d (f u)) = .next t ∧
      ScalarStep [(d, loW (f s.beginIssue.advance)), (d + 1, hiW (f s.beginIssue.advance))] s t :=
  ⟨_, scalarOnly_clean hc,
    setSs_step hc.1 (ws := [(d, loW (f s.beginIssue.advance)), (d + 1, hiW (f s.beginIssue.advance))]) (by simp)⟩

end Sys2Proof.Machine
end

