-- ==== Sys2Proof/Tests/Slice0.lean ====
section
/-! SUPPORT. Tests: ill-formed terms that the checks refuse, words that the spec writes out, single steps on small states,
and, for every statement with hypotheses, states and operands that meet them. Each expected value comes from the rule or the
worked example of the spec that the test names. -/

namespace Sys2Proof.Tests

open Sys2Proof Sys2Proof.Machine Sys2Proof.Claims

set_option Elab.async false

/-! ### Well-formed instructions -/

/-- A register number that its six bits cannot hold (R45). -/
theorem test_wf_field : wfError (.iadd .plain 64 1 2) = some .field := by decide
/-- An unguarded word names a guard (R42). -/
theorem test_wf_guard : wfError (.iadd ⟨false, true, 3, 0⟩ 1 2 3) = some .field := by decide
/-- An odd pair (R46). -/
theorem test_wf_register : wfError (.sAdd64 .plain 3 4) = some .register := by decide
/-- A shift immediate above 31 (R171). -/
theorem test_wf_range : wfError (.shli .plain 3 32) = some .range := by decide
/-- A reserved size of a load (R188). -/
theorem test_wf_reserved : wfError (.ld .plain 0 0 7 2 4) = some .reserved := by decide
/-- A special register that may not be written (R115). -/
theorem test_wf_readOnly : wfError (.sSetsr .plain 3 0) = some .readOnly := by decide
/-- A well-formed one. -/
theorem test_wf_good : wfError (.iadd ⟨true, true, 3, 2⟩ 63 1 2) = none := by decide

/-! ### Decoding -/

/-- The words that the statement of the example words lists (R152-R295, each from its entry's example). -/
theorem test_decode_examples : Obligations.ExampleWords := by unfold Obligations.ExampleWords; decide +kernel
/-- 02_encoding.md: BRA to 2 x 8 bytes on, the guarded form with GS = 0 on p2, and a MBR with two arms (R100, worked example). -/
theorem test_decode_branches : decodeTableWord 32 0x00020039 = some (.bra .plain 8) ∧
    decodeTableWord 96 0x0003802700028005_0C20003D = some (.mbr .plain [⟨10, false, 2⟩, ⟨14, true, 3⟩]) := by decide +kernel
/-- 03_control.md: JOIN, EXIT, YIELD, NOP and RET as R98 to R104 write them. -/
theorem test_decode_control : decodeTableWord 32 0x1000003D = some (.join .plain) ∧
    decodeTableWord 32 0x0400003D = some (.exit .plain) ∧ decodeTableWord 32 0x1400003D = some (.yield .plain) ∧
    decodeTableWord 32 0x0000003D = some (.nop .plain) ∧ decodeTableWord 32 0xB800003D = some (.ret .plain) := by decide +kernel
/-- 05_numbers.md R152: CVT.F32.BF16 with a rounding field raises ILLEGAL. -/
theorem test_decode_rounding : decodeTableWord 32 0x1840C019 = some (.cvtF32Bf16 .plain 3 4) ∧
    decodeTableWord 32 0x5840C019 = none := by decide +kernel
/-- 03_control.md: the backward guarded BRA of the worked example at 0x000E. -/
theorem test_decode_backward : decodeTableWord 32 0xFFFF6339 = some (.bra ⟨true, true, 1, 0⟩ 0x3FFFD) := by decide +kernel
/-- 04_scalar.md, 06_lane.md and 05_numbers.md: words of their programs and entries. -/
theorem test_decode_scalar : decodeTableWord 32 0x0507002B = some (.sMovi .plain 28 40) ∧
    decodeTableWord 32 0xC02E0029 = some (.sPset .plain 56 1) ∧ decodeTableWord 32 0x512E0029 = some (.sSeq .plain 56 9) ∧
    decodeTableWord 32 0x03010025 = some (.movi .plain 4 3) ∧ decodeTableWord 32 0x9450003D = some (.srseed .plain 5) ∧
    decodeTableWord 32 0x1C80003D = some (.pset .plain 8) := by decide +kernel
/-- 07_memory.md and 08_ordering.md: acquiring and releasing scalar accesses, tags, atomics, WAITC and TLREAD. -/
theorem test_decode_memory : decodeTableWord 32 0x981140B7 = some (.sLdAcqW .plain 2 69 64) ∧
    decodeTableWord 32 0x8051803D = some (.tagL .plain 6 5) ∧ decodeTableWord 32 0x4803003D = some (.waitc .plain 12 0) ∧
    decodeTableWord 32 0x5105003D = some (.tlread .plain 20 16) := by decide +kernel
/-- 09_sluices.md and 10_matrix.md. -/
theorem test_decode_engines : decodeTableWord 32 0x00C6003F = some (.cpTensor .plain 24 12) ∧
    decodeTableWord 32 0x0480003F = some (.cpLin .plain 8) ∧ decodeTableWord 32 0x0941003F = some (.cpGather .plain 4 20) ∧
    decodeTableWord 32 0x2C01403F = some (.mxZero .plain 5 0) ∧ decodeTableWord 32 0x3022803F = some (.mxStraw .plain 10 2) ∧
    decodeTableWord 32 0x3813003F = some (.mxStat .plain 12 1) ∧ decodeTableWord 32 0x4461C03F = some (.mxAqry .plain 7 6) ∧
    decodeTableWord 32 0x13F100D3 = some (.mxRd ⟨false, false, 0, 3⟩ 0 1 0 63 4) := by decide +kernel
/-- 11_sampling.md R311: SM.CFG s8, SM.KEY 1, s20, SM.SWEEP s24 and SM.BX s32; 14_fabric.md R398: the collectives. -/
theorem test_decode_sampling : decodeTableWord 32 0x5040003F = some (.smCfg .plain 4) ∧
    decodeTableWord 32 0x6412803F = some (.smKey .plain 10 1) ∧ decodeTableWord 32 0x68C0003F = some (.smSweep .plain 12) ∧
    decodeTableWord 32 0x7500003F = some (.smBx .plain 16) ∧ decodeTableWord 32 0x8080003F = some (.colRed .plain 8) ∧
    decodeTableWord 32 0x84C0003F = some (.colBcast .plain 12) := by decide +kernel
/-- 12_launch.md: barriers, stage barriers, the furrow, messages and joins. -/
theorem test_decode_launch : decodeTableWord 32 0x2C32803D = some (.bar .plain 10 3) ∧
    decodeTableWord 32 0x3400003D = some (.cbar .plain) ∧ decodeTableWord 32 0x3945403D = some (.sbInit .plain 21 20) ∧
    decodeTableWord 32 0x4545C03D = some (.sbTest .plain 23 20) ∧ decodeTableWord 32 0x6CC0003D = some (.wqNext .plain 12) ∧
    decodeTableWord 32 0x7C41403D = some (.joinw .plain 5 4) ∧ decodeTableWord 32 0x7041403D = some (.recv .plain 5 4) ∧
    decodeTableWord 32 0x1800003D = some (.trig .plain) := by decide +kernel
/-- 13_traps.md: TRAP 0x123, TRET, REGION, PCHK, DRAIN, SCAN.RUN, SCAN.SIG and CMAP.SET. -/
theorem test_decode_traps : decodeTableWord 32 0x5848C03D = some (.trap .plain 0x123) ∧
    decodeTableWord 32 0x5C00003D = some (.tret .plain) ∧ decodeTableWord 32 0x6000003D = some (.region .plain) ∧
    decodeTableWord 32 0x9C50803D = some (.pchk .plain 2 5) ∧ decodeTableWord 32 0xA041403D = some (.drain .plain 5 4) ∧
    decodeTableWord 32 0xA441803D = some (.scanRun .plain 6 4) ∧ decodeTableWord 32 0xA842003D = some (.scanSig .plain 8 4) ∧
    decodeTableWord 32 0xAC41803D = some (.cmapSet .plain 6 4) := by decide +kernel

/-! ### States for the tests -/

/-- One privileged group of 32 lanes on core 0, about to issue at offset 0; VA 0 to 2^29 is one identity page. -/
noncomputable def base : State :=
  let s := (State.reset.withFetchWord 32 1).point 1 0
  { s with cur := { s.cur with next := 4, lanes := allLanes } }
/-- The issuing group changed. -/
def withG (s : State) (f : Group → Group) : State := s.updCG f
/-- Scalar registers set. -/
def withS (s : State) (rs : List (Nat × Nat)) : State := rs.foldl (fun s x => s.setS x.1 (BitVec.ofNat 32 x.2)) s
/-- Vector registers of some lanes set. -/
def withV (s : State) (rs : List (Nat × Nat × Nat)) : State :=
  rs.foldl (fun s x => s.setV x.1 x.2.1 (BitVec.ofNat 32 x.2.2) false) s
/-- What is left of a next state. -/
def ran {α : Type} (o : Host.Outcome State Fault Refusal) (f : State → α) : Option α :=
  match o with
  | .next t => some (f t)
  | _ => none
/-- A guard on p1 that holds where it is true. -/
def onP1 : Hdr := ⟨true, false, 1, 0⟩

theorem lane_of {i : Instr} {h : Hdr} {s : State} (x : s.hasIssuer = true ∧ s.wordTrap i = none ∧
    (h.ge = true → ∀ l, l < 32 → inMask (s.liveS &&& s.cur.lanes &&& s.cg.mmask) l = true → s.pp h.gp l = false) ∧
    (s.laneActive h = 0#32 ∨ ∀ r, r ∈ (uses i).rs → s.sp r = false)) : laneClean i h s := x
theorem scalar_of {i : Instr} {h : Hdr} {s : State} (x : s.hasIssuer = true ∧ s.wordTrap i = none ∧
    (h.ge = true → ∀ l, l < 32 → inMask (s.liveS &&& s.cg.mmask) l = true → s.pp h.gp l = false) ∧
    s.scalarGuard h = true ∧ ∀ r, r ∈ (uses i).rs → s.sp r = false) : scalarClean i h s := x
theorem ctl_of {i : Instr} {h : Hdr} {named : State → LaneMask} {s : State} (x : s.hasIssuer = true ∧ s.wordTrap i = none ∧
    (h.ge = true → ∀ l, l < 32 → inMask (named s) l = true → s.pp h.gp l = false)) : ctlClean i h named s := x

/-- Whether an instruction meets no trap of its word in `base`, and reads no poison there. -/
noncomputable def easy (i : Instr) : Bool := decide (base.wordTrap i = none) && (uses i).rs.all fun r => !base.sp r
theorem base_runs : base.hasIssuer = true ∧ base.scalarGuard .plain = true ∧ base.xReady = true ∧
    base.laneActive .plain = 0xFFFFFFFF#32 := by decide +kernel
theorem easy_word {is : List Instr} (x : is.all easy = true) {i : Instr} (m : i ∈ is) :
    base.wordTrap i = none ∧ ∀ r, r ∈ (uses i).rs → base.sp r = false := by
  have y := List.all_eq_true.mp x i m
  simpa [easy] using y
theorem lanes_of {is : List Instr} (x : is.all easy = true) : ∀ i ∈ is, laneClean i .plain base := fun _ m =>
  ⟨base_runs.1, (easy_word x m).1, nofun, .inr (easy_word x m).2⟩
theorem scalars_of {is : List Instr} (x : is.all easy = true) : ∀ i ∈ is, scalarClean i .plain base := fun _ m =>
  ⟨base_runs.1, (easy_word x m).1, nofun, base_runs.2.1, (easy_word x m).2⟩
theorem crosses_of {is : List Instr} (x : is.all easy = true) : ∀ i ∈ is, crossClean i .plain base := fun i m =>
  ⟨scalars_of x i m, base_runs.2.2.1⟩

/-! ### Witnesses: states and operands that meet the hypotheses of the statements -/

theorem test_wit_LaneIntegerThreeOperands : ∀ i ∈ ([.iadd .plain 3 1 2, .isub .plain 3 1 2, .imad .plain 3 1 2, .and .plain 3 1 2,
    .or .plain 63 1 2] : List Instr), laneClean i .plain base := lanes_of (by decide +kernel)
/-- A guarded instruction of which only lane 5 passes. -/
theorem test_wit_guarded : laneClean (.iadd onP1 3 1 2) onP1 (base.setP 1 5 true) ∧
    (base.setP 1 5 true).laneActive onP1 = laneBit 5 := ⟨lane_of (by decide +kernel), by decide +kernel⟩
theorem test_wit_CompactForms : (∀ i ∈ ([.iadd .plain 1 1 2, .isub .plain 1 1 2, .and .plain 1 1 2, .or .plain 1 1 2,
    .xor .plain 1 2, .shl .plain 1 2, .shr .plain 1 2, .sra .plain 1 2, .mul .plain 1 2, .fadd .plain 1 1 2, .fmul .plain 1 1 2,
    .fsub .plain 1 2, .fmax .plain 1 2, .fmin .plain 1 31, .mov .plain 1 2, .cNop] : List Instr), laneClean i .plain base) ∧
    ¬ (1 = 0 ∧ 2 = 0) ∧ 31 < 32 := ⟨lanes_of (by decide +kernel), by decide, by decide⟩
theorem test_wit_CrossVotesAndReductions : ∀ i ∈ ([.voteany .plain 1 2, .voteall .plain 1 2, .ballot .plain 1 2,
    .redadd .plain 1 2, .redfadd .plain 1 2, .redfmax .plain 1 2, .redmaxs .plain 1 2, .amax .plain 63 2] : List Instr),
    crossClean i .plain base := crosses_of (by decide +kernel)
theorem test_wit_CrossScansAndSelections : (∀ i ∈ ([.scanadd .plain 1 2, .scanfadd .plain 1 2, .matchEq .plain 1 2,
    .elect .plain 1, .rdlane .plain 1 2, .shfl .plain 1 2] : List Instr), crossClean i .plain base) ∧
    (∀ i ∈ ([.setmm .plain 1, .getmm .plain 1] : List Instr), scalarClean i .plain base) ∧
    base.active .plain = 0xFFFFFFFF#32 ∧ (withG base fun g => { g with mmask := 0#32 }).active .plain = 0#32 :=
  ⟨crosses_of (by decide +kernel), scalars_of (by decide +kernel), by decide +kernel, by decide +kernel⟩
theorem test_wit_ScalarArithmetic : ∀ i ∈ ([.sMov .plain 1 2, .sAdd .plain 1 2, .sSub .plain 1 2, .sMul .plain 1 2,
    .sMulhu .plain 1 2, .sAnd .plain 1 2, .sOr .plain 1 2, .sXor .plain 1 2, .sShl .plain 1 2, .sShr .plain 1 2, .sSra .plain 1 2,
    .sMin .plain 1 2, .sMax .plain 1 2, .sMinu .plain 1 2, .sMaxu .plain 1 2, .sSlt .plain 1 2, .sSltu .plain 1 2, .sSeq .plain 1 2,
    .sNot .plain 1 2, .sNeg .plain 1 2, .sClz .plain 1 2, .sPopc .plain 127 2] : List Instr), scalarClean i .plain base :=
  scalars_of (by decide +kernel)
theorem test_wit_ScalarPairsAndImmediates : (∀ i ∈ ([.sAdd64 .plain 2 4, .sSub64 .plain 2 4, .sLea .plain 2 5, .sLeas .plain 2 5,
    .sAddi64 .plain 126 127, .sMovi .plain 1 127, .sAddi .plain 1 5, .sAndi .plain 1 5, .sOri .plain 1 5, .sXori .plain 1 5,
    .sMuli .plain 1 5, .sSlti .plain 1 5, .sShli .plain 1 31, .sShri .plain 1 31, .sSrai .plain 1 31, .sLit .plain 1 4294967295,
    .sLit64 .plain 2 3 4] : List Instr), scalarClean i .plain base) ∧ 31 < 32 := ⟨scalars_of (by decide +kernel), by decide⟩
theorem test_wit_PredicatesAndCompares : (∀ i ∈ ([.psetv .plain 1 2, .pgetv .plain 1 2, .pand .plain 1 2, .por .plain 1 2,
    .pxor .plain 1 2, .pnot .plain 1 2, .pmov .plain 1 2, .cmpI32 .plain 1 0 2 3, .cmpI32 .plain 1 1 2 3, .cmpI32 .plain 1 2 2 3,
    .cmpI32 .plain 15 3 2 3, .cmpUi32 .plain 1 0 2 3, .cmpUi32 .plain 1 1 2 3, .cmpUi32 .plain 1 2 2 3, .cmpUi32 .plain 1 3 2 3,
    .cmpF32 .plain 1 0 2 3, .cmpF32 .plain 1 1 2 3, .cmpF32 .plain 1 2 2 3, .cmpF32 .plain 1 3 2 3] : List Instr),
    laneClean i .plain base) ∧ (fv 0x7FC00001#32 = .nan ∨ fv 0#32 = .nan) := ⟨lanes_of (by decide +kernel), by decide +kernel⟩
theorem test_wit_LaneIntegerShortForms : (∀ i ∈ ([.xor .plain 1 2, .shl .plain 1 2, .shr .plain 1 2, .sra .plain 1 2,
    .mul .plain 1 2, .mulhs .plain 1 2, .mulhu .plain 1 2, .mins .plain 1 2, .maxs .plain 1 2, .minu .plain 1 2, .maxu .plain 1 2,
    .andn .plain 1 2, .not .plain 1 2, .neg .plain 1 2, .abs .plain 1 2, .clz .plain 1 2, .popc .plain 1 2, .brev .plain 1 2,
    .mov .plain 1 2, .bcast .plain 1 2, .lane .plain 1, .movi .plain 1 255, .addi .plain 1 2, .andi .plain 1 2, .ori .plain 1 2,
    .xori .plain 1 2, .muli .plain 1 2, .inshi .plain 1 2, .shli .plain 1 31, .shri .plain 1 31, .srai .plain 1 31] : List Instr),
    laneClean i .plain base) ∧ 31 < 32 := ⟨lanes_of (by decide +kernel), by decide⟩
theorem test_wit_LaneFloat : ∀ i ∈ ([.fadd .plain 1 2 3, .fmul .plain 1 2 3, .ffma .plain 1 2 3, .fsub .plain 1 2, .fmin .plain 1 2,
    .fmax .plain 1 2, .fabs .plain 1 2, .fneg .plain 1 2, .hadd2 .plain 1 2, .hmul2 .plain 1 2, .hmax2 .plain 1 2, .rndn .plain 1 2,
    .rndz .plain 1 2, .rndd .plain 1 2, .rndu .plain 1 2, .rcp .plain 1 2, .rsq .plain 1 2, .sqrt .plain 1 2, .exp2 .plain 1 2,
    .log2 .plain 1 2, .sinpi .plain 1 2, .cospi .plain 1 2, .tanh .plain 1 2, .sigm .plain 1 2, .fclass .plain 1 2] : List Instr),
    laneClean i .plain base := lanes_of (by decide +kernel)
theorem test_wit_MinMaxOrder : ∀ i ∈ ([.fmin .plain 1 2, .fmax .plain 1 2, .hmax2 .plain 1 2] : List Instr),
    laneClean i .plain base := lanes_of (by decide +kernel)
theorem test_wit_FloatClasses : ∀ i ∈ ([.fclass .plain 1 2] : List Instr), laneClean i .plain base := lanes_of (by decide +kernel)
/-- 5 x 2^0 among the multiples of 2^1: the tie goes to 2 x 2 under RNE and to 3 x 2 under RNA (R140). -/
theorem test_wit_RoundingModes : 0 < 1 ∧ roundMag .rne false 5 0 false 1 = 2 ∧ roundMag .rna false 5 0 false 1 = 3 := by
  decide +kernel
/-- FP16's overflow action is 3, and lane 0 holds the greatest FP32 number. -/
noncomputable def overflowing : State := withV (withG base fun g => { g with ovf := 0x3000#32 }) [(2, 0, 0x7F7FFFFF)]
/-- Every class has action 3, and element 0 of tile 0 is 2^62 at anchor 127. -/
noncomputable def overflowTile : State :=
  (withG base fun g => { g with ovf := 0x3FFFFFF#32 }).setTile 0 0
    { blk := some 1, tok := some 1, anchor := 127, elems := [(0, 0x4000000000000000#64)] }
/-- The split has an OVF to raise. -/
noncomputable def owing : State := withG base fun g => { g with splits := g.splits.upd 0 fun x => { x with ovf := some {} } }
theorem test_wit_ConversionOverflow : (laneClean (.cvtFp16F32 .plain 1 2 0) .plain overflowing ∧
      lowestLane overflowing .plain (fun l => (toFloat fp16 overflowing.cg.ovf 6 (laneRound overflowing 0 l)
        (fv (overflowing.v 2 l))).ovf) 0) ∧
    (laneClean (.mxRd .plain 0 0 0 5 4) .plain overflowTile ∧ holds overflowTile 0 ∧ (overflowTile.s 5).toNat + 0 ≤ 63 ∧
      lowestLane overflowTile .plain (fun l => (elementOut overflowTile 0 (sliceAt 0 ((overflowTile.s 5).toNat + 0) l)).ovf ||
        (elementOut overflowTile 0 (sliceAt 0 ((overflowTile.s 5).toNat + 0) (l + 32))).ovf) 0) ∧
    (owing.g 1).live = true ∧ (owing.g 1).stop = .running ∧
    (let x := (owing.g 1).splits.get 0
     x.valid = true ∧ x.ovf = some {} ∧ x.more = [] ∧ x.heldTo ≤ owing.cycle) ∧
    (∀ j, j < 4 → j ≠ 0 → ((owing.g 1).splits.get j).more = []) ∧ ∀ k, k < 4 → ((base.g 1).splits.get k).ovf = none :=
  ⟨⟨lane_of (by decide +kernel), by decide, by decide +kernel, by decide +kernel, fun k a => by omega⟩,
    ⟨lane_of (by decide +kernel), by unfold holds; decide +kernel, by decide +kernel, by decide, by decide +kernel,
      by decide +kernel, fun k a => by omega⟩, by decide +kernel⟩
theorem test_wit_EntryState : 0 < fetchParams.gridx ∧ 0 < fetchParams.gridy := by decide
theorem test_wit_AllConversions : (∀ i ∈ ([.cvtF32I32 .plain 1 2 0, .cvtF32Ui32 .plain 1 2 1, .cvtI32F32 .plain 1 2 2,
    .cvtUi32F32 .plain 1 2 3, .cvtBf16F32 .plain 1 2 0, .cvtFp16F32 .plain 1 2 0, .cvtE4m3F32 .plain 1 2 0, .cvtE5m2F32 .plain 1 2 0,
    .cvtE2m1F32 .plain 1 2 0, .cvtInt8I32 .plain 1 2 3, .cvtF32Bf16 .plain 1 2, .cvtF32Fp16 .plain 1 2, .cvtF32E4m3 .plain 1 2,
    .cvtF32E5m2 .plain 1 2, .cvtF32E2m1 .plain 1 2, .cvtF32Int8 .plain 1 2] : List Instr), laneClean i .plain base) ∧
    (∀ l, l < 32 → (toFloat fp16 base.cg.ovf 6 (laneRound base 3 l) (fv (base.v 2 l))).ovf = false) ∧
    ∀ l, l < 32 → (toInt base.cg.ovf 11 (laneRound base 3 l) (fv (base.v 2 l))).ovf = false :=
  ⟨lanes_of (by decide +kernel), by decide +kernel, by decide +kernel⟩

theorem clean_of {h : Hdr} {rs : List Nat} {s : State}
    (x : ∀ l, l < 32 → inMask (s.laneActive h) l = true → ∀ r, r ∈ rs → s.vp r l = false) : cleanLanes h rs s :=
  fun l r a b c => x l a b r c
theorem direct_of {s : State} (x : s.paired s.cur.gid = false ∧ s.cg.pairBuf = [] ∧ s.cg.poisonPass = none) : Direct s := x
theorem room_of {p : Nat} {s : State} (x : s.cg.count p ≤ 62) : Room p s := x
theorem plain_of {s : State} (x : s.cg.pairBuf = [] ∧ s.cg.poisonPass = none) : Plain s := x
theorem found {ε α : Type} {r : Except ε α} (x : r.toBool = true) : ∃ ps, r = .ok ps := by
  cases r with
  | ok a => exact ⟨a, rfl⟩
  | error e => cases x
theorem failed {ε α : Type} {r : Except ε α} (x : r.toBool = false) : ∃ e, r = .error e := by
  cases r with
  | ok a => cases x
  | error e => exact ⟨e, rfl⟩

/-- Lane 5 alone, at the word at 0x2000. -/
noncomputable def lane5 : State :=
  let s := withV base [(2, 5, 0x2000), (8, 5, 7)]
  { s with cur := { s.cur with lanes := laneBit 5 } }
/-- Lane 5 alone, at an address that no page maps. -/
noncomputable def lost5 : State := withV lane5 [(3, 5, 0x100)]

theorem test_wit_GlobalLoads : (∀ s ∈ ([base, lane5, lost5] : List State), laneClean (.ld .plain 0 9 6 1 4) .plain s ∧
    cleanLanes .plain [2, 3] s ∧ globalCheck .plain 6 1 s = none ∧ Room 0 s) ∧
    (∃ ps, (lane5.beginIssue.advance.resolve .load 16 (lane5.gaddrs .plain 1)).1 = .ok ps) ∧
    ∃ tr, (lost5.beginIssue.advance.resolve .load 16 (lost5.gaddrs .plain 1)).1 = .error tr := by
  refine ⟨?_, found (by decide +kernel), failed (by decide +kernel)⟩
  intro s m
  simp only [List.mem_cons, List.not_mem_nil, or_false] at m
  rcases m with rfl | rfl | rfl <;>
    exact ⟨lane_of (by decide +kernel), clean_of (by decide +kernel), by decide +kernel, room_of (by decide +kernel)⟩
theorem test_wit_GlobalStores : (∀ s ∈ ([lane5, lost5] : List State), laneClean (.st .plain 0 9 5 1 8) .plain s ∧
    cleanLanes .plain [2, 3] s ∧ globalCheck .plain 5 1 s = none ∧ Room 1 s ∧ Direct s) ∧
    (∃ ps, (lane5.beginIssue.advance.resolve .store 8 (lane5.gaddrs .plain 1)).1 = .ok ps) ∧
    ∃ tr, (lost5.beginIssue.advance.resolve .store 8 (lost5.gaddrs .plain 1)).1 = .error tr := by
  refine ⟨?_, found (by decide +kernel), failed (by decide +kernel)⟩
  intro s m
  simp only [List.mem_cons, List.not_mem_nil, or_false] at m
  rcases m with rfl | rfl <;>
    exact ⟨lane_of (by decide +kernel), clean_of (by decide +kernel), by decide +kernel, room_of (by decide +kernel),
      direct_of (by decide +kernel)⟩
theorem test_wit_ScratchpadAccess : laneClean (.lds .plain 0 4 2 4) .plain lane5 ∧ laneClean (.ldsBcast .plain 0 4 2 4) .plain lane5 ∧
    laneClean (.sts .plain 0 4 2 4) .plain lane5 ∧ cleanLanes .plain [2] lane5 ∧
    lane5.spadTrap 4 (lane5.saddrs .plain 2) = none ∧ Room 2 lane5 ∧ Direct lane5 ∧ inMask (lane5.laneActive .plain) 5 = true ∧
    (∀ k, k < 5 → inMask (lane5.laneActive .plain) k = false) ∧ lane5.vp 2 5 = false ∧
    lane5.spadTrap 4 [(5, (lane5.v 2 5).toNat)] = none ∧
    lane5.scratchPlace lane5.cg (lane5.v 2 5).toNat 4 = some (.scratch 1 0x2000) :=
  ⟨lane_of (by decide +kernel), lane_of (by decide +kernel), lane_of (by decide +kernel), clean_of (by decide +kernel),
    by decide +kernel, room_of (by decide +kernel), direct_of (by decide +kernel), by decide +kernel, by decide +kernel,
    by decide +kernel, by decide +kernel, by decide +kernel⟩
theorem test_wit_LaneAtomics : (∀ x ∈ ([(.atomAdd .plain 0 9 1 4, .add), (.atomAnd .plain 0 9 1 4, .and),
    (.atomOr .plain 0 9 1 4, .or), (.atomXor .plain 0 9 1 4, .xor), (.atomSmin .plain 0 9 1 4, .smin),
    (.atomSmax .plain 0 9 1 4, .smax), (.atomUmin .plain 0 9 1 4, .umin), (.atomUmax .plain 0 9 1 4, .umax),
    (.atomExch .plain 0 9 1 4, .exch), (.atomCas .plain 0 9 1 4, .cas), (.atomFadd .plain 0 9 1 4, .fadd),
    (.atomFmin .plain 0 9 1 4, .fmin), (.atomFmax .plain 0 9 1 4, .fmax), (.atomAdd64 .plain 0 9 1 4, .add64),
    (.atomExch64 .plain 0 9 1 4, .exch64), (.atomCas64 .plain 0 9 1 4, .cas64)] : List (Instr × AtomOp)),
    lane5.wordTrap x.1 = none ∧ (uses x.1).rs = [] ∧ atomCheck .plain x.2 9 1 lane5 = none ∧
    (lane5.beginIssue.advance.resolve .atomic x.2.size (lane5.gaddrs .plain 1)).1 = .ok [(5, Place.dev 0x2000 false)]) ∧
    cleanLanes .plain [2, 3] lane5 ∧ Direct lane5 ∧ Room 3 lane5 ∧ plainWord lane5 0x2000 8 ∧ lane5.hasIssuer = true ∧
    lane5.laneActive .plain = laneBit 5 ∧ lane5.detGrid lane5.cgrid = false :=
  ⟨by decide +kernel, clean_of (by decide +kernel), direct_of (by decide +kernel), room_of (by decide +kernel),
    by unfold plainWord; decide +kernel, by decide +kernel⟩
/-- The word at 0x2000 in s4:s5. -/
noncomputable def scal : State := withS base [(4, 0x2000)]
theorem test_wit_ScalarMemory : (∀ x ∈ ([(.sLdW .plain 0 8 4, 4), (.sLdD .plain 0 8 4, 8), (.sLdQ .plain 0 8 4, 16),
    (.sLdO .plain 0 8 4, 32), (.sLdAcqW .plain 3 8 4, 4), (.sStW .plain 0 8 4, 4), (.sStD .plain 0 8 4, 8), (.sStQ .plain 0 8 4, 16),
    (.sStRelW .plain 3 8 4, 4)] : List (Instr × Nat)), scal.wordTrap x.1 = none ∧ ((uses x.1).rs.all fun r => !scal.sp r) = true ∧
    smemCheck x.2 4 scal = none ∧
    (scal.beginIssue.advance.resolve .load x.2 [(0, scal.s2 4)]).1 = .ok [(0, Place.dev 0x2000 false)] ∧
    (scal.beginIssue.advance.resolve .store x.2 [(0, scal.s2 4)]).1 = .ok [(0, Place.dev 0x2000 false)]) ∧
    scalarClean (.sAtomAdd .plain 3 8 4) .plain scal ∧ scalarClean (.sAtomCas .plain 3 8 4) .plain scal ∧
    Room 5 scal ∧ Direct scal ∧ plainWord scal 0x2000 4 ∧ smemAtomCheck 3 4 scal = none ∧
    (scal.beginIssue.advance.resolve .atomic 4 [(0, scal.s2 4)]).1 = .ok [(0, Place.dev 0x2000 false)] ∧
    (withS base [(5, 0x100)]).hasIssuer = true ∧ smemCheck 4 4 (withS base [(5, 0x100)]) = none ∧
    ((withS base [(5, 0x100)]).beginIssue.advance.resolve .load 4 [(0, (withS base [(5, 0x100)]).s2 4)]).1.toBool = false :=
  ⟨by decide +kernel, scalar_of (by decide +kernel), scalar_of (by decide +kernel), room_of (by decide +kernel),
    direct_of (by decide +kernel), by unfold plainWord; decide +kernel, by decide +kernel⟩
/-- One access in flight on path 3. -/
noncomputable def flying : State := withG base fun g => { g with inflight := [{ path := 3, seq := 1 }] }
theorem test_wit_PrefetchAndCompletion : ctlClean (.pref .plain 2) .plain State.liveNamed base ∧
    dropOldest 3 (flying.g 1).inflight = some ({ path := 3, seq := 1 }, []) ∧
    flying.mayComplete 1 { path := 3, seq := 1 } = true ∧ (flying.g 1).stop = .running :=
  ⟨ctl_of (by decide +kernel), by decide +kernel⟩

/-- The group runs unprivileged. -/
noncomputable def user : State := withG base fun g => { g with priv := false }
theorem test_wit_SpecialAndSystemRegisters : (∀ n ∈ List.range 18, scalarClean (.sGetsr .plain 1 n) .plain base) ∧
    (∀ i ∈ ([.sSetsr .plain 1 11, .sSetsr .plain 1 17, .sPset .plain 1 15, .sRdsys .plain 1 0, .sRdsys .plain 1 50,
      .sRdsys .plain 1 127, .sWrsys .plain 1 8] : List Instr), scalarClean i .plain base) ∧
    storedBits 8 = some 1#32 ∧ sysAssigned 8 = true ∧ base.wrsysReady base.cg.core 8 (base.s 1) = true ∧ sysAssigned 127 = false ∧
    base.hasIssuer = true ∧ base.cg.priv = true ∧
    user.hasIssuer = true ∧ user.wordIllegal (.sWrsys .plain 1 8) = false ∧ user.cg.priv = false ∧
    0 < (base.paramsOf base.cg).gridx ∧ 0 < (base.paramsOf base.cg).gridy ∧ (∀ k, k < 5 → base.cg.count k < 64) := by
  refine ⟨fun n m => ?_, scalars_of (by decide +kernel), ?_⟩
  · have h : (List.range 18).all (fun n => easy (.sGetsr .plain 1 n)) = true := by decide +kernel
    have y := List.all_eq_true.mp h n m
    simp only [easy, Bool.and_eq_true, decide_eq_true_eq, List.all_eq_true, Bool.not_eq_true'] at y
    exact ⟨base_runs.1, y.1, nofun, base_runs.2.1, y.2⟩
  · decide +kernel

/-! Control flow: `base` takes every transfer; in `split2` a second split stands at offset 8 and lane 7 is held at offset 12. -/

noncomputable def split2 : State := withG base fun g =>
  { g with splits := (g.splits.put 0 { g.splits.get 0 with mask := 0xFFFFFF0F#32 }).put 2 (Split.at 8 0x30#32)
           held := 0x80#32, holdoff := g.holdoff.put 7 12 }
/-- The issuing split is the one at offset 8, with a split at 0 before it. -/
noncomputable def behind : State := { split2 with cur := { split2.cur with slot := 2, here := 8, next := 12 } }
theorem test_wit_ControlTransfers : (∀ i ∈ ([.bra .plain 8, .call .plain 8, .bra .plain 0x3FFFD, .brx .plain 1, .callx .plain 1,
    .ret .plain, .mbr .plain [⟨10, false, 2⟩], .mbr .plain [⟨0x3FFFD, true, 2⟩]] : List Instr),
      base.wordTrap i = none) ∧ base.hasIssuer = true ∧ base.cs.mask ≠ 0#32 ∧ takesIt base .plain 0 = true ∧
    0 ≤ relative base 8 ∧ relative base 0x3FFFD < 0 ∧ base.vp 1 0 = false ∧ (base.v 1 0).toNat % 2 = 0 ∧
    (withV base [(1, 0, 9)]).hasIssuer = true ∧ ((withV base [(1, 0, 9)]).v 1 0).toNat % 2 = 1 ∧
    (withV base [(1, 0, 9)]).vp 1 0 = false ∧ (∀ l, l < 32 → base.pp 2 l = false) ∧
    (∀ l, l < 32 → 0 ≤ armGoal base .plain [⟨10, false, 2⟩] l) ∧ armGoal base .plain [⟨0x3FFFD, true, 2⟩] 0 < 0 := by
  decide +kernel
theorem test_wit_JoinExitYieldNop : (∀ i ∈ ([.join .plain, .yield .plain, .nop .plain] : List Instr), scalarClean i .plain base) ∧
    (∀ k, k < 4 → k ≠ split2.cur.slot → (split2.cg.splits.get k).valid = true → split2.cs.offset ≤ (split2.cg.splits.get k).offset) ∧
    (∀ l, l < 32 → inMask split2.cg.held l = true → split2.cs.offset ≤ split2.cg.holdoff.get l) ∧
    scalarClean (.join .plain) .plain split2 ∧ scalarClean (.join .plain) .plain behind ∧
    (behind.cg.splits.get 0).valid = true ∧ (behind.cg.splits.get 0).offset < behind.cs.offset ∧
    ctlClean (.exit .plain) .plain State.liveS base ∧ Plain base ∧ base.beginIssue.ctlLanes .plain ≠ 0#32 ∧
    base.cg.alive &&& ~~~ (base.beginIssue.ctlLanes .plain) = 0#32 ∧
    ctlClean (.exit .plain) .plain State.liveS split2 ∧ split2.cg.alive &&& ~~~ (split2.beginIssue.ctlLanes .plain) ≠ 0#32 ∧
    ctlClean (.exit onP1) onP1 State.liveS base ∧ base.beginIssue.ctlLanes onP1 = 0#32 ∧
    ¬ (1 < (base.paramsOf base.cg).clust ∧ base.cg.cbarPast = false) ∧
    (let s := base.updGr 1 fun g => { g with p := { g.p with clust := 2 } }
     1 < (s.paramsOf s.cg).clust ∧ s.cg.cbarPast = false ∧ s.hasIssuer = true) :=
  ⟨scalars_of (by decide +kernel), by decide +kernel, by decide +kernel, scalar_of (by decide +kernel), scalar_of (by decide +kernel),
    by decide +kernel, by decide +kernel, ctl_of (by decide +kernel), plain_of (by decide +kernel), by decide +kernel,
    by decide +kernel, ctl_of (by decide +kernel), by decide +kernel, ctl_of (by decide +kernel), by decide +kernel,
    by decide +kernel, by decide +kernel⟩
theorem test_wit_PlanesAndLaneState : (∀ i ∈ ([.pset .plain 1, .pseti .plain 0, .pseti .plain 1, .pget .plain 1, .pmask .plain 1 1,
    .pchk .plain 1 2, .srseed .plain 1, .srget .plain 1] : List Instr), ctlClean i .plain State.liveS base) ∧
    (∀ l, l < 32 → base.vp 1 l = false ∧ (base.v 1 l).toNat % 4 < (base.codeOf base.cg).planes) ∧
    0 < (base.codeOf base.cg).planes ∧ (base.codeOf base.cg).planes ≤ 1 ∧ takesIt base .plain 0 = true ∧
    scalarClean (.ovtld .plain 1) .plain base ∧ (base.s 1).toNat < 2 ^ 26 ∧
    scalarClean (.ovtld .plain 1) .plain (withS base [(1, 2 ^ 26)]) ∧ 2 ^ 26 ≤ ((withS base [(1, 2 ^ 26)]).s 1).toNat := by
  refine ⟨fun i m => ?_, by decide +kernel, by decide +kernel, by decide +kernel, by decide +kernel, scalar_of (by decide +kernel),
    by decide +kernel, scalar_of (by decide +kernel), by decide +kernel⟩
  exact ⟨base_runs.1, (easy_word (is := [.pset .plain 1, .pseti .plain 0, .pseti .plain 1, .pget .plain 1, .pmask .plain 1 1,
    .pchk .plain 1 2, .srseed .plain 1, .srget .plain 1]) (by decide +kernel) m).1, nofun⟩
theorem test_wit_MergingAndHeldLanes : (split2.g 1).stop = .running ∧ inMask (split2.g 1).held 7 = true ∧
    inMask (split2.g 1).held 3 = false ∧ standsAt (split2.g 1) 4 8 :=
  ⟨by decide +kernel, by decide +kernel, by decide +kernel, 2, by decide +kernel⟩

/-! Barriers: `met` has arrived at barrier 3 in phase 0, which is over in `phaseOver`. -/

noncomputable def met : State := withG base fun g => { g with splits := g.splits.upd 0 fun x => { x with waitOn := some (.bar 3 0 0xFFFFFFFF#32) } }
noncomputable def phaseOver : State := met.updB 1 fun b => { b with bars := b.bars.put 3 { phase := 1 } }
/-- Barrier 3 is open with count 1 and nobody marked. -/
noncomputable def opened : State := base.updB 1 fun b => { b with bars := b.bars.put 3 { isOpen := true, count := 1 } }
/-- A stage barrier of 2 at scratchpad address 64, one arrival away from its phase's end; s4 = 64, s5 = 2, s6 = 65, s7 = 2^32 - 1. -/
noncomputable def staged : State := withS (base.updB 1 fun b =>
  { b with scratch := [(64, 2#8), (68, 1#8)] }) [(4, 64), (5, 2), (6, 65), (7, 0xFFFFFFFF)]
theorem stage_of {s : State} {x b key : Nat} (h : s.scratchPlace s.cg (s.s x).toNat 16 = some (.scratch b key) ∧
    (s.s x).toNat % 16 = 0) : stageAt s x b key := h
theorem fresh_of {s : State} {id c : Nat} (h : s.cs.waitOn = none ∧
    ((s.barOf id).isOpen = true → (s.barOf id).marks.get s.cur.gid &&& s.cs.mask = 0#32) ∧
    ((s.barOf id).isOpen = true → (s.barOf id).count = c)) : barFresh s id c := h
theorem test_wit_BlockBarriers : scalarClean (.bar .plain 1 3) .plain base ∧ scalarClean (.barArv .plain 1 3) .plain base ∧
    Plain base ∧ barFresh base 3 (base.s 1).toNat ∧ (base.s 1).toNat ≤ (base.paramsOf base.cg).groups ∧
    barFresh opened 3 ((withS opened [(1, 1)]).s 1).toNat ∧ scalarClean (.cbar .plain) .plain base ∧ barFresh base 16 0 ∧
    scalarClean (.bar .plain 1 3) .plain met ∧ met.cs.waitOn = some (.bar 3 0 0xFFFFFFFF#32) ∧ (met.barOf 3).phase = 0 ∧
    phaseOver.cs.waitOn = some (.bar 3 0 0xFFFFFFFF#32) ∧ (phaseOver.barOf 3).phase ≠ 0 ∧ scalarClean (.cbar .plain) .plain met ∧
    opened.cs.waitOn = none ∧ (opened.barOf 3).isOpen = true ∧ (opened.barOf 3).count ≠ (opened.s 1).toNat ∧
    (base.paramsOf base.cg).groups < ((withS base [(1, 2)]).s 1).toNat :=
  ⟨scalar_of (by decide +kernel), scalar_of (by decide +kernel), plain_of (by decide +kernel), fresh_of (by decide +kernel),
    by decide +kernel, fresh_of (by decide +kernel), scalar_of (by decide +kernel), fresh_of (by decide +kernel),
    scalar_of (by decide +kernel), by decide +kernel, by decide +kernel, by decide +kernel, by decide +kernel,
    scalar_of (by decide +kernel), by decide +kernel, by decide +kernel, by decide +kernel, by decide +kernel⟩
theorem test_wit_StageBarriers : (∀ i ∈ ([.sbInit .plain 5 4, .sbArv .plain 4, .sbWait .plain 5 4, .sbTest .plain 5 4] : List Instr),
    staged.wordTrap i = none ∧ ((uses i).rs.all fun r => !staged.sp r) = true) ∧ staged.hasIssuer = true ∧ Direct staged ∧
    stageAt staged 4 1 64 ∧ 0 < (staged.s 5).toNat ∧ (staged.s 5).toNat ≤ 65536 ∧ scratchWord staged 1 68 = 1#32 ∧ Room 2 staged ∧
    (1 ≤ (scratchWord staged 1 72 - staged.s 7).toNat ∧ (scratchWord staged 1 72 - staged.s 7).toNat ≤ 2 ^ 31 - 1) ∧
    ¬ (1 ≤ (scratchWord staged 1 72 - staged.s 1).toNat ∧ (scratchWord staged 1 72 - staged.s 1).toNat ≤ 2 ^ 31 - 1) ∧
    staged.s 1 = 0#32 ∧ 65536 < (staged.s 7).toNat ∧ (staged.scratchPlace staged.cg (staged.s 6).toNat 16).isSome = true ∧
    (staged.s 6).toNat % 16 ≠ 0 :=
  ⟨by decide +kernel, by decide +kernel, direct_of (by decide +kernel), stage_of (by decide +kernel), by decide +kernel,
    by decide +kernel, by decide +kernel, room_of (by decide +kernel), by decide +kernel⟩

/-! Tags: lane 5 is the only member lane; key 0x2000 belongs to set 8, whose ways are 32 to 35. -/

noncomputable def tagLane : State := withG (withV base [(2, 5, 0x2000), (3, 5, 0x80000007)]) fun g => { g with mmask := laneBit 5 }
noncomputable def tagged (st owner : Nat) : State :=
  tagLane.updCo 0 fun c => { c with tags := [(32, { st := st, key := 0x2000, data := 9, owner := owner })] }
noncomputable def tagFull : State := tagLane.updCo 0 fun c =>
  { c with tags := [(32, { st := 1, key := 1, owner := 7 }), (33, { st := 1, key := 1, owner := 7 }),
                    (34, { st := 1, key := 1, owner := 7 }), (35, { st := 1, key := 1, owner := 7 })] }
theorem set_of {e : Nat} (h : e / 4 = (0x2000 ^^^ (0x2000 >>> 10) ^^^ (0x2000 >>> 20)) % 1024) : e = 32 ∨ e = 33 ∨ e = 34 ∨ e = 35 := by
  have : (0x2000 ^^^ (0x2000 >>> 10) ^^^ (0x2000 >>> 20)) % 1024 = 8 := by decide
  omega
theorem test_wit_TagTable : (∀ i ∈ ([.tagL .plain 3 2, .tagE .plain 3 2, .tagI .plain 3 2] : List Instr), tagLane.wordTrap i = none) ∧
    (tagLane.hasIssuer = true ∧ tagLane.active .plain = laneBit 5 ∧
      (∀ l, l < 32 → inMask (tagLane.active .plain) l = true → (tagLane.v 3 l).toNat / 2 ^ 21 % 1024 = 0) ∧
      (tagLane.v 2 5).toNat = 0x2000 ∧ (tagLane.v 3 5).msb = true) ∧
    lowestWay 0x2000 (tagHit (tagged 1 1).cc (tagged 1 1).cg.bid 0x2000) 32 ∧
    lowestWay 0x2000 (tagHit (tagged 2 1).cc (tagged 2 1).cg.bid 0x2000) 32 ∧
    (∀ e, ¬ tagHit tagLane.cc tagLane.cg.bid 0x2000 e) ∧
    lowestWay 0x2000 (fun e => (tagLane.cc.tags.get e).st = 0) 32 ∧
    (∀ e, ¬ tagHit tagFull.cc tagFull.cg.bid 0x2000 e) ∧ ∀ e, ¬ lowestWay 0x2000 (fun e => (tagFull.cc.tags.get e).st = 0) e := by
  have below : ∀ {P : Prop} (f : Nat), f / 4 = 32 / 4 → f < 32 → P := fun f a b => by omega
  refine ⟨by decide +kernel, by decide +kernel,
    ⟨by decide, ⟨by decide, by decide +kernel, by decide +kernel, by decide +kernel⟩, fun f a b => below f a b⟩,
    ⟨by decide, ⟨by decide, by decide +kernel, by decide +kernel, by decide +kernel⟩, fun f a b => below f a b⟩, ?_,
    ⟨by decide, by decide +kernel, fun f a b => below f a b⟩, ?_, ?_⟩
  · rintro e ⟨h, n, -⟩
    rcases set_of h with rfl | rfl | rfl | rfl <;> exact n (by decide +kernel)
  · rintro e ⟨h, -, k, -⟩
    rcases set_of h with rfl | rfl | rfl | rfl <;> revert k <;> decide +kernel
  · rintro e ⟨h, n, -⟩
    rcases set_of h with rfl | rfl | rfl | rfl <;> revert n <;> decide +kernel

/-! Timelines: command 1 of copy context 0 is open, or complete with a trap; s16:s19 = context 0 and number 1. -/

noncomputable def timeline (c : Ctx) : State :=
  withS (base.updB 1 fun b => { b with copy := b.copy.put 0 { c := c } }) [(18, 1)]
theorem test_wit_WaitsAndFences : scalarClean (.waitc .plain 1 3) .plain base ∧ base.cg.count 3 ≤ (base.s 1).toNat ∧
    scalarClean (.waitc .plain 1 3) .plain flying ∧ (flying.s 1).toNat < flying.cg.count 3 ∧
    (let s := timeline { accepted := 1, open_ := [1] }
     s.hasIssuer = true ∧ s.wordTrap (.tlwait .plain 3 16) = none ∧ s.cs.waitOn = none ∧ s.s 17 = 0#32 ∧ s.ctxCheck 0 = none ∧
       s.s 16 = 0#32 ∧ s.s 18 = 1#32 ∧ s.s 19 = 0#32 ∧ 1 ∈ (s.cb.ctx 0 0).open_ ∧
       (s.cb.ctx 0 0).counter + 1 ∈ (s.cb.ctx 0 0).open_) ∧
    (let s := timeline { accepted := 1, traps := [(1, { code := 0x0B })] }
     s.hasIssuer = true ∧ s.cs.waitOn = none ∧ (s.cb.ctx 0 0).open_ = [] ∧ 1 ≤ (s.cb.ctx 0 0).accepted ∧
       (s.cb.ctx 0 0).traps = [(1, { code := 0x0B })]) ∧
    (let s := timeline { accepted := 1 }
     s.hasIssuer = true ∧ (s.cb.ctx 0 0).open_ = [] ∧ 1 ≤ (s.cb.ctx 0 0).accepted ∧ (s.cb.ctx 0 0).traps = []) ∧
    scalarClean (.tlread .plain 20 16) .plain base ∧ base.ctxCheck (base.s 16).toNat = none ∧
    scalarClean (.fence .plain 1 6) .plain base ∧ scalarClean (.fenceMir .plain 6) .plain base ∧ Plain base ∧
    base.mirstat = 0 ∧ (∀ i, i < 32 → (base.cb.copy.get i).c.open_ = []) :=
  ⟨scalar_of (by decide +kernel), by decide +kernel, scalar_of (by decide +kernel), by decide +kernel, by decide +kernel,
    by decide +kernel, by decide +kernel, scalar_of (by decide +kernel), by decide +kernel, scalar_of (by decide +kernel),
    scalar_of (by decide +kernel), plain_of (by decide +kernel), by decide +kernel, by decide +kernel⟩
/-- The same group while the mirror is in state n with some writes on their way. -/
noncomputable def mirrored (n : Nat) (ws : List MirWrite) : State := { base with mirstat := n, mirror := ws, mirctl := 0x80000000#32 }
noncomputable def owedWrite : MirWrite := { who := [base.lanesAt 1 1#32] }
theorem test_wit_Fences : (∀ s ∈ ([mirrored 1 [], mirrored 1 [owedWrite], mirrored 2 [], mirrored 3 []] : List State),
    s.hasIssuer = true ∧ s.wordTrap (.fenceMir .plain 6) = none ∧ s.cg.pairBuf = [] ∧ s.cg.poisonPass = none) ∧
    (mirrored 1 []).mirstat = 1 ∧ (mirrored 1 []).mirOwed ((mirrored 1 []).lanesAt 1 0xFFFFFFFF#32) = false ∧
    (∃ w, w ∈ (mirrored 1 [owedWrite]).mirror ∧ ∃ q, q ∈ w.who ∧
      q.same ((mirrored 1 [owedWrite]).lanesAt (mirrored 1 [owedWrite]).cur.gid (mirrored 1 [owedWrite]).cs.mask) = true) ∧
    (mirrored 2 []).mirstat = 2 ∧ (mirrored 3 []).mirstat = 3 := by
  decide +kernel
/-- A split with one number that has recorded a trap, and one that is clamped. -/
theorem test_wit_TimelineTraps : (timeline { accepted := 2, traps := [(2, {})], clamped := [1] }).s 18 = 1#32 ∧
    (∀ k tr, (k, tr) ∈ ((timeline { accepted := 2, traps := [(2, {})], clamped := [1] }).cb.ctx 0 0).traps → 1 < k) ∧
    ∃ k, k ∈ ((timeline { accepted := 2, traps := [(2, {})], clamped := [1] }).cb.ctx 0 0).clamped ∧ k ≤ 1 := by
  have h : ((timeline { accepted := 2, traps := [(2, {})], clamped := [1] }).cb.ctx 0 0).traps = [(2, {})] := by decide +kernel
  refine ⟨by decide +kernel, fun k tr m => ?_, by decide +kernel⟩
  rw [h] at m
  simp only [List.mem_singleton, Prod.mk.injEq] at m
  omega

/-! Tiles: tile 0 of core 0 with a token. -/

noncomputable def owned : State := base.setTile 0 0 { blk := some 1, tok := some 1 }
noncomputable def theirs : State := base.setTile 0 0 { blk := some 1, tok := some 2 }
/-- An MX.WR of the tile is on its way. -/
noncomputable def writing : State := owned.updCG fun g => { g with pend := [{ file := .tile, reg := 0, lanes := 1#32, ready := 5 }] }
theorem holds_of {s : State} {k : Nat} (h : (s.tile s.cg.core k).tok = some s.cur.gid) : holds s k := h
theorem owned_of {i : Instr} (h : owned.wordTrap i = none ∧ ∀ r, r ∈ (uses i).rs → owned.sp r = false) :
    scalarClean i .plain owned := ⟨by decide +kernel, h.1, nofun, by decide +kernel, h.2⟩
theorem test_wit_TileTokens : ((∀ i ∈ ([.mxAcq .plain 0, .mxRel .plain 0, .mxZero .plain 5 0, .mxStat .plain 12 0] : List Instr),
      scalarClean i .plain owned) ∧ ∀ i ∈ ([.mxAcq .plain 0, .mxRel .plain 0] : List Instr), scalarClean i .plain base) ∧
    (holds owned 0 ∧ scalarClean (.mxRel .plain 0) .plain writing ∧ holds writing 0) ∧
    (base.tile base.cg.core 0).tok = none ∧ (base.tile base.cg.core 0).blk = none ∧ base.tileCmds base.cg.core 0 = [] ∧
    (base.tile base.cg.core 0).faulted = [] ∧ theirs.wordTrap (.mxAcq .plain 0) = none ∧
    (theirs.tile theirs.cg.core 0).tok = some 2 ∧ 2 ≠ theirs.cur.gid ∧
    (∃ p, p ∈ writing.cg.pend ∧ p.file = .tile ∧ p.reg = 0 ∧ writing.cycle < p.ready) ∧ owned.cg.pend = [] ∧
    (-128 ≤ (owned.s 10).toInt ∧ (owned.s 10).toInt ≤ 127) ∧ 127 < ((withS owned [(10, 128)]).s 10).toInt ∧
    ((withS owned [(10, 0xFFFFFF7F)]).s 10).toInt < -128 ∧ (owned.tile owned.cg.core 0).anchor < 256 ∧
    SMap.canon (owned.tile owned.cg.core 0).wovf = true ∧ SMap.canon (owned.tile owned.cg.core 0).pois = true := by
  refine ⟨⟨fun i m => ?_, scalars_of (by decide +kernel)⟩, ⟨holds_of (by decide +kernel), scalar_of (by decide +kernel),
    holds_of (by decide +kernel)⟩, by decide +kernel⟩
  simp only [List.mem_cons, List.not_mem_nil, or_false] at m
  rcases m with rfl | rfl | rfl | rfl <;> exact owned_of (by decide +kernel)
theorem test_wit_TileSlices : laneClean (.mxRd .plain 3 1 0 5 4) .plain owned ∧ laneClean (.mxWr .plain 3 0 0 5 4) .plain owned ∧
    holds owned 0 ∧ (owned.s 5).toNat + 3 ≤ 63 ∧ ((withS owned [(5, 60)]).s 5).toNat + 3 ≤ 63 ∧
    (∀ l j, l < 32 → j < 2 → inMask (owned.active .plain) l = true → (elementOut owned 0 (sliceAt 1 3 (l + 32 * j))).ovf = false) ∧
    (∀ i ∈ ([.mxRd .plain 3 1 0 5 4, .mxWr .plain 3 1 0 5 4] : List Instr), laneClean i .plain base ∧
      laneClean i .plain (withS owned [(5, 64)])) ∧
    base.laneActive .plain ≠ 0#32 ∧ base.cur.checked = false ∧ (base.tile base.cg.core 0).tok ≠ some base.cur.gid ∧
    (withS owned [(5, 64)]).laneActive .plain ≠ 0#32 ∧ 63 < ((withS owned [(5, 64)]).s 5).toNat + 3 := by
  refine ⟨lane_of (by decide +kernel), lane_of (by decide +kernel), holds_of (by decide +kernel), by decide +kernel, by decide +kernel,
    fun l j a b _ => (by decide +kernel : ∀ l, l < 32 → ∀ j, j < 2 → (elementOut owned 0 (sliceAt 1 3 (l + 32 * j))).ovf = false) l a j b,
    fun i m => ?_, by decide +kernel⟩
  simp only [List.mem_cons, List.not_mem_nil, or_false] at m
  rcases m with rfl | rfl <;> exact ⟨lane_of (by decide +kernel), lane_of (by decide +kernel)⟩
/-- The header of an image with anchor 0, no element and no flag. -/
def emptyImage : List Byte := leBytes 4 0x4152584D ++ List.replicate 60 0#8
theorem test_wit_RawTileImages : scalarClean (.mxStraw .plain 10 0) .plain owned ∧ scalarClean (.mxAddraw .plain 10 0) .plain owned ∧
    imageCheck .store 10 0 owned = none ∧ imageCheck .load 10 0 owned = none ∧ Room 5 owned ∧ Direct owned ∧
    imageBad {} emptyImage = false ∧ imageBad { anchor := 1 } emptyImage = true ∧ owned.cur.stale = [] :=
  ⟨owned_of (by decide +kernel), owned_of (by decide +kernel), by decide +kernel, by decide +kernel, room_of (by decide +kernel),
    direct_of (by decide +kernel), by decide +kernel⟩
theorem test_wit_RawTilePlaces : (owned.beginIssue.advance.imagePlaces .store (owned.s2 20)).1 =
    .ok ((List.range 521).map fun j => (j, Place.dev (0 + 64 * j) false)) := by decide +kernel

/-! Matrix commands: tile 0 is the block's and its token the engine's; s8:s14 = tile 0, A at 0, B at 0x2000, K = 32, no ids,
layer 0, context 0; v1 holds the format word of BF16 by BF16 at width 8. -/

noncomputable def matrix : State :=
  withV (withS (base.setTile 0 0 { blk := some 1 }) [(10, 0x2000), (11, 32), (12, 0xFFFFFFFF)])
    ((List.range 32).map fun l => (1, l, 0x7755))
noncomputable def matrixFull : State := matrix.updB 1 fun b =>
  { b with mx := b.mx.put 0 { accepted := 16, open_ := (List.range 16).map (· + 1) } }
theorem test_wit_MatrixCommands : scalarClean (.mxMma .plain 4 1) .plain matrix ∧ Plain matrix ∧
    (mmaCheck .plain 8 1 matrix = none ∧ (matrix.cb.mx.get (matrix.s 14).toNat).open_.length < 16 ∧
      (matrix.cc.mmas.countP fun m => m.part == partOf matrix.cg.slot) < 4 ∧ mmaCheck .plain 8 1 matrixFull = none ∧
      matrixFull.hasIssuer = true ∧ 16 ≤ (matrixFull.cb.mx.get (matrixFull.s 14).toNat).open_.length) ∧
    scalarClean (.mxApf .plain 5) .plain base ∧ scalarClean (.mxAinv .plain 5) .plain base ∧
    scalarClean (.mxAqry .plain 7 5) .plain base ∧ (base.s 10).toNat < 2 ^ 28 ∧
    (withS base [(10, 0xFFFFFFFF)]).s 10 = 0xFFFFFFFF#32 ∧ (∀ d, SMap.canon (base.di d).adapters = true) ∧ Plain base := by
  refine ⟨scalar_of (by decide +kernel), plain_of (by decide +kernel), by decide +kernel, scalars_of (is := [.mxApf .plain 5]) (by decide +kernel) _ (by simp),
    scalars_of (is := [.mxAinv .plain 5]) (by decide +kernel) _ (by simp),
    scalars_of (is := [.mxAqry .plain 7 5]) (by decide +kernel) _ (by simp), by decide +kernel, by decide +kernel, ?_,
    plain_of (by decide +kernel)⟩
  intro d
  have h : base.dies = [] := by decide +kernel
  rw [State.di, h]
  rfl

/-- A command of K = 32 on tile 0, queued or started. -/
def command (started : Bool) : Mma := { bid := 1, ctx := 0, num := 1, seq := 5, tile := 0, a := 0, b := 0x2000, k := 32, wa := 8, wb := 8,
                                        started := started }
/-- The same with the adapter of row 0 under key 3, its K-step done. -/
def adapted (staged : Bool) : Mma := { command true with adpt := true, staged := staged, ids := 3 :: List.replicate 63 0xFFFF }
noncomputable def arrayOf (x : Tile) (m : Mma) : State :=
  (base.setTile 0 0 { x with blk := some 1 }).updCo 0 fun c => { c with mmas := [m] }
theorem test_wit_MatrixArrayEvents : (arrayOf {} (command false)).mayStart 0 0 = some (command false) ∧
    (arrayOf {} (command true)).running 0 0 = some (command true) ∧
    (command true).nextStep (tileOf (arrayOf {} (command true)) 0 (command true)) = some 0 ∧
    (arrayOf { mtmask := 1 } (command true)).running 0 0 = some (command true) ∧
    (command true).finished (tileOf (arrayOf { mtmask := 1 } (command true)) 0 (command true)) = true ∧
    (let s := (base.setTile 0 0 { blk := some 1 }).updB 1 fun b => { b with state := .exited }
     (s.tile 0 0).blk = some 1 ∧ (s.b 1).gone = true ∧ s.tileCmds 0 0 = []) := by decide +kernel

noncomputable def filling (k : AdKey) : State := base.setAdKey 0 3 k
/-- The directory is on, at an address that no page maps. -/
noncomputable def noDirectory : State := { filling { st := 1 } with adirlo := 1#32, adirhi := 0x100#32 }
theorem test_wit_AdapterEvents : ((arrayOf { mtmask := 1 } (adapted false)).running 0 0 = some (adapted false) ∧
    (adapted false).adpt = true ∧ (adapted false).nextStep (tileOf (arrayOf { mtmask := 1 } (adapted false)) 0 (adapted false)) = none ∧
    (adapted true).rowKey 0 = some 3 ∧ (arrayOf { mtmask := 1, apend := 1 } (adapted true)).running 0 0 = some (adapted true) ∧
    bit (tileOf (arrayOf { mtmask := 1, apend := 1 } (adapted true)) 0 (adapted true)).apend 0 = true) ∧
    (∃ x, (filling { st := 1 }).fetchRecord 0 3 = .got x) ∧ (∃ c sub a, noDirectory.fetchRecord 0 3 = .failed c sub a) ∧
    ((filling { st := 1 }).adKey 0 3).st = 1 ∧ (noDirectory.adKey 0 3).st = 1 ∧ ((filling { st := 2 }).adKey 0 3).st = 2 := by
  refine ⟨by decide +kernel,
    ⟨AdKey.invalid false, by decide +kernel⟩, ⟨0x08, 2, 0x10000000030, by decide +kernel⟩, by decide +kernel⟩

/-! Copies: the record and window of 15_programs_copy_sampling.md (program 1), and a CP.LIN of 16 bytes from 0x2000 to 0x3000 at
s64. -/

noncomputable def copying : State := withS base [(24, 0x100000), (25, 0x40), (26, 0x7FC00135), (27, 1), (28, 40), (30, 0x04000018),
  (31, 5), (32, 0x07000006), (33, 15), (48, 32), (49, 20), (50, 5), (58, 0x0001070F), (64, 0x2000), (66, 0x3000), (69, 16),
  (72, 0x2000), (75, 4), (76, 8)]
/-- R416: the record of the first run reports bit 127. -/
theorem test_layout_fault : layoutFault (operandBlock (withS copying [(27, 0x80000001)]) 24 24) (operandBlock copying 48 16) = some 127 ∧
    layoutFault (operandBlock copying 24 24) (operandBlock copying 48 16) = none := by decide +kernel
noncomputable def copyFull : State := copying.updB 1 fun b =>
  { b with copy := b.copy.put 0 { queue := List.replicate 16 {} } }
/-- The block of a follow-on for copy context 0 in s8:s15, as for `matrix`. -/
theorem test_wit_SluiceCommands : scalarClean (.cpTensor .plain 24 12) .plain copying ∧ scalarClean (.cpLin .plain 32) .plain copying ∧
    scalarClean (.cpGather .plain 10 36) .plain copying ∧ scalarClean (.cpScatter .plain 10 36) .plain copying ∧ Plain copying ∧
    (tensorCheck 12 24 copying = none ∧ linCheck 32 copying = none ∧ rowsCheck true 10 36 copying = none ∧
    rowsCheck false 10 36 copying = none ∧ copying.copyRoom 0 = true ∧ copyFull.copyRoom 0 = false ∧
    16 ≤ (copyFull.cb.copy.get 0).queue.length ∧ tensorCheck 12 24 copyFull = none) ∧
    scalarClean (.cpFollow .plain 1 4) .plain matrix ∧ Plain matrix ∧ followCheck .plain 1 4 matrix = none ∧
    (matrix.cb.mx.get (matrix.s 14).toNat).open_.length < 16 ∧ scalarClean (.cpCancel .plain 10) .plain base ∧
    (base.s 20).toNat < 32 ∧ scalarClean (.cpCancel .plain 10) .plain (withS base [(20, 32)]) ∧
    32 ≤ ((withS base [(20, 32)]).s 20).toNat :=
  ⟨scalar_of (by decide +kernel), scalar_of (by decide +kernel), scalar_of (by decide +kernel), scalar_of (by decide +kernel),
    plain_of (by decide +kernel), by decide +kernel, scalar_of (by decide +kernel), plain_of (by decide +kernel),
    by decide +kernel, by decide +kernel, scalar_of (by decide +kernel), by decide +kernel, scalar_of (by decide +kernel),
    by decide +kernel⟩

/-! Sampling: the configuration of program 2, N = 6 and C = 2, in s8:s14; a configured context 0. -/

noncomputable def sampler : State := withS base [(8, 6), (9, 2), (10, 0x100), (17, 7), (65, 0xF10), (64, 4), (41, 2)]
noncomputable def samplerSet : State := sampler.updB 1 fun b =>
  { b with sm := b.sm.put 0 { cfgN := 6, cfgC := 2, n := 6, colours := 2, configured := true } }
/-- Another context holds 2048 nodes, and 16 commands stand in context 0. -/
noncomputable def samplerFull : State := sampler.updB 1 fun b => { b with sm := b.sm.put 1 { cfgN := 2048 } }
noncomputable def samplerBusy : State := sampler.updB 1 fun b =>
  { b with sm := b.sm.put 0 { cfgN := 6, cfgC := 2, queue := List.replicate 16 {} } }
theorem test_wit_SamplingCommands : (∀ i ∈ ([.smCfg .plain 4, .smLdc .plain 8, .smLdb .plain 8, .smClamp .plain 8, .smInit .plain 12,
      .smKey .plain 12 1, .smSweep .plain 32, .smRead .plain 12, .smHlth .plain 12, .smBx .plain 20] : List Instr),
      samplerSet.wordTrap i = none ∧ ((uses i).rs.all fun r => !samplerSet.sp r) = true ∧ samplerFull.wordTrap i = none ∧
        samplerBusy.wordTrap i = none) ∧
    samplerSet.hasIssuer = true ∧ samplerFull.hasIssuer = true ∧ samplerBusy.hasIssuer = true ∧ Plain samplerSet ∧
    smCheck true (cfgForm 8) samplerSet = none ∧ smCheck false (ldcForm 16) samplerSet = none ∧
    smCheck false (ldbForm 16) (withS samplerSet [(17, 0)]) = none ∧ smCheck false (clampForm 16) samplerSet = none ∧
    smCheck false (initForm 24) samplerSet = none ∧ smCheck false (keyForm 24) samplerSet = none ∧
    smCheck false (sweepForm 64) samplerSet = none ∧ smCheck false (readForm 24) samplerSet = none ∧
    smCheck false (hlthForm 24) samplerSet = none ∧ smCheck false (bxForm 40) samplerSet = none ∧ samplerSet.smReady 0 = true ∧
    samplerSet.smReserved 0 + 6 + 0 ≤ 2048 ∧ smCheck true (cfgForm 8) samplerFull = none ∧ 2048 < samplerFull.smReserved 0 + 6 + 0 ∧
    smCheck false (hlthForm 24) samplerBusy = none ∧ samplerBusy.smReady 0 = false :=
  ⟨by decide +kernel, by decide +kernel, by decide +kernel, by decide +kernel, plain_of (by decide +kernel), by decide +kernel⟩
/-- A collective of one rank: 4 words from 0x2000 to 0x3000, mask 1, in s16:s22. -/
noncomputable def collective : State := withS base [(16, 0x2000), (18, 0x3000), (20, 4), (22, 1)]
noncomputable def collectiveFull : State := collective.updB 1 fun b => { b with col := b.col.put 0 { queue := List.replicate 16 {} } }
theorem test_wit_CollectiveCommands : (∀ x ∈ ([(.colRed .plain 8, 32), (.colBcast .plain 8, 33), (.colGath .plain 8, 34)] :
      List (Instr × Nat)), collective.wordTrap x.1 = none ∧ ((uses x.1).rs.all fun r => !collective.sp r) = true ∧
        colCheck x.2 16 collective = none ∧ colCheck x.2 16 collectiveFull = none) ∧ collective.hasIssuer = true ∧
    collectiveFull.hasIssuer = true ∧ Plain collective ∧ (collective.cb.col.get 0).queue.length < 16 ∧
    16 ≤ (collectiveFull.cb.col.get 0).queue.length :=
  ⟨by decide +kernel, by decide +kernel, by decide +kernel, plain_of (by decide +kernel), by decide +kernel, by decide +kernel⟩

/-! Events of the engines. -/

/-- The CP.LIN of `copying`, accepted as command 1 and not yet run, and the same landed with a follow-on. -/
def linCommand (ran : Bool) : CopyCmd := { num := 1, op := .lin [0x2000#32, 0#32, 0x3000#32, 0#32, 0#32, 16#32, 0#32], priv := true, ran := ran }
noncomputable def copyQueue (c : CopyCmd) (landed : List Mma) : State := copying.updB 1 fun b =>
  { b with copy := b.copy.put 0 { c := { accepted := 1, open_ := [1] }, queue := [c], landed := landed } }
theorem test_wit_SluiceEvents : ((((copyQueue (linCommand false) []).b 1).copy.get 0).queue.find? (fun c => !c.ran)) = some (linCommand false) ∧
    (let pl := (copyQueue (linCommand false) []).planOf 1 0 (linCommand false)
     pl.faults = [] ∧ pl.index = none ∧ (linCommand false).marked = false ∧ disjointMoves pl.elems.flatten = true ∧
       (∀ m, m ∈ pl.elems.flatten → m.nib = 0) ∧ pl.elems.flatten.length = 16 ∧ (copyQueue (linCommand false) []).writes = []) ∧
    (∀ k, k < 16 → copying.linSide ((linCommand false).who 1) (ctxWord 0 0) false false 0x2000#32 0#32 16 k = .ok (.dev (0x2000 + k) false) ∧
      copying.linSide ((linCommand false).who 1) (ctxWord 0 0) false true 0x3000#32 0#32 16 k = .ok (.dev (0x3000 + k) false)) ∧
    (((copyQueue (linCommand true) []).b 1).copy.get 0).queue.find? (fun d => decide (d.num = (linCommand true).num)) = some (linCommand true) ∧
    (copyQueue (linCommand true) []).copyLanded (linCommand true) = true ∧
    (((copyQueue (linCommand true) [command false]).b 1).copy.get 0).landed = command false :: [] ∧
    (copyQueue (linCommand true) [command false]).arrayRoom
      (((copyQueue (linCommand true) [command false]).b 1).coreOf (command false).member) (command false).part = true := by
  decide +kernel

/-- Block 1 holds the sampling array; context 0 is configured with 6 nodes, 2 colours and 1 ghost. -/
noncomputable def arrayHeld (busy : Option Nat) (x : SmCtx) : State :=
  (base.updB 1 fun b => { b with sm := b.sm.put 0 x }).updCo 0 fun c => { c with array := { bound := some 1, busy := busy } }
def sctx (c : SmCmd) : SmCtx := { c := { accepted := 1, open_ := [1] }, queue := [c], cfgN := 6, cfgG := 1, cfgC := 2, n := 6, g := 1, colours := 2, configured := true }
/-- A landed boundary exchange to context 0 of core 0, and to a core that no array holds. -/
def exchange (core : Nat) : SmCtx := { sctx { num := 1, fn := 29, blk := [0#32, 0#32, BitVec.ofNat 32 core] } with bx := some [(0, true)] }
noncomputable def arrayGone : State := (arrayHeld none {}).updB 1 fun b => { b with state := .exited }
theorem test_wit_SamplingEvents : (∀ fn ∈ [24, 25, 26],
      (((arrayHeld none (sctx { num := 1, fn := fn, mode := 1 })).b 1).sm.get 0).queue = [{ num := 1, fn := fn, mode := 1 }]) ∧
    (∀ fn ∈ [24, 25, 26], (let s := arrayHeld none (sctx { num := 1, fn := fn, mode := 1 })
      (s.array (s.b 1).arrayCore).bound = some 1 ∧ (s.array (s.b 1).arrayCore).busy = none ∧
        (s.array (s.b 1).arrayCore).failed = false ∧ s.smNext 1 = some 0 ∧ ∀ w, w ∈ s.smWords 1 0 1 0 1 → w.isSome = true)) ∧
    (let s := arrayHeld (some 0) { sctx { num := 1, fn := 26, mode := 0 } with mode := 1, running := some {} }
     (s.array 0).bound = some 1 ∧ (s.array 0).busy = some 0 ∧ (s.b 1).arrayCore = 0 ∧
       ((s.b 1).sm.get 0).queue = [{ num := 1, fn := 26, mode := 0 }] ∧ ((s.b 1).sm.get 0).running = some {} ∧
       ((s.b 1).sm.get 0).mode = 1) ∧
    (let s := arrayHeld (some 0) (exchange 0)
     ((s.b 1).sm.get 0).bx = some [(0, true)] ∧ s.landingBlock (s.b 1).grid 0 = some 1 ∧ ((s.b 1).sm.get 0).configured = true ∧
       0 < ((s.b 1).sm.get 0).g) ∧
    (let s := arrayHeld (some 0) (exchange 5)
     ((s.b 1).sm.get 0).bx = some [(0, true)] ∧ s.landingBlock (s.b 1).grid 5 = none) ∧
    (arrayGone.array 0).bound = some 1 ∧ (arrayGone.b 1).gone = true ∧ (arrayGone.b 1).smLoad = 0 := by
  decide +kernel

/-- A broadcast of 4 words among one rank, from 0x2000 to 0x3000. -/
def broadcast : ColCmd := { num := 1, fn := 33, src := 0x2000, dst := 0x3000, n := 4, ty := 1, mask := 1, priv := true }
noncomputable def colQueue : State := base.updB 1 fun b =>
  { b with col := b.col.put 0 { c := { accepted := 1, open_ := [1] }, queue := [broadcast] } }
theorem test_wit_CollectiveCompletion : ((colQueue.b 1).col.get 0).queue.find? (fun d => decide (d.num = 1)) = some broadcast ∧
    colQueue.colLost broadcast = false ∧ colQueue.colMatched broadcast (broadcast.parts []) = true ∧ broadcast.marked = false ∧
    (∀ p, p ∈ colQueue.colSource broadcast (ctxWord 3 0) → ∃ q, p = .ok q ∧ colQueue.placePo q 1 = false) ∧
    (let out := broadcast.result (colQueue.colData (colQueue.engReader 1 3 0 1) broadcast (colQueue.colSource broadcast (ctxWord 3 0)) [])
     0 < out.length ∧ ∀ k, k < out.length →
       colQueue.colPlace broadcast (ctxWord 3 0) true ((broadcast.dst + k) % 2 ^ 64) = .ok (.dev (0x3000 + k) false)) := by
  refine ⟨by decide +kernel, by decide +kernel, by decide +kernel, by decide +kernel, fun p m => ?_, by decide +kernel⟩
  have h : (colQueue.colSource broadcast (ctxWord 3 0)).all (fun p => match p with
      | .ok q => !colQueue.placePo q 1
      | .error _ => false) = true := by decide +kernel
  have y := List.all_eq_true.mp h p m
  cases p with
  | ok q => exact ⟨q, rfl, by simpa using y⟩
  | error e => cases y

/-- The command of another member, of the same COMM and place in the order, whose n differs, or does not. -/
def part1 (n : Nat) : PeerPart := ⟨1, 0, 0, 33, 3, n, 1, 0, 0, 0, [], false⟩
noncomputable def colPair : State := base.updB 1 fun b =>
  { b with col := b.col.put 0 { c := { accepted := 1, open_ := [1] }, queue := [{ broadcast with mask := 3 }] } }
theorem test_wit_CollectiveParts :
    ((colPair.b 1).col.get 0).queue.find? (fun d => decide (d.num = 1)) = some { broadcast with mask := 3 } ∧
    (∀ n ∈ [4, 5], ColCmd.parts { broadcast with mask := 3 } [part1 n] = [part1 n]) ∧
    ColCmd.differs { broadcast with mask := 3 } (part1 4) = false ∧ ColCmd.differs { broadcast with mask := 3 } (part1 5) = true ∧
    (let s := { colPair with ports := [(0, 2)], routes := [(1, [0])] }
     s.colLost { broadcast with mask := 3 } = false ∧ s.colMatched { broadcast with mask := 3 } [part1 5] = true) := by
  decide +kernel

/-! Launches: a code object at 0x20000 with one entry at offset 0, a parameter block at 0x21000 whose address stands in s8:s9. -/

def launchBlock : List Byte := leBytes 8 0x20000 ++ leBytes 4 0 ++ leBytes 4 0 ++ leBytes 4 2 ++ leBytes 4 1 ++ leBytes 4 1 ++ leBytes 4 1 ++
  leBytes 4 0 ++ leBytes 4 32
def codeHeader : List Byte := leBytes 4 0x014F4347 ++ leBytes 2 1 ++ leBytes 2 0x0110 ++ leBytes 4 4096
noncomputable def launching : State := withS { base with
  mem := (((base.mem.write 0x20000 codeHeader).write 0x2001C (leBytes 2 1)).write 0x20300 (leBytes 8 0x800000000)).write 0x21000 launchBlock }
  [(8, 0x21000)]
noncomputable def launchFull : State := { launching with queues := launching.queues.put 0 (List.replicate 1024 7) }
theorem test_launch_block : launching.examine launching.cg (launching.s2 8) =
    .ok ({ code := 0x20000, gridx := 2, gridy := 1, gridz := 1, groups := 1, vregs := 32, deps := [0, 0, 0, 0] }, { va := 0x20000, textlen := 4096 }) := by
  decide +kernel
/-- The same block with a dependence on grid 9, which is killed; and a record table that is full. -/
noncomputable def launchDoomed : State :=
  { launching.setGr 9 { live := true, state := .killed, p := { gridx := 1, gridy := 1, gridz := 1, groups := 1 } } with mem := launching.mem.write 0x21038 (leBytes 4 9) }
theorem test_wit_LaunchDependences : (match launchDoomed.examine launchDoomed.cg (launchDoomed.s2 8) with
      | .ok x => x.1.deps.any fun d => (launchDoomed.gr d).doomed
      | .error _ => false) = true ∧
    ∀ d ∈ [0, 0, 0, 0], (launching.gr d).meets = false ∧ (launching.gr d).doomed = false := by decide +kernel
theorem test_wit_LaunchOutcomes : scalarClean (.launch .plain 3 8) .plain launching ∧ Plain launching ∧ Room 5 launching ∧
    (launching.queues.get 0).length < 1024 ∧ scalarClean (.launch .plain 3 8) .plain (withS base [(8, 4)]) ∧ Plain (withS base [(8, 4)]) ∧
    Room 5 (withS base [(8, 4)]) ∧ (withS base [(8, 4)]).s2 8 % 8 ≠ 0 ∧ scalarClean (.launch .plain 3 8) .plain launchFull ∧
    (∃ x, launchFull.examine launchFull.cg (launchFull.s2 8) = .ok x) ∧ 1024 ≤ (launchFull.queues.get 0).length :=
  ⟨scalar_of (by decide +kernel), plain_of (by decide +kernel), room_of (by decide +kernel), by decide +kernel,
    scalar_of (by decide +kernel), plain_of (by decide +kernel), room_of (by decide +kernel), by decide +kernel,
    scalar_of (by decide +kernel), found (by decide +kernel), by decide +kernel⟩

/-! Grids and host messages: the group's scratchpad address 0x100 stands in s8, a count or a queue number in s4. -/

noncomputable def messages (y : Nat) : State := withS base [(8, 0x100), (4, y)]
/-- A grid of handle 7, completed or running, is named at 0x100. -/
noncomputable def joining (st : GridState) : State :=
  ((messages 1).setGr 7 { live := true, state := st }).updB 1 fun b => { b with scratch := b.scratch.put 0x100 7#8 }
/-- The grid has a furrow of 5 items in rows of 2, of which n have been drawn. -/
noncomputable def furrow (n : Nat) : State := (messages 0).updGr 1 fun g => { g with next := n, p := { g.p with wqCount := 5, wqx := 2, wqy := 3 } }
noncomputable def inlet : State := { messages 3 with inlets := (messages 3).inlets.put 3 [List.replicate 64 9#8] }
noncomputable def outletBusy : State := { messages 3 with outprod := (messages 3).outprod.put 3 256 }
theorem test_wit_GridAndHostMessages : (∀ i ∈ ([.trig .plain, .joinw .plain 4 8, .wqNext .plain 8, .recv .plain 4 8, .send .plain 4 8] :
      List Instr), scalarClean i .plain base) ∧
    (∀ s ∈ ([joining .completed, joining .running, furrow 3, furrow 5, inlet, messages 3, outletBusy] : List State),
      Direct s ∧ Room 2 s ∧ Room 4 s ∧ s.hasIssuer = true ∧
      (∀ i ∈ ([.joinw .plain 4 8, .wqNext .plain 8, .recv .plain 4 8, .send .plain 4 8] : List Instr),
        s.wordTrap i = none ∧ ((uses i).rs.all fun r => !s.sp r) = true) ∧
      (∀ n ∈ [8, 64], spadAt s 8 n 1 0x100)) ∧ Plain base ∧
    joinCheck 8 4 (joining .completed) = none ∧ joinCheck 8 4 (joining .running) = none ∧
    (∀ s ∈ ([joining .completed, joining .running] : List State), SMap.canon s.grids = true ∧
      (s.paramsOf s.cg).scratch ≤ 1572864 ∧ (scratchWord s 1 0x100).toNat = 7 ∧ (s.gr 7).live = true ∧ s.cs.waitOn = none) ∧
    ((joining .completed).gr 7).terminal = true ∧ ((joining .running).gr 7).terminal = false ∧ wqCheck 8 (furrow 3) = none ∧
    ((furrow 3).gr (furrow 3).cgrid).next = 3 ∧ ((furrow 5).gr (furrow 5).cgrid).next = 5 ∧
    ((furrow 5).gr (furrow 5).cgrid).p.wqCount = 5 ∧ ((furrow 5).gr (furrow 5).cgrid).p.wqx = 2 ∧ msgCheck 8 4 inlet = none ∧
    inlet.inlets.get (inlet.s 4).toNat = [List.replicate 64 9#8] ∧ inlet.inletHeld.get 3 = [] ∧
    (messages 3).inlets.get ((messages 3).s 4).toNat = [] ∧ msgCheck 8 4 (messages 3) = none ∧
    (messages 3).outletFull ((messages 3).s 4).toNat = false ∧ msgCheck 8 4 outletBusy = none ∧
    outletBusy.outletFull (outletBusy.s 4).toNat = true ∧ outletBusy.cs.waitOn = none := by
  refine ⟨scalars_of (by decide +kernel), ?_, plain_of (by decide +kernel), ?_⟩
  · intro s m
    simp only [List.mem_cons, List.not_mem_nil, or_false] at m
    rcases m with rfl | rfl | rfl | rfl | rfl | rfl | rfl <;>
      exact ⟨direct_of (by decide +kernel), room_of (by decide +kernel), room_of (by decide +kernel), by decide +kernel,
        by decide +kernel, by unfold spadAt; decide +kernel⟩
  · decide +kernel

/-! Traps: the group runs its handler, or a handler is set up for every trap, or none is. -/

noncomputable def inHandler : State := withG base fun g => { g with handler := true }
noncomputable def delegating : State :=
  (withG base fun g => { g with inflight := [{ path := 1 }] }).updCo 0 fun c => { c with tctl := 1#32, tdeleg := 0xFFFFFFFF#32 }
theorem free_of {s : State} {gid : Nat} (x : (s.di (dieOf (s.g gid).core)).unreserved < 248 ∧
    (s.di (dieOf (s.g gid).core)).enqueues = false) : slotFree s gid := x
theorem test_wit_TrapDelivery : (slotFree inHandler 1 ∧ slotFree base 1 ∧ noneEnters base 1) ∧
    (∀ s ∈ ([inHandler, delegating, base] : List State), (s.g 1).poisonPass = none) ∧ (base.g 1).drained = true ∧
    (inHandler.g 1).handler = true ∧ (delegating.g 1).handler = false ∧ (base.g 1).handler = false ∧
    (delegating.co (delegating.g 1).core).tctl.getLsbD 0 = true ∧ (delegating.co (delegating.g 1).core).tdeleg.getLsbD 1 = true ∧
    (delegating.g 1).drained = false ∧ (base.co (base.g 1).core).tctl.getLsbD 0 = false ∧
    ((base.updCo 0 fun c => { c with tctl := 2#32 }).co 0).tctl.getLsbD 1 = true :=
  ⟨⟨free_of (by decide +kernel), free_of (by decide +kernel), by unfold noneEnters; decide +kernel⟩, by decide +kernel⟩

/-- Group 1 is about to enter the handler: its frame at 0x200000, a code object at 0x20000 as the handler. -/
noncomputable def entering : State :=
  let s := launching.updCo 0 fun c => { c with tctl := 1#32, tfblo := 0x200000#32, tveclo := 0x20000#32 }
  s.updG 1 fun g => { g with stop := .enter { code := 1, tval := 5#32, tpc := 8 } }
noncomputable def enteringPoison : State := entering.updG 1 fun g => { g with spo := g.spo.put 50 true }
theorem reached_of {s : State} (x : s.writes = []) {q : Origin} {p : Place} {n : Nat} : reachedBy s q p n := fun w m => by
  rw [x] at m
  exact absurd m List.not_mem_nil
theorem test_wit_HandlerEntry : (slotFree enteringPoison 1 ∧
      reachedBy entering (entering.lanesAt 1 allLanes) (.dev 0x200000 false) 512) ∧ (∀ s ∈ ([entering, enteringPoison] : List State),
      (s.g 1).stop = .enter { code := 1, tval := 5#32, tpc := 8 } ∧ (s.g 1).drained = true ∧ (s.g 1).live = true) ∧
    (enteringPoison.g 1).framePoison = true ∧
    (entering.g 1).framePoison = false ∧
    (let g := entering.g 1
     let c := entering.co g.core
     let r := entering.translate g.core true .store (c.tfbase + 512 * g.slot)
     r.1 = .ok (.dev 0x200000 false) ∧ 0x200000 % 512 = 0 ∧ (r.2.headerBytes g true c.tvec).1.isSome = true) :=
  ⟨⟨free_of (by decide +kernel), reached_of (by decide +kernel)⟩, by decide +kernel⟩

/-- A handler whose frame at 0x200000 holds one split of all lanes at offset 8, in mode U, with action 0; one whose lanes do not all
stand here; one outside any handler whose signature is 0x5A. -/
noncomputable def returning : State :=
  let s := withG inHandler fun g => { g with frameVa := 0x200000 }
  { s with mem := (s.mem.write 0x200020 (leBytes 4 0x100008)).write 0x200024 (leBytes 4 0xFFFFFFFF) }
noncomputable def returningSplit : State := withG returning fun g => { g with splits := (g.splits.put 0 { g.splits.get 0 with mask := 1#32 }) }
noncomputable def signed : State := withG base fun g => { g with splits := (g.splits.put 0 { g.splits.get 0 with sig := 0x5A#32 }) }
noncomputable def popping (q : List QRec) : State := (withS base [(8, 0x100), (4, 1)]).updDi 1 fun d => { d with queue := q }
theorem test_wit_TrapInstructions : (∀ i ∈ ([.trap .plain 7, .brk .plain, .region .plain, .sigchk .plain 0xFFFFFFA5, .sigchk .plain 7] :
      List Instr), scalarClean i .plain base ∧ scalarClean i .plain signed) ∧ scalarClean (.tret .plain) .plain base ∧
    base.cg.handler = false ∧ scalarClean (.tret .plain) .plain returning ∧ returning.cg.handler = true ∧ returning.tretReady = true ∧
    (∃ f, (returning.readFrame returning.cur.gid).1 = .ok f ∧ f.poisoned = false ∧ f.misuse = false ∧
      (f.restore returning.cg (returning.paramsOf returning.cg).privileged).inconsistent = false ∧ f.action = 0) ∧
    scalarClean (.tret .plain) .plain returningSplit ∧ returningSplit.cg.handler = true ∧ returningSplit.tretReady = false ∧
    Plain base ∧ base.regionReady = true ∧ Plain signed ∧ (signed.paired signed.cur.gid = false ∧
    ~~~ signed.cs.sig = BitVec.ofNat 32 0xFFFFFFA5 ∧ ~~~ signed.cs.sig ≠ BitVec.ofNat 32 7 ∧ signed.cg.region.sigtry = 0 ∧
    signed.cg.handler = false) ∧ (∀ q ∈ ([[{}], []] : List (List QRec)), scalarClean (.tqPop .plain 4 8) .plain (popping q) ∧
      Direct (popping q) ∧ tqPopCheck 8 4 (popping q) = none ∧ Room 4 (popping q) ∧ spadAt (popping q) 8 64 1 0x100 ∧
      ((popping q).di ((popping q).s 4).toNat).queue = q) := by
  refine ⟨fun i m => ⟨scalars_of (is := [.trap .plain 7, .brk .plain, .region .plain, .sigchk .plain 0xFFFFFFA5,
      .sigchk .plain 7]) (by decide +kernel) i m, ?_⟩, scalar_of (by decide +kernel), by decide +kernel, scalar_of (by decide +kernel),
    by decide +kernel, by decide +kernel, ⟨((returning.readFrame returning.cur.gid).1.toOption).getD {}, by decide +kernel⟩,
    scalar_of (by decide +kernel), by decide +kernel, by decide +kernel, plain_of (by decide +kernel), by decide +kernel,
    plain_of (by decide +kernel), by decide +kernel, ?_⟩
  · simp only [List.mem_cons, List.not_mem_nil, or_false] at m
    rcases m with rfl | rfl | rfl | rfl | rfl <;> exact scalar_of (by decide +kernel)
  · intro q m
    simp only [List.mem_cons, List.not_mem_nil, or_false] at m
    rcases m with rfl | rfl <;>
      exact ⟨scalar_of (by decide +kernel), direct_of (by decide +kernel), by decide +kernel, room_of (by decide +kernel),
        by unfold spadAt; decide +kernel, by decide +kernel⟩

/-! Maintenance: the core in s8 (bits 9:8 of s8 the mode of DRAIN) and the operand in s2; core 5 as it is, drained, scanning, or out of
service. -/

noncomputable def maintain (x y : Nat) (f : Core → Core) : State := (withS base [(8, x), (2, y)]).updCo 5 f
noncomputable def removed5 (s : State) : State := { s with map := s.map.put 5 .removed }
def drained5 (c : Core) : Core := { c with drained := true }
def scanning5 (c : Core) : Core := { c with drained := true, scan := { pattern := 2, state := 1 } }
theorem test_wit_DrainScanAndMap : (∀ s ∈ ([maintain 0x205 0 id, maintain 0x205 0 drained5, maintain 0x205 0 scanning5, maintain 0 0 id,
      maintain 0x105 0 drained5, removed5 (maintain 5 0 id), maintain 5 0 id, maintain 5 3 drained5, maintain 5 5 id,
      maintain 5 0xFFFFFFFF drained5, maintain 5 60 drained5, maintain 5 6 drained5, maintain 5 48 drained5] : List State),
      Room 5 s ∧ s.hasIssuer = true ∧ s.scalarGuard .plain = true ∧ (s.s 8).toNat < 1024 ∧ (s.s 8).toNat % 256 < s.ncores ∧
      ∀ i ∈ ([.drain .plain 2 8, .drainPreempt .plain 2 8, .drainClear .plain 2 8, .scanRun .plain 2 8, .scanRunAbort .plain 2 8,
        .scanSig .plain 4 8, .cmapSet .plain 2 8, .cmapSetRemove .plain 2 8] : List Instr),
        s.wordTrap i = none ∧ ((uses i).rs.all fun r => !s.sp r) = true) ∧
    base.cg.core = 0 ∧ base.cb.partner = none ∧ base.inService 5 = true ∧ base.physOf 5 = 5 ∧ base.ncores = 192 ∧
    ((maintain 5 0 id).co 5).drained = false ∧ ((maintain 5 0 drained5).co 5).drained = true ∧
    ((maintain 5 0 drained5).co 5).drains = [] ∧ ((maintain 5 0 scanning5).co 5).scan.state = 1 ∧
    (removed5 (maintain 5 0 id)).inService 5 = false ∧ (maintain 5 60 drained5).s 2 = 60#32 ∧ 60 / 51 ≠ 5 / 48 ∧
    (maintain 5 6 drained5).serves 6 = true ∧ (maintain 5 48 drained5).serves 48 = false ∧ 48 ∉ (maintain 5 48 drained5).failedCores := by
  refine ⟨?_, by decide +kernel⟩
  intro s m
  simp only [List.mem_cons, List.not_mem_nil, or_false] at m
  rcases m with rfl | rfl | rfl | rfl | rfl | rfl | rfl | rfl | rfl | rfl | rfl | rfl | rfl <;>
    exact ⟨room_of (by decide +kernel), by decide +kernel⟩
theorem test_wit_MaintenanceEvents : (let s := maintain 5 0 fun c => { c with drains := [⟨1, 9⟩] }
      (s.co 5).drains = [⟨1, 9⟩] ∧ s.quiescent 5 = true ∧ (s.g 1).live = true) ∧
    (let s := { maintain 5 0 scanning5 with ns := 200000 }
     (s.co 5).scan.state = 1 ∧ 100 * (s.co 5).scan.pattern ≤ (s.ns - (s.co 5).scan.since) / 1000 ∧ (s.co 5).drained = true ∧
       (s.co 5).drains = []) := by decide +kernel

/-! Pairs and records: block 1 runs as a pair of cores 0 and 1; a group that has restarted, waits for the reserve, or for the queue. -/

noncomputable def pairOf (try_ : Nat) : State :=
  withG (base.updB 1 fun b => { b with partner := some 1 }) fun g => { g with pairTry := try_, pairBuf := [{ kind := 1, addr := 0x3000, bytes := [7#8] }] }
/-- The buffer of a pair is full; an instruction of it has got to its comparison, and the members differ or not. -/
noncomputable def pairFull : State := (pairOf 0).updG 1 fun g => { g with pairBuf := List.replicate 64 { kind := 1, addr := 0x3000, bytes := [7#8], lanes := 1#32 } }
noncomputable def comparing (bad : Bool) (try_ : Nat) : State :=
  (pairOf try_).updG 1 fun g => { g with compared := true, pairBad := bad, splits := g.splits }
noncomputable def stopped (st : Stop) : State := withG base fun g => { g with stop := st }
noncomputable def parked (queued : Bool) : State :=
  { (stopped (.replay { code := 8 } 1 queued)).updDi 0 fun d => { d with deferred := if queued then [] else [1] } with tokens := 1, tqrtok := 1#32 }
theorem test_wit_PairComparison : slotFree (comparing true 1) 1 ∧ (pairOf 0).paired 1 = true ∧ ((pairOf 0).g 1).live = true ∧
    ((pairOf 0).g 1).stop = .running ∧ 64 ≤ (pairFull.g 1).pairBuf.length ∧ (pairFull.g 1).pairBad = false ∧
    pairFull.paired 1 = true ∧ (pairFull.g 1).live = true ∧ (pairFull.g 1).stop = .running ∧ pairFull.writes = [] ∧
    (∀ p, p ∈ (pairFull.g 1).pairBuf → ∀ q, q ∈ (pairFull.g 1).pairBuf → p.lanes &&& q.lanes ≠ 0#32) ∧
    (comparing false 0).cg.compared = true ∧ (comparing false 0).cg.pairBad = false ∧
    (∀ n ∈ [0, 1], (comparing true n).cg.compared = true ∧ (comparing true n).cg.pairBad = true ∧
      (comparing true n).cg.pairTry = n ∧ (comparing true n).cg.drained = true ∧ (comparing true n).cg.poisonPass = none ∧
      (comparing true n).cg.handler = false) :=
  ⟨free_of (by decide +kernel), by decide +kernel⟩
theorem test_wit_PairsAndRecords :
    (let s := stopped .restart
     (s.g 1).stop = .restart ∧ (s.g 1).drained = true ∧ (s.b (s.g 1).bid).state ≠ .saved) ∧
    (let s := (stopped (.reserve { code := 1 } true)).updDi 0 fun d => { d with waiting := [1] }
     (s.di (dieOf (s.g 1).core)).waiting = 1 :: [] ∧ (s.di 0).unreserved < 248 ∧ (s.g 1).stop = .reserve { code := 1 } true) ∧
    ((parked false).di 0).waiting = [] ∧ ((parked false).di 0).deferred = 1 :: [] ∧ ((parked false).di 0).unreserved < 248 ∧
    ((parked false).g 1).stop = .replay { code := 8 } 1 false ∧
    (parked true).tokenGroup (parked true).tqrtok.toNat = some (1, { code := 8 }) ∧ base.tokenGroup base.tqrtok.toNat = none := by
  decide +kernel

noncomputable def late : State := withG base fun g => { g with noIssue := 2 ^ 31 }
/-- A split waits for collective 1 of context 0, whose member 1 stands behind a port in RECOVER. -/
noncomputable def waiting40 : State :=
  let s := base.updB 1 fun b => { b with col := b.col.put 0 { queue := [{ num := 1, mask := 3 }] } }
  { withG s fun g => { g with splits := g.splits.put 0 { g.splits.get 0 with waitOn := some (.timeline 0x30000000 1 0) } } with
    ns := 10 ^ 12, ports := [(0, 3)], routes := [(1, [0])] }
theorem test_wit_ErrorsAndContainment : late.watchdogDue 1 = true ∧
    ((base.updCo 0 fun c => { c with wdlimit := 0#32 }).co ((base.updCo 0 fun c => { c with wdlimit := 0#32 }).g 1).core).wdlimit = 0#32 ∧
    0 < base.part.dies ∧ (base.g 1).here = true ∧ (base.b 1).live = true ∧ inMask (base.g 1).alive 7 = true ∧
    (base.g 1).alive &&& ~~~ (laneBit 7) ≠ 0#32 ∧ base.containBusy = none ∧ base.unitExists 1 0 3 = true ∧ base.unitExists 1 0 4 = false ∧
    base.unitExists 2 3 31 = true ∧ base.unitExists 3 191 0 = true ∧ base.unitExists 4 0 0 = true ∧ base.unitExists 5 0 0 = true ∧
    base.unitExists 6 0 1 = true ∧ base.unitExists 7 0 15 = true ∧ base.unitExists 7 0 16 = false ∧
    (base.di (dieOf (base.g 1).core)).enqueues = false ∧ base.powered = true ∧ ({ base with powered := false }).powered = false ∧
    ({ base with containBusy := some { kind := 1 } }).containBusy.isSome = true ∧ (1, base.b 1) ∈ base.blocks ∧ 1 ∈ (base.b 1).groups ∧
    base.onPartition 0 (partOf (base.g 1).slot) 1 = true ∧ (base.g 1).bid = 1 := by decide +kernel
theorem test_wit_remote : ∃ c, waiting40.remoteDue 1 0 = some c := ⟨(waiting40.remoteDue 1 0).getD 0, by decide +kernel⟩

/-! Grids, pre-emption, the fabric and the outside. -/

noncomputable def gridOf (g : Grid) : State := { base.setGr 7 { g with live := true } with queues := base.queues.put 0 [7] }
def twoBlocks : Params := { gridx := 2, gridy := 1, gridz := 1, groups := 1, vregs := 32, deps := [0, 0, 0, 0] }
noncomputable def releasing (left : Nat) : State := (stopped .ended).updB 1 fun b => { b with groupsLeft := left }
noncomputable def doneGrid : State := (base.updB 1 fun b => { b with state := .exited }).updGr 1 fun g => { g with state := .running, ended := [(0, true)] }
/-- Grid 7 may bind its first block, with some bind records on die 0. -/
noncomputable def bindable (rs : List BindRec) : State :=
  (gridOf { admitted := true, p := twoBlocks }).updDi 0 fun d => { d with binds := rs }
/-- The grid of the issuing group in a state. -/
noncomputable def ending (st : GridState) : Grid := (base.updGr 1 fun g => { g with live := true, state := st }).gr 1
noncomputable def ctlFaulted : State := { base.updGr 1 fun g => { g with state := .faulted } with ctlGrid := some 1 }
theorem test_wit_GridEvents : (gridOf {}).mayAdmit 7 = true ∧ (gridOf { p := { deps := [1, 0, 0, 0] } }).mayAdmit 7 = true ∧
    (gridOf { admitted := true, p := twoBlocks }).mayBind 7 0 [5] = some [(0, [5])] ∧
    (gridOf { admitted := true, p := { twoBlocks with paired := true } }).mayBind 7 0 [5, 6] = some [(0, [5, 6])] ∧ twoBlocks.clust ≤ 1 ∧
    ((bindable []).di 0).binds = [] ∧ (bindable []).mayCarry 7 [(0, [5])] = true ∧
    ((bindable [⟨7, 0, [5]⟩]).di 0).binds = ⟨7, 0, [5]⟩ :: [] ∧ ((bindable [⟨7, 0, [5]⟩]).gr 7).unitOf 0 [5] = [(0, [5])] ∧
    (bindable [⟨7, 0, [5]⟩]).mayCarry 7 [(0, [5])] = true ∧
    ((bindable [⟨8, 0, [5]⟩]).di 0).binds.head? ≠ some ⟨7, 0, [5]⟩ ∧ (bindable [⟨8, 0, [5]⟩]).mayBind 7 0 [5] = some [(0, [5])] ∧
    (∀ st ∈ [GridState.queued, .running], (ending st).live = true ∧ (ending st).terminal = false ∧ (ending st).killing = false ∧
      (ending st).state = st) ∧
    ctlFaulted.usable 0 = true ∧ (releasing 1).mayRelease 1 = true ∧ ((releasing 1).b 1).groupsLeft = 1 ∧ (releasing 2).mayRelease 1 = true ∧
    1 < ((releasing 2).b 1).groupsLeft ∧ doneGrid.gridDone 1 = true ∧ ctlFaulted.ctlGrid = some 1 ∧ (ctlFaulted.gr 1).state = .faulted ∧
    ((ctlFaulted.countUncorr 0).headerBytes {} true (controlParams ctlFaulted.ctlParams).code).1.isSome = true := by decide +kernel

noncomputable def inState (st : BlockState) : State := { base.updB 1 fun b => { b with state := st } with cycle := 300000 }
theorem test_wit_PreemptionEvents : (base.b 1).live = true ∧ (base.b 1).state = .bound ∧ (base.b 1).cluster = [] ∧
    base.ctlGrid ≠ some (base.b 1).grid ∧ ctlFaulted.ctlGrid = some (ctlFaulted.b 1).grid ∧
    ((inState (.draining 0)).b 1).state = .draining 0 ∧ ((inState (.draining 0)).b 1).cluster = [] ∧
    4 * (inState (.draining 0)).drainMax ≤ (inState (.draining 0)).cycle - 0 ∧ ((inState .saving).b 1).state = .saving ∧
    ((inState .saving).b 1).cluster = [] ∧ ((inState .saving).b 1).members = [0] ∧ (inState .saving).saveReady 1 = true ∧
    ((inState .flushing).b 1).live = true ∧ ((inState .flushing).b 1).state = .flushing ∧ ((inState .flushing).b 1).cluster = [] ∧
    ((inState .saved).b 1).state = .saved ∧ ((inState .saved).b 1).cluster = [] ∧ ((inState .saved).b 1).partner = none ∧
    (inState .saved).mayRestore 1 [3] = true := by decide +kernel
theorem test_wit_FabricEvents : (base.co 0).inv = none ∧ ((base.updCo 0 fun c => { c with inv := some (some 0x10000) }).co 0).inv = some (some 0x10000) ∧
    base.invWaits (some 0x10000) = false ∧ (pairFull.updCo 0 fun c => { c with inv := some none }).invWaits none = true ∧
    ((pairFull.updCo 0 fun c => { c with inv := some none }).co 0).inv = some none ∧
    base.adaptersEmpty = true ∧ (filling { st := 1 }).adaptersEmpty = false ∧ base.colBusy = false ∧ colQueue.colBusy = true ∧
    BitVec.ofNat 32 3 &&& 0x1F1F#32 ≠ colQueue.fabid &&& 0x1F1F#32 ∧ base.rank = 0 ∧ (base.g 1).live = true ∧ base.ports.get 3 = 0 ∧
    (∀ k ∈ [1, 2, 3], ({ base with ports := [(3, k)] }).ports.get 3 = k) := by decide +kernel
/-- The module is locked, with a boundary due. -/
noncomputable def ticking (next : List (Nat × Nat)) : State := { base with locked := true, ns := 20000, tickAt := 10000, tickNext := next }
noncomputable def mirroring : State :=
  { base with mirctl := 0x80010000#32, mirstat := 3, ports := [(0, 2)], routes := [(1, [0])], mirror := [{ pa := 0x3000, bytes := [7#8] }] }
theorem test_wit_ExchangeAndMirror : (∀ l ∈ [[], [(3000, 20000)], [(2000, 5), (3000, 20000)]],
      (ticking l).tickDue = true ∧ (ticking l).tickNext = l ∧ (ticking l).tickAt = 10000) ∧ base.powered = true ∧ base.tickDue = false ∧ base.locked = false ∧ base.detx = false ∧
    ({ base with fabid := 0x10000#32 }).detx = true ∧
    (let s := { base with received := [(1, 5, .store 0x3000 [7#8] false)] }
     s.received = [(1, 5, .store 0x3000 [7#8] false)] ∧ s.markersIn 5 = true ∧ 0x3000 + [7#8].length ≤ 2 ^ 41) ∧
    base.mirctl.getLsbD 31 = false ∧ mirroring.mirctl.getLsbD 31 = true ∧ mirroring.mirstat = 3 ∧
    mirroring.routeWaits mirroring.mirPeer = false ∧ mirroring.mirror = { pa := 0x3000, bytes := [7#8] } :: [] := by decide +kernel
theorem test_wit_HostAndPower : wellFormedMsg (leBytes 64 0x8000003C) = true ∧ wellFormedMsg (leBytes 64 0x8000003D) = false ∧ (base.inlets.get 3).length < 256 ∧
    ({ base with outlets := [(3, [leBytes 64 1])] }).outlets.get 3 = [leBytes 64 1] ∧ ({ base with linkUp := true }).linkUp = true ∧
    (leBytes 64 0).length = 64 ∧ base.keys = true ∧ base.provisioned = true ∧ ({ base with keys := false }).keys = false ∧
    base.powered = true ∧ ({ base with broughtUp := true }).broughtUp = true ∧ State.reset.broughtUp = false ∧
    ({ (default : BootImage) with verified := true }).verified = true ∧ ({ (default : BootImage) with verified := false }).verified = false ∧ 1650000 ≤ base.khz ∧
    ({ base with powered := false }).powered = false ∧ 1 < base.khz := by
  decide +kernel

/-! ### Steps -/

theorem test_wit_DecodesEncodings : ∀ i ∈ ([.iadd .plain 3 1 2, .sLit64 .plain 2 3 4, .mbr .plain [⟨10, false, 2⟩], .scanRun .plain 2 8] :
    List Instr), wfError i = none ∧ sharedWord i = false ∧ (encode i).isSome = true := by decide +kernel
theorem test_wit_EncodesDecodings : storable (.word 0x0C22000D []) ∧ (decodeCode (.word 0x0C22000D [])).toOption = some (.imad .plain 8 2 3) ∧
    wfError (.imad .plain 8 2 3) = none ∧ storable (.parcel 0x1932) := by
  refine ⟨⟨by decide, by decide, by decide +kernel, nofun⟩, by decide +kernel, by decide +kernel, by decide, by decide⟩

/-- S.MOV s13, s2 stands at the entry of group 1, whose page the micro-TLB of core 0 holds. -/
def page0 : TlbEntry := { bits := 29, x := true, u := true, w := true }
noncomputable def placed : State := (State.reset.withFetchWord 32 0x00434027).updCo 0 fun c => { c with tlb := [page0] }
theorem test_wit_StepRunsInstruction : readCode (leBytes 4 0x00434027) = some (.word 0x00434027 [], []) ∧
    (decodeCode (.word 0x00434027 [])).toOption = some (.sMov .plain 13 2) ∧ TextAt placed 1 0 (leBytes 4 0x00434027) ∧
    ((placed.g 1).splits.get 0).offset = 0 ∧ ((placed.g 1).splits.get 0).more = [] ∧
    (let v := atIssue (placed.point 1 0) 1 0 (.word 0x00434027 [])
     v.wordTrap (.sMov .plain 13 2) = none ∧ v.held [⟨0, .word 0x00434027 [], .sMov .plain 13 2, []⟩] = false ∧
       (v.closeReads [⟨0, .word 0x00434027 [], .sMov .plain 13 2, []⟩]).isEmpty = true ∧ formsSets (.sMov .plain 13 2) = false ∧
       v.cg.adding = false ∧ v.close v.cycle (v.armsOf (.sMov .plain 13 2)) = [] ∧
       v.isSlow [⟨0, .word 0x00434027 [], .sMov .plain 13 2, []⟩] = false) := by
  refine ⟨by decide +kernel, by decide +kernel, ⟨by decide +kernel, by decide +kernel, ⟨page0, by decide +kernel⟩, fun k _ => ?_⟩,
    by decide +kernel⟩
  have h : (placed.codeOf (placed.g 1)).chunks = [] := by decide +kernel
  rw [h]
  rfl
theorem test_wit_step : placed.dueInput.isNone = true ∧ placed.powered = true ∧ placed.dueEvent.isNone = true ∧
    placed.events.isEmpty = true ∧ placed.groups.map Prod.fst = [1] ∧
    (List.range 4).filter (placed.mayTry (placed.g 1)) = [0] ∧ (placed.issueSplit 1 0).cur.issued = true ∧
    (placed.issueSplit 1 0).cur.trapped = false ∧ (placed.issueSplit 1 0).cur.completed = false ∧
    placed.pipeFree (placed.g 1) (placed.issueSplit 1 0).cur.pipe = true := by
  decide +kernel
theorem test_wit_StepKeepsMemoryForm : State.reset.MemoryCanonical ∧ placed.MemoryCanonical := by
  unfold State.MemoryCanonical
  decide +kernel
theorem test_wit_WordTrapsAndGuards : guardClean onP1 (base.liveS &&& base.cg.mmask) base ∧ base.hasIssuer = true ∧ State.reset.hasIssuer = false ∧
    (∀ i ∈ ([.sMov .plain 13 2, .sWrsys .plain 1 8, .smHlth .plain 12] : List Instr), (encode i).isSome = true) ∧
    (base.updGr 1 fun g => { g with p := { g.p with vregs := 8 } }).wordIllegal (.iadd .plain 40 1 2) = true ∧
    (encode (.iadd .plain 40 1 2)).isSome = true ∧ user.wordIllegal (.sWrsys .plain 1 8) = false ∧ privileged (.sWrsys .plain 1 8) = true ∧
    user.cg.priv = false ∧ needsSampling (.smHlth .plain 12) = true ∧ privileged (.smHlth .plain 12) = false ∧
    ({ base with part := .dx96 }).wordIllegal (.smHlth .plain 12) = false ∧
    base.scalarGuard onP1 = false ∧
    (∀ i ∈ ([.sAdd onP1 1 2, .trap onP1 7] : List Instr), base.wordTrap i = none) := by
  have h : ∀ l, l < 32 → base.pp onP1.gp l = false := by decide +kernel
  exact ⟨fun _ l a _ => h l a, by decide +kernel⟩

/-! ### Witnesses of the checks of the lanes' accesses, of several lanes and of the exact-reducing lines -/

/-- The window of the scratchpad at 2^32 is on; v2:v3 of lane 5 point into it, or beyond the group's scratchpad. -/
noncomputable def windowed (x y : Nat) : State :=
  (withV lane5 [(2, 5, x), (3, 5, y)]).updCo 0 fun c => { c with scrblo := 1#32, scrbhi := 1#32 }
theorem test_wit_AddressChecks : (∀ s ∈ ([windowed 0x1FFFFF 1, windowed 0x2001 0] : List State), laneClean (.ld .plain 0 9 4 1 8) .plain s ∧
      cleanLanes .plain [2, 3] s ∧ s.laneActive .plain ≠ 0#32 ∧ s.cur.checked = false ∧ inMask (s.laneActive .plain) 5 = true ∧
      (∀ k, k < 5 → inMask (s.laneActive .plain) k = false) ∧ s.scopeNarrow 9 (laneAddr s 1 5) 4 = false) ∧
    beyondWindow (windowed 0x1FFFFF 1) (laneAddr (windowed 0x1FFFFF 1) 1 5) 4 = true ∧
    (∀ k, k < 32 → beyondWindow (windowed 0x2001 0) (laneAddr (windowed 0x2001 0) 1 k) 4 = false) ∧
    laneAddr (windowed 0x2001 0) 1 5 % 4 ≠ 0 := by
  refine ⟨?_, by decide +kernel⟩
  intro s m
  simp only [List.mem_cons, List.not_mem_nil, or_false] at m
  rcases m with rfl | rfl <;> exact ⟨lane_of (by decide +kernel), clean_of (by decide +kernel), by decide +kernel⟩
theorem test_wit_ScratchChecks : (∀ s ∈ ([withV lane5 [(2, 5, 0xFFFFFFFC)], withV lane5 [(2, 5, 0x1E)]] : List State),
      laneClean (.lds .plain 0 4 2 4) .plain s ∧ cleanLanes .plain [2] s ∧ s.laneActive .plain ≠ 0#32 ∧ s.cur.checked = false ∧
      inMask (s.laneActive .plain) 5 = true ∧ ∀ k, k < 5 → inMask (s.laneActive .plain) k = false) ∧
    (let s := withV lane5 [(2, 5, 0xFFFFFFFC)]
     (s.scratchPlace s.cg (s.v 2 5).toNat 4).isNone = true) ∧
    (let s := withV lane5 [(2, 5, 0x1E)]
     (s.scratchPlace s.cg (s.v 2 5).toNat 4).isNone = false ∧ (s.v 2 5).toNat / 32 ≠ ((s.v 2 5).toNat + 4 - 1) / 32) := by
  refine ⟨?_, by decide +kernel⟩
  intro s m
  simp only [List.mem_cons, List.not_mem_nil, or_false] at m
  rcases m with rfl | rfl <;> exact ⟨lane_of (by decide +kernel), clean_of (by decide +kernel), by decide +kernel⟩
/-- Lanes 4 and 5 at one word. -/
noncomputable def lanes45 : State :=
  let s := withV lane5 [(2, 4, 0x2000)]
  { s with cur := { s.cur with lanes := laneBit 4 ||| laneBit 5 } }
theorem test_wit_LanesInTurn : laneClean (.atomAdd .plain 0 9 1 4) .plain lanes45 ∧ cleanLanes .plain [2, 3] lanes45 ∧
    Room 3 lanes45 ∧ Direct lanes45 ∧ plainWord lanes45 0x2000 4 ∧ atomCheck .plain .add 9 1 lanes45 = none ∧
    lanes45.detGrid lanes45.cgrid = false ∧ lanes45.writes = [] ∧
    (lanes45.beginIssue.advance.resolve .atomic 4 (lanes45.gaddrs .plain 1)).1 =
      .ok ([(4, 0x2000), (5, 0x2000)].map fun x => (x.1, Place.dev x.2 false)) :=
  ⟨lane_of (by decide +kernel), clean_of (by decide +kernel), room_of (by decide +kernel), direct_of (by decide +kernel),
    by unfold plainWord; decide +kernel, by decide +kernel⟩
/-- A host page, where CLUSTER scope is too narrow. -/
noncomputable def hostPage : State := lane5.updCo 0 fun c => { c with tlb := [{ bits := 29, u := true, w := true, mt := 1 }] }
/-- The line of the word at 0x2000 is exact-reducing, for the grid of the group or for none; the grid is deterministic. -/
noncomputable def reducing (owners : List Nat) : State := { lane5 with red := lane5.red.put 64 { live := true, owners := owners } }
noncomputable def deterministic (s : State) : State := s.updGr 1 fun g => { g with p := { g.p with det := true } }
theorem adds_of {h : Hdr} {o c a d l pa : Nat} {s : State} {mir : Bool} (x : laneClean (.atomFadd h o c a d) h s)
    (y : cleanLanes h [2 * a, 2 * a + 1] s) (z : Room 3 s) (w : Direct s)
    (v : atomCheck h .fadd c a s = none ∧ l < 32 ∧ s.laneActive h = laneBit l ∧ pa % 4 = 0 ∧
      (s.beginIssue.advance.resolve .atomic 4 (s.gaddrs h a)).1 = .ok [(l, Place.dev pa mir)]) : addsAt h o c a d l pa mir s :=
  ⟨x, y, v.1, z, v.2.1, w, v.2.2⟩
theorem test_wit_ExactReducing : (∀ s ∈ ([reducing [1], reducing [], deterministic lane5, deterministic (reducing [])] : List State),
      addsAt .plain 0 9 1 4 5 0x2000 false s) ∧ ((reducing []).red.get (0x2000 / 128)).live = true ∧
    ((deterministic lane5).red.get (0x2000 / 128)).live = false ∧ (deterministic lane5).detGrid (deterministic lane5).cgrid = true ∧
    (deterministic lane5).redFull ((deterministic lane5).homeDie 0x2000) = false ∧
    (laneClean (.st .plain 0 9 4 1 8) .plain (reducing [1]) ∧ cleanLanes .plain [2, 3] (reducing [1]) ∧
      globalCheck .plain 4 1 (reducing [1]) = none ∧ Room 1 (reducing [1]) ∧ Direct (reducing [1]) ∧
      (reducing [1]).laneActive .plain = laneBit 5 ∧
      ((reducing [1]).beginIssue.advance.resolve .store (sizeBytes 4) ((reducing [1]).gaddrs .plain 1)).1 =
        .ok [(5, Place.dev 0x2000 false)]) ∧
    (let s := { doneGrid with red := doneGrid.red.put 64 { live := true, owners := [1] } }
     s.gridDone 1 = true ∧ (s.red.get 64).live = true ∧ ∀ g, g ∈ (s.red.get 64).owners → g = 1) ∧
    (laneClean (.atomAdd .plain 0 3 1 4) .plain hostPage ∧ cleanLanes .plain [2, 3] hostPage ∧ hostPage.cur.checked = false ∧
      inMask (hostPage.laneActive .plain) 5 = true ∧ hostPage.scopeNarrow 3 (laneAddr hostPage 1 5) AtomOp.add.size = true) := by
  refine ⟨?_, by decide +kernel, by decide +kernel, by decide +kernel, by decide +kernel, ⟨lane_of (by decide +kernel),
    clean_of (by decide +kernel), by decide +kernel, room_of (by decide +kernel), direct_of (by decide +kernel), by decide +kernel⟩,
    by decide +kernel, ⟨lane_of (by decide +kernel), clean_of (by decide +kernel), by decide +kernel⟩⟩
  intro s m
  simp only [List.mem_cons, List.not_mem_nil, or_false] at m
  rcases m with rfl | rfl | rfl | rfl <;> exact adds_of (lane_of (by decide +kernel)) (clean_of (by decide +kernel))
    (room_of (by decide +kernel)) (direct_of (by decide +kernel)) (by decide +kernel)

/-! ### Witnesses of answers, joins, reserved numbers, waits and tokens -/

/-- An answer of 8 bytes for the scratchpad is on its way; and a load that may still return a later write. -/
noncomputable def answering : State := withG base fun g => { g with
  inflight := [{ path := 4, seq := 1, answer := some (.scratch 1 0x100, leBytes 8 7) }] }
def lateLoad : Bind := { lanes := laneBit 5, reg := 6, size := 4, n := 4, place := .dev 0x2000 false }
noncomputable def landing : State :=
  { withG base fun g => { g with inflight := [{ path := 0, seq := 1, binds := [lateLoad] }] } with
    writes := [{ num := 1, by_ := base.lanesAt 2 1#32, scope := 4, at_ := (Place.dev 0x2000 false).key, len := 4
                 bytes := [1#8, 2#8, 3#8, 4#8], old := [0#8, 0#8, 0#8, 0#8] }] }
theorem test_wit_Answers : dropOldest 4 (answering.g 1).inflight =
      some ({ path := 4, seq := 1, answer := some (.scratch 1 0x100, leBytes 8 7) }, []) ∧
    answering.mayComplete 1 { path := 4, seq := 1, answer := some (.scratch 1 0x100, leBytes 8 7) } = true ∧
    (answering.g 1).stop = .running ∧
    dropOldest 0 (landing.g 1).inflight = some ({ path := 0, seq := 1, binds := [lateLoad] }, []) ∧
    landing.mayComplete 1 { path := 0, seq := 1, binds := [lateLoad] } = true ∧ landing.mayLand 1 lateLoad = true ∧
    lateLoad.file = .v ∧ lateLoad.n = sizeBytes lateLoad.size ∧ base.mayLand 1 lateLoad = false := by decide +kernel
/-- No lane passes a guard on p1 in `base`. -/
theorem guard_of {i : Instr} {h : Hdr} {s : State} (x : s.hasIssuer = true ∧ s.wordTrap i = none ∧
    (h.ge = true → ∀ l, l < 32 → inMask (s.liveS &&& s.cg.mmask) l = true → s.pp h.gp l = false) ∧ s.scalarGuard h = false) :
    guardFails i h s := x
theorem test_wit_JoinWaitsAndGuards : scalarClean (.join .plain) .plain { split2 with cur := { split2.cur with slot := 2, here := 16, next := 20 } } ∧
    (let s := withG split2 fun g => { g with splits := g.splits.put 0 { g.splits.get 0 with offset := 16 } }
     scalarClean (.join .plain) .plain s ∧ inMask s.cg.held 7 = true ∧ s.cg.holdoff.get 7 < s.cs.offset) ∧
    (∀ i ∈ ([.join onP1, .yield onP1, .nop onP1, .region onP1, .sAdd onP1 1 2, .cpLin onP1 32] : List Instr), guardFails i onP1 base) ∧
    base.begun = false ∧ (∀ x ∈ ([(.sAdd onP1 1 2), (.cpLin onP1 32), (.join onP1)] : List Instr),
      followsScalar x ((encode x).elim 0 codeHead) = true) ∧
    (∀ i ∈ ([.pset onP1 1, .pref onP1 2, .srget onP1 1, .tagI onP1 3 2] : List Instr), perLane i = true ∧ transfers i = false ∧
      base.wordTrap i = none ∧ guardClean onP1 base.liveS base ∧ base.ctlLanes onP1 = 0#32) := by
  have h : ∀ l, l < 32 → base.pp onP1.gp l = false := by decide +kernel
  refine ⟨scalar_of (by decide +kernel), ⟨scalar_of (by decide +kernel), by decide +kernel⟩, fun i m => ?_, by decide +kernel,
    by decide +kernel, fun i m => ?_⟩
  · simp only [List.mem_cons, List.not_mem_nil, or_false] at m
    rcases m with rfl | rfl | rfl | rfl | rfl | rfl <;> exact guard_of (by decide +kernel)
  · simp only [List.mem_cons, List.not_mem_nil, or_false] at m
    rcases m with rfl | rfl | rfl | rfl <;>
      exact ⟨by decide +kernel, by decide +kernel, by decide +kernel, fun _ l a _ => h l a, by decide +kernel⟩
/-- The tile's only command has faulted: its trap waits for MX.ACQ. A later plane issue of an MX.WR stands in split 0. -/
noncomputable def mustReport : State :=
  (base.setTile 0 0 { blk := some 1, faulted := [(0, 1)] }).updB 1 fun b => { b with mx := b.mx.put 0 { accepted := 1, traps := [(1, { code := 0x0B })] } }
noncomputable def writesLater : State := owned.updCG fun g =>
  { g with splits := g.splits.upd 0 fun x => { x with more := [{ code := .word 0x23 [] }] } }
theorem test_wit_RaisingAndHolding : scalarClean (.mxAcq .plain 0) .plain mustReport ∧ ((mustReport.tile 0 0).tok = none ∧
    mustReport.cg.core = 0 ∧ (mustReport.tile 0 0).faulted = (0, 1) :: [] ∧ mustReport.tileCmds 0 0 = [] ∧
    (mustReport.cb.mx.get 0).traps.find? (fun y => decide (y.1 = 1)) = some (1, { code := 0x0B })) ∧
    scalarClean (.mxRel .plain 0) .plain writesLater ∧ holds writesLater 0 ∧
    (∃ x, x ∈ (writesLater.cg.splits.get 0).more ∧ x.writesTile 0 = true) ∧
    (∀ n ∈ ([0, 5, 18, 127] : List Nat), n ≠ 11 ∧ n ≠ 17) :=
  ⟨scalar_of (by decide +kernel), by decide +kernel, scalar_of (by decide +kernel), holds_of (by decide +kernel), by decide +kernel,
    by decide⟩

/-! ### Witnesses of adapter rows, copy plans and the runs of the sampling array -/

/-- Row 0's key is present, with a record of R = 8 and K = 0; and a fill of it, which fails, has row 0 waiting. -/
noncomputable def presentRow : State := (arrayOf { mtmask := 1 } (adapted false)).setAdKey 0 3 { st := 2, valid := true, bytes := leBytes 64 8 }
noncomputable def waitingRow : State :=
  { (arrayOf { mtmask := 1, apend := 1 } (adapted true)).setAdKey 0 3 { st := 1 } with adirlo := 1#32, adirhi := 0x100#32 }
theorem test_wit_AdapterRows : (presentRow.running 0 0 = some (adapted false) ∧ (presentRow.adKey (dieOf 0) 3).st = 2 ∧
    (adapted false).rowKey 0 = some 3 ∧ (presentRow.adKey (dieOf 0) 3).valid = true ∧
    (adapted false).nextStep (tileOf presentRow 0 (adapted false)) = none ∧
    (0, adapted true, 0) ∈ waitingRow.waiters 0 3 ∧ (waitingRow.adKey 0 3).st = 1 ∧ (waitingRow.co 0).mmas = [adapted true]) ∧
    (∃ c sub a, waitingRow.fetchRecord 0 3 = .failed c sub a) := by
  refine ⟨by decide +kernel, ⟨0x08, 2, 0x10000000030, by decide +kernel⟩⟩
/-- Two rows of 4 bytes, 8 bytes apart from 0x2000 on, by the list at 0x100, to or from 0x200. -/
def rowsBlock : List Word := [0x2000#32, 0#32, 0x100#32, 2#32, 4#32, 8#32, 0#32]
noncomputable def rowsCommand (up : Bool) : CopyCmd :=
  { num := 1, op := if up then .scatter rowsBlock 0x200 else .gather rowsBlock 0x200, priv := true }
/-- The record of `copying` at an address that the page maps. -/
noncomputable def mapped : State := withS copying [(25, 0)]
theorem test_wit_CopyPlans : (∀ up ∈ [false, true],
      (let c := rowsCommand up
       copying.scratchPlace (c.who 1) (rowsBlock.getD 2 0#32).toNat (4 * 2) = some (.scratch 1 0x100) ∧
       copying.scratchPlace (c.who 1) 0x200 (2 * 4) = some (.scratch 1 0x200) ∧
       (∀ j, j < 2 → copying.placePo ((Place.scratch 1 0x100).plus (4 * j)) 4 = false) ∧
       ∀ j, j < 2 → ∀ k, k < 4 → (copying.translate (c.who 1).core (c.who 1).priv (if up then .store else .load)
         ((0x2000 + leNat (copying.see (copying.copyReader 1 0 c) ((Place.scratch 1 0x100).plus (4 * j)) 4) * 8 + k) % 2 ^ 64)).1 =
           .ok (.dev (0x2000 + k) false))) ∧
    (let l := layoutOf (operandBlock mapped 24 24) (operandBlock copying 48 16)
     let c : CopyCmd := { num := 1, op := .tensor (operandBlock mapped 24 24) (operandBlock copying 48 16), priv := true }
     l.planes = false ∧ l.fmt ∈ [2, 3, 4, 5, 6, 7, 8, 9] ∧ 0 < l.row ∧ 0 < l.rows ∧
     (copying.scratchPlace (c.who 1) l.dest l.landBytes).isSome = true ∧ (copying.planOf 1 0 c).faults = []) ∧
    planeInt ((List.range 4).map (planeWord ((List.range 32).map fun k => (k % 16 : Int) - 8))) 3 = -5 ∧
    (landRun 5 8 [0x3F80, 0x4000, 0]).e = -5 ∧ (landRun 7 8 [0x7F800000]).e = -32768 := by
  decide +kernel
/-- Block 1 holds the array, its context 0 holds a command of each function that comes next. -/
noncomputable def serving (fn : Nat) (blk : List Word) : State := arrayHeld none { sctx { num := 1, fn := fn, blk := blk } with pos := [] }
noncomputable def sweeping (mode ctl : Nat) : State :=
  (arrayHeld (some 0) { sctx { num := 1, fn := 26, mode := mode, blk := [1#32, 0xF10#32] } with mode := mode, running := some {} }).updCo 0 fun c =>
    { c with smctl := BitVec.ofNat 32 ctl }
theorem serves_of {bid ctx : Nat} {c : SmCmd} {s : State} (x : ((s.b bid).sm.get ctx).queue = [c] ∧
    (s.array (s.b bid).arrayCore).bound = some bid ∧ (s.array (s.b bid).arrayCore).busy = none ∧ s.smNext bid = some ctx) :
    Serves bid ctx c s := ⟨⟨[], x.1⟩, x.2⟩
theorem sweeps_of {core bid ctx : Nat} {c : SmCmd} {w : Sweep} {s : State} (x : (s.array core).bound = some bid ∧
    (s.array core).busy = some ctx ∧ (s.b bid).arrayCore = core ∧ ((s.b bid).sm.get ctx).queue = [c] ∧
    ((s.b bid).sm.get ctx).running = some w) : Sweeps core bid ctx c w s := ⟨x.1, x.2.1, x.2.2.1, ⟨[], x.2.2.2.1⟩, x.2.2.2.2⟩
theorem test_wit_SamplingRuns : (∀ fn ∈ [20, 21, 22, 23, 27, 28, 29], Serves 1 0 { num := 1, fn := fn, blk := [0x100#32] } (serving fn [0x100#32])) ∧
    (serving 27 [0x100#32]).writes = [] ∧
    (∀ n ∈ [24, 4, 32], (serving 27 [0x100#32]).smPlace 1 0x100 n = .scratch 1 0x100) ∧
    (∀ m ∈ [0, 1], (∀ n ∈ [0, 1], Sweeps 0 1 0 { num := 1, fn := 26, mode := m, blk := [1#32, 0xF10#32] } {} (sweeping m n)) ∧
      (((sweeping m 0).b 1).sm.get 0).mode = m ∧ ((sweeping m 0).co 0).smctl.getLsbD 0 = false) ∧
    ((sweeping 0 1).co 0).smctl.getLsbD 0 = true ∧
    (({ last := [(5, 8)], run := [(5, 5)] } : SmArray).count 5 7).2 = some 0 ∧ (({ last := [(5, 8)], run := [(5, 4)] } : SmArray).count 5 7).2 = none ∧
    (({ draws := [(0, 65535)], below := [(0, 31487)] } : SmArray).count 5 40000).2 = some 0 ∧
    (({ draws := [(0, 65535)], below := [(0, 31487)] } : SmArray).count 5 7).2 = none := by
  refine ⟨fun fn m => ?_, by decide +kernel, by decide +kernel, fun m x => ?_, by decide +kernel⟩
  · simp only [List.mem_cons, List.not_mem_nil, or_false] at m
    rcases m with rfl | rfl | rfl | rfl | rfl | rfl | rfl <;> exact serves_of (by decide +kernel)
  · simp only [List.mem_cons, List.not_mem_nil, or_false] at x
    rcases x with rfl | rfl <;> refine ⟨fun n y => ?_, by decide +kernel⟩ <;>
      simp only [List.mem_cons, List.not_mem_nil, or_false] at y <;> rcases y with rfl | rfl <;> exact sweeps_of (by decide +kernel)
theorem test_sampling_entries : ({ n := 6, g := 1, colours := 2 } : SmCtx).ldcEntry 0 (0x03001001) = { ({ n := 6, g := 1, colours := 2 } : SmCtx) with j := [(coupling 1 2, 3)] } ∧
    (({ n := 6, g := 1, colours := 2 } : SmCtx).ldcEntry 0 (0x03000801)).badent = true ∧
    (({ n := 6, g := 1, colours := 2 } : SmCtx).clampEntry 0 0x10005).clamp.get 5 = 2 := by decide +kernel

/-! ### Witnesses of delegated and reported traps, of the poison pass and of returns -/

noncomputable def delegatedNow : State := entering.updCo 0 fun c => { c with tdeleg := 0xFFFFFFFF#32 }
noncomputable def delegatedRuns : State := delegatedNow.updG 1 fun g => { g with stop := .running }
theorem test_wit_DelegatedAndReported : ((delegatedRuns.g 1).poisonPass = none ∧ (delegatedRuns.g 1).handler = false ∧
    ({ code := 1, tval := 5#32, tpc := 8 } : Trap).precise = true ∧ (delegatedRuns.co 0).tctl.getLsbD 0 = true ∧
    (delegatedRuns.g 1).core = 0 ∧ (delegatedRuns.co 0).tdeleg.getLsbD 1 = true ∧ (delegatedRuns.g 1).drained = true ∧
    (delegatedRuns.g 1).mmaskNext = none ∧ (delegatedRuns.g 1).ovfNext = none ∧ (delegatedRuns.g 1).live = true) ∧
    (∃ hb, EntryWays 1 { code := 1, tval := 5#32, tpc := 8 } 0x200000 false hb delegatedRuns) ∧ noneEnters base 1 ∧
    (base.di (dieOf (base.g 1).core)).unreserved < 248 ∧
    (let s := base.updDi 0 fun d => { d with queue := List.replicate 248 {} }
     noneEnters s 1 ∧ 248 ≤ (s.di (dieOf (s.g 1).core)).unreserved) := by
  refine ⟨by decide +kernel,
    ⟨((((delegatedRuns.translate 0 true .store 0x200000).2).headerBytes (delegatedRuns.g 1) true 0x20000).1).getD [],
      by decide +kernel, by decide +kernel, by decide +kernel, by decide,
      reached_of (by decide +kernel), by decide, by decide, by decide, by decide⟩,
    by unfold noneEnters; decide +kernel, by decide +kernel, by unfold noneEnters; decide +kernel⟩
/-- A region in which a mismatch has been; a poison pass that has issued n instructions. -/
noncomputable def tried : State := withG signed fun g => { g with region := { g.region with sigtry := 1, rmask := 0xFFFFFFFF#32 } }
noncomputable def passing (n : Nat) : State := withG signed fun g => { g with poisonPass := some (n, { code := 0x0C, sub := 1 }) }
theorem test_wit_PoisonPasses : scalarClean (.sigchk .plain 7) .plain tried ∧ Plain tried ∧ (tried.paired tried.cur.gid = false ∧
    ~~~ tried.cs.sig ≠ BitVec.ofNat 32 7 ∧ tried.cg.region.sigtry ≠ 0 ∧ tried.cg.handler = false ∧ tried.cg.drained = true) ∧
    (∀ n ∈ [0, 2 ^ 20 - 1], slotFree (passing n) (passing n).cur.gid ∧ scalarClean (.sigchk .plain 7) .plain (passing n) ∧
      scalarClean (.region .plain) .plain (passing n) ∧ (passing n).cg.poisonPass = some (n, { code := 0x0C, sub := 1 })) := by
  refine ⟨scalar_of (by decide +kernel), plain_of (by decide +kernel), by decide +kernel, fun n m => ?_⟩
  simp only [List.mem_cons, List.not_mem_nil, or_false] at m
  rcases m with rfl | rfl <;>
    exact ⟨free_of (by decide +kernel), scalar_of (by decide +kernel), scalar_of (by decide +kernel), by decide +kernel⟩
/-- The frame of `returning` with another first word, or another TPC; one that is poisoned. -/
noncomputable def returningBy (st tpc lanes : Nat) : State :=
  { returning with mem := (((returning.mem.write 0x200000 (leBytes 4 st)).write 0x200010 (leBytes 4 tpc)).write 0x200024 (leBytes 4 lanes)) }
theorem test_wit_HandlerReturns : (∀ x ∈ ([(0x10, 8, 0xFFFFFFFF), (0x20, 8, 0xFFFFFFFF), (0x30, 8, 0xFFFFFFFF), (0, 8, 1)] : List (Nat × Nat × Nat)),
      (let s := returningBy x.1 x.2.1 x.2.2
       scalarClean (.tret .plain) .plain s ∧ s.cg.handler = true ∧ s.tretReady = true ∧ Plain s ∧ slotFree s s.cur.gid ∧
       ∃ f, (s.readFrame s.cur.gid).1 = .ok f ∧ f.poisoned = false ∧ f.misuse = decide (x.1 = 0x30) ∧ f.w 0 = x.1 ∧
         (f.restore s.cg (s.paramsOf s.cg).privileged).inconsistent = decide (x.2.2 = 1))) ∧
    (let s := returningBy 0x10 8 0xFFFFFFFF
     ∃ f, (s.readFrame s.cur.gid).1 = .ok f ∧ ∃ n, (((s.readFrame s.cur.gid).2.setG s.cur.gid
       (f.restore s.cg (s.paramsOf s.cg).privileged)).codeLength (f.restore s.cg (s.paramsOf s.cg).privileged) 0 8).1 = .ok n) := by
  refine ⟨fun x m => ?_, ⟨(((returningBy 0x10 8 0xFFFFFFFF).readFrame 1).1.toOption).getD {}, by decide +kernel, 2, by decide +kernel⟩⟩
  simp only [List.mem_cons, List.not_mem_nil, or_false] at m
  rcases m with rfl | rfl | rfl | rfl
  · exact ⟨scalar_of (by decide +kernel), by decide +kernel, by decide +kernel, plain_of (by decide +kernel), free_of (by decide +kernel),
      ⟨(((returningBy 0x10 8 0xFFFFFFFF).readFrame 1).1.toOption).getD {}, by decide +kernel⟩⟩
  · exact ⟨scalar_of (by decide +kernel), by decide +kernel, by decide +kernel, plain_of (by decide +kernel), free_of (by decide +kernel),
      ⟨(((returningBy 0x20 8 0xFFFFFFFF).readFrame 1).1.toOption).getD {}, by decide +kernel⟩⟩
  · exact ⟨scalar_of (by decide +kernel), by decide +kernel, by decide +kernel, plain_of (by decide +kernel), free_of (by decide +kernel),
      ⟨(((returningBy 0x30 8 0xFFFFFFFF).readFrame 1).1.toOption).getD {}, by decide +kernel⟩⟩
  · exact ⟨scalar_of (by decide +kernel), by decide +kernel, by decide +kernel, plain_of (by decide +kernel), free_of (by decide +kernel),
      ⟨(((returningBy 0 8 1).readFrame 1).1.toOption).getD {}, by decide +kernel⟩⟩

/-! ### Witnesses of DRAIN's further modes, containment, page walks, flits, and of words and guards -/

/-- Block 1 is bound on core 5 too, and another group waits on core 5 for its DRAIN. -/
noncomputable def alsoOn5 : State := (maintain 0x105 0 id).updB 1 fun b => { b with members := [5] }
noncomputable def waitedOn : State := (maintain 0x205 0 fun c => { c with drained := true, drains := [⟨2, 9⟩] }).setG 2 { live := true, bid := 1 }
theorem test_wit_DrainModes : (∀ s ∈ ([alsoOn5, waitedOn, maintain 0x305 0 id, maintain 0x405 0 id, maintain 0xFE 0 id] : List State),
      Room 5 s ∧ scalarClean (.drain .plain 2 8) .plain s) ∧ alsoOn5.inService 5 = true ∧ (alsoOn5.co 5).drained = false ∧
    ¬ (5 = alsoOn5.cg.core ∨ alsoOn5.cb.partner = some 5) ∧ (1, alsoOn5.b 1) ∈ alsoOn5.blocks ∧ (alsoOn5.b 1).live = true ∧
    (alsoOn5.b 1).state = .bound ∧ 5 ∈ (alsoOn5.b 1).cores ∧ (alsoOn5.b 1).cluster = [] ∧ alsoOn5.ctlGrid ≠ some (alsoOn5.b 1).grid ∧
    (waitedOn.co 5).drains = [⟨2, 9⟩] ∧ 2 ≠ waitedOn.cur.gid ∧ (waitedOn.g 2).live = true ∧ (waitedOn.co 5).drained = true ∧
    1024 ≤ ((maintain 0x405 0 id).s 8).toNat ∧ ((maintain 0x305 0 id).s 8).toNat / 256 % 4 = 3 ∧
    (maintain 0xFE 0 id).ncores ≤ ((maintain 0xFE 0 id).s 8).toNat % 256 := by
  refine ⟨fun s m => ?_, by decide +kernel⟩
  simp only [List.mem_cons, List.not_mem_nil, or_false] at m
  rcases m with rfl | rfl | rfl | rfl | rfl <;> exact ⟨room_of (by decide +kernel), scalar_of (by decide +kernel)⟩
theorem test_wit_ContainEffects : (∀ x ∈ ([(1, 0, 0), (2, 0, 0), (3, 0, 0), (4, 0, 0), (5, 0, 0), (6, 0, 1), (7, 0, 3)] : List (Nat × Nat × Nat)),
      contains base x.1 x.2.1 x.2.2) ∧ contains (arrayOf {} (command true)) 3 0 0 ∧
    ((arrayOf {} (command true)).co 0).mmas.Pairwise (fun x y => x.seq ≠ y.seq) ∧
    (copyQueue (linCommand false) []).containBusy = none ∧ ((copyQueue (linCommand false) []).b 1).live = true ∧
    (((copyQueue (linCommand false) []).b 1).copy.get 0).queue = [linCommand false] ∧
    ((arrayHeld none (sctx { num := 1 })).array 0).bound = some 1 ∧ ((colQueue.b 1).col.get 0).queue = [broadcast] ∧
    dieOf ((colQueue.b 1).coreOf 0) = 0 ∧ mirroring.mirctl.getLsbD 31 = true ∧
    ({ mirroring with ports := mirroring.ports.put 0 0 } : State).unreachable mirroring.mirPeer = true := by
  unfold contains
  decide +kernel
/-- No TLB holds the page; the tables at 0x300000 map VA 0x12345 by one level-1 leaf, writable and for everybody. -/
noncomputable def walking : State :=
  let s := lane5.updCo 0 fun c => { c with tlb := [] }
  { s with dies := [], ttblo := 0x300001#32, ttbhi := 0#32
           mem := (s.mem.write 0x300000 (leBytes 8 0x301001)).write 0x301000 (leBytes 8 0x4000001F) }
theorem test_wit_PageWalks : 0x12345 < 2 ^ 52 ∧ walking.ttblo.getLsbD 0 = true ∧ tlbFind (walking.co 0).tlb 0x12345 = none ∧
    tlbFind (walking.di (dieOf 0)).tlb 0x12345 = none ∧ (walking.translate 0 false .store 0x12345).1 = .ok (.dev 0x40012345 false) ∧
    (walking.translate 0 true .load (2 ^ 40)).1 = .error 0x08 ∧ walking.cc.inWindow 0x2000 = false ∧
    (windowed 0x2000 1).cc.inWindow 0x100002000 = true ∧
    (windowed 0x2000 1).scratchPlace (windowed 0x2000 1).cg (0x100002000 - (windowed 0x2000 1).cc.scrBase) 4 = some (.scratch 1 0x2000) := by
  decide +kernel
/-- A store to the module of rank 1 leaves at the boundary; its event stands in the log. -/
def awayStore : PairStore := { kind := 3, who := 1, addr := 0x3000, bytes := [7#8, 8#8], lanes := 1#32, scope := 5 }
noncomputable def leavingStore : State :=
  { base with locked := true, ns := 20000, tickAt := 10000, fabid := 0x10000#32, ports := [(0, 2)], routes := [(1, [0])]
              log := [{ num := 0, scope := 5 }], outgoing := [{ gid := 1, store := some (awayStore, 0) }] }
theorem test_wit_OutgoingStores : leavingStore.tickDue = true ∧ leavingStore.detx = true ∧ leavingStore.writes = [] ∧
    leavingStore.outgoing = [{ gid := 1, store := some (awayStore, 0) }] ∧ awayStore.kind = 3 ∧
    leavingStore.log.find? (fun y => decide (y.num = 0)) = some { num := 0, scope := 5 } ∧ leavingStore.unreachable awayStore.who = false := by
  decide +kernel
/-- p1 of lane 5 is poisoned, or its address register; s2 is poisoned. -/
noncomputable def deadGuard : State := withG base fun g => { g with ppo := g.ppo.put 1 (laneBit 5) }
noncomputable def deadAddress : State := withG lane5 fun g => { g with vpo := g.vpo.put 2 (laneBit 5) }
noncomputable def poisonS2 : State := withG base fun g => { g with spo := g.spo.put 2 true }
theorem test_wit_PoisonAndDeaths :
    (let i := Instr.sAdd .plain 1 2
     (encode i).isSome = true ∧ followsScalar i ((encode i).elim 0 codeHead) = true ∧ poisonS2.hasIssuer = true ∧ poisonS2.wordTrap i = none ∧
        poisonS2.scalarGuard .plain = true ∧ poisonS2.begun = false ∧ 2 ∈ (uses i).rs ∧ poisonS2.sp 2 = true ∧ poisonS2.sp 1 = false) ∧
    (let i := Instr.mxRd .plain 3 1 0 2 4
     clsOfMajor ((encode i).elim 0 codeHead / 2 % 32) = .lane ∧ poisonS2.wordTrap i = none ∧ poisonS2.laneActive .plain ≠ 0#32 ∧
        poisonS2.cur.checked = false ∧ (uses i).rs = [2]) ∧
    mayDie 5 deadGuard ∧ (deadGuard.wordTrap (.iadd onP1 3 1 2) = none ∧ deadGuard.pp 1 5 = true ∧
    (∀ k, k < 32 → k ≠ 5 → deadGuard.pp 1 k = false) ∧ inMask (deadGuard.liveS &&& deadGuard.cur.lanes &&& deadGuard.cg.mmask) 5 = true) ∧
    mayDie 5 deadAddress ∧ laneClean (.ld .plain 0 9 4 1 8) .plain deadAddress ∧ deadAddress.laneActive .plain = laneBit 5 ∧
    deadAddress.vp 2 5 = true ∧ Room 0 deadAddress :=
  ⟨by decide +kernel, by decide +kernel, ⟨by decide +kernel, by decide, by decide +kernel, by decide +kernel, by decide +kernel,
    free_of (by decide +kernel), by decide +kernel⟩, by decide +kernel,
    ⟨by decide +kernel, by decide, by decide +kernel, by decide +kernel, by decide +kernel, free_of (by decide +kernel), by decide +kernel⟩,
    lane_of (by decide +kernel), by decide +kernel, by decide +kernel, room_of (by decide +kernel)⟩
/-- A result for s2, which the S.MOV of `placed` reads, is 3 cycles away; with CHKSB set or not. -/
noncomputable def tooClose (ck : Nat) : State :=
  (placed.updG 1 fun g => { g with pend := [{ file := .s, reg := 2, lanes := 1#32, ready := placed.cycle + 3, old := [(0, 9)] }] }).updCo 0 fun c =>
    { c with execctl := BitVec.ofNat 32 ck }
theorem test_wit_Scoreboard : ∀ ck ∈ [0, 1], TextAt (tooClose ck) 1 0 (leBytes 4 0x00434027) ∧ ((tooClose ck).g 1).poisonPass = none ∧
    (let v := atIssue ((tooClose ck).point 1 0) 1 0 (.word 0x00434027 [])
     let e : PlaneIssue := ⟨0, .word 0x00434027 [], .sMov .plain 13 2, []⟩
     v.wordTrap e.instr = none ∧ v.held [e] = false ∧ v.cg.adding = false ∧ v.closeReads [e] ≠ [] ∧ v.isSlow [e] = false ∧
       (v.co v.cg.core).execctl.getLsbD 0 = decide (ck = 1)) := by
  intro ck m
  simp only [List.mem_cons, List.not_mem_nil, or_false] at m
  rcases m with rfl | rfl <;>
    exact ⟨⟨by decide +kernel, by decide +kernel, ⟨page0, by decide +kernel⟩, fun k _ => by
      rw [show (State.codeOf (tooClose _) ((tooClose _).g 1)).chunks = [] by decide +kernel]; rfl⟩, by decide +kernel⟩
/-- A TLWAIT that raises its command's trap has completed when it does. -/
theorem test_wit_completed : (let s := timeline { accepted := 1, traps := [(1, { code := 0x0B })] }
    ran (exec (.tlwait .plain 3 16) s) fun t => (t.cur.completed, t.cur.trapped)) = some (true, true) ∧
    base.isSlow [⟨0, .word 0x0 [], .cvtFp16F32 .plain 1 2 0, []⟩] = false ∧
    (withG base fun g => { g with ovf := 0x3000#32 }).isSlow [⟨0, .word 0x0 [], .cvtFp16F32 .plain 1 2 0, []⟩] = true := by
  decide +kernel

end Sys2Proof.Tests
end

section
/-! PROOFS. The state in which a group of a block is bound (R109, R121, R122, R147). -/

namespace Sys2Proof

variable {α : Type} [Inhabited α] [DecidableEq α]

theorem SMap.find_filterMap_ne_default (f : Nat → α) (ks : List Nat) (j : Nat) :
    SMap.find (ks.filterMap fun k => if f k = default then none else some (k, f k)) j =
      if j ∈ ks ∧ f j ≠ default then some (f j) else none := by
  induction ks with
  | nil => simp [SMap.find]
  | cons k ks ih =>
    by_cases hj : k = j
    · subst hj
      by_cases hk : f k = default <;> simp [SMap.find, hk, ih]
    · by_cases hk : f k = default <;> simp [SMap.find, hk, hj, Ne.symm hj, ih]

/-- A table reads as its function below its bound, and as an unlisted key from there on. -/
theorem SMap.get_tab (n : Nat) (f : Nat → α) (k : Nat) : (SMap.tab n f).get k = if k < n then f k else default := by
  simp only [SMap.get, SMap.tab, SMap.find_filterMap_ne_default, List.mem_range]
  by_cases hk : k < n <;> by_cases hf : f k = default <;> simp [hk, hf]

end Sys2Proof

namespace Sys2Proof.Machine

open Sys2Proof

/-! ### The coordinates of a block -/

section
variable {p : Params} {x y : Nat} (z : Nat)

theorem blockX_of_coords (hx : x < p.gridx) : p.blockX ((z * p.gridy + y) * p.gridx + x) = x := by
  rw [Params.blockX, Nat.max_eq_right (Nat.one_le_of_lt hx), Nat.mul_add_mod_of_lt hx]

theorem coords_div_gridx (hx : x < p.gridx) : ((z * p.gridy + y) * p.gridx + x) / p.gridx = z * p.gridy + y := by
  rw [Nat.mul_comm, Nat.mul_add_div (Nat.zero_lt_of_lt hx), Nat.div_eq_of_lt hx, Nat.add_zero]

theorem blockY_of_coords (hx : x < p.gridx) (hy : y < p.gridy) : p.blockY ((z * p.gridy + y) * p.gridx + x) = y := by
  rw [Params.blockY, Nat.max_eq_right (Nat.one_le_of_lt hx), Nat.max_eq_right (Nat.one_le_of_lt hy),
    coords_div_gridx z hx, Nat.mul_add_mod_of_lt hy]

theorem blockZ_of_coords (hx : x < p.gridx) (hy : y < p.gridy) : p.blockZ ((z * p.gridy + y) * p.gridx + x) = z := by
  rw [Params.blockZ, Nat.max_eq_right (Nat.one_le_of_lt hx), Nat.max_eq_right (Nat.one_le_of_lt hy),
    ← Nat.div_div_eq_div_mul, coords_div_gridx z hx, Nat.mul_comm, Nat.mul_add_div (Nat.zero_lt_of_lt hy),
    Nat.div_eq_of_lt hy, Nat.add_zero]

end

/-! ### The seed of a lane's LFSR (R122) -/

/-- What the LFSR of the lane with this number in its grid starts from. -/
def entrySeed (glane : Word) : Word :=
  if (glane + 1#32) * 0x9E3779B9#32 = 0#32 then 1#32 else (glane + 1#32) * 0x9E3779B9#32

theorem w32_succ_mul_seed (n : Nat) : w32 ((n + 1) * 0x9E3779B9) = (BitVec.ofNat 32 n + 1#32) * 0x9E3779B9#32 := by
  rw [w32, BitVec.ofNat_mul, BitVec.ofNat_add]

/-- The seed's factor is odd, so it has an inverse modulo 2^32. -/
theorem mul_seed_eq_zero_iff (a : Word) : a * 0x9E3779B9#32 = 0#32 ↔ a = 0#32 := by
  constructor
  · intro h
    calc a = a * (0x9E3779B9#32 * 0x144cbc89#32) := by rw [show 0x9E3779B9#32 * 0x144cbc89#32 = 1#32 by decide, BitVec.mul_one]
      _ = a * 0x9E3779B9#32 * 0x144cbc89#32 := (BitVec.mul_assoc ..).symm
      _ = 0#32 := by rw [h, BitVec.zero_mul]
  · rintro rfl
    exact BitVec.zero_mul

theorem seed_eq_zero_iff (a : Word) : (a + 1#32) * 0x9E3779B9#32 = 0#32 ↔ a = 0xFFFFFFFF#32 := by
  rw [mul_seed_eq_zero_iff]
  bv_omega

/-! ### The registers and the split table of a group at its entry -/

section
variable (p : Params) (h blk bid index core lcore slot persist : Nat) (triggered : Bool)

/-- The launch values of s0 to s8; every register above them reads 0 (R121). -/
theorem entryGroup_sr (r : Nat) : (entryGroup p h blk bid index core lcore slot persist triggered).sr.get r =
    [loW p.args, hiW p.args, w32 (p.blockX blk), w32 (p.blockY blk), w32 (p.blockZ blk), w32 index, w32 lcore, w32 h,
      w32 persist].getD r 0#32 := by
  simp only [entryGroup, SMap.get_tab]
  split
  · rfl
  · rename_i hr
    exact (List.getD_eq_default _ _ (Nat.le_of_not_lt hr)).symm

theorem entryGroup_vr (k : Nat) : (entryGroup p h blk bid index core lcore slot persist triggered).vr.get k =
    if k < 32 then BitVec.ofNat 32 (index * 32 + k) else 0#32 :=
  SMap.get_tab ..

theorem entryGroup_lfsr {l : Nat} (hl : l < 32) :
    (entryGroup p h blk bid index core lcore slot persist triggered).lfsr.get l =
      entrySeed (BitVec.ofNat 32 (blk * p.groups * 32 + index * 32 + l)) := by
  simp only [entryGroup, SMap.get_tab, hl, if_true, w32_succ_mul_seed, entrySeed]

end

theorem entrySplits_valid_of_ne_zero (entry : Nat) {k : Nat} (hk : k ≠ 0) : ((entrySplits entry).get k).valid = false := by
  match k with
  | 1 | 2 | 3 => rfl
  | k + 4 => rfl

/-- Settles O14: each field of `entryGroup` by the lemma that reads it, at the coordinates of the block. -/
theorem entryState : Obligations.EntryState := by
  unfold Obligations.EntryState
  intro p h x y z bid index core slot persist trig hx hy blk g
  have scalar (r : Nat) := entryGroup_sr p h blk bid index core core slot persist trig r
  rw [blockX_of_coords z hx, blockY_of_coords z hx hy, blockZ_of_coords z hx hy] at scalar
  have vector (k : Nat) := entryGroup_vr p h blk bid index core core slot persist trig k
  refine ⟨⟨scalar 0, scalar 1, scalar 2, scalar 3, scalar 4, scalar 5, scalar 6, scalar 7, scalar 8, fun r hr => ?_⟩,
    fun l hl => ?_, fun r l hr _ => ?_, fun _ => rfl, fun _ => ⟨rfl, rfl⟩, rfl, rfl, rfl, rfl, rfl, rfl,
    fun k hk => entrySplits_valid_of_ne_zero p.entry hk, rfl, rfl, rfl, rfl, fun l hl => ⟨?_, seed_eq_zero_iff _⟩⟩
  case refine_1 => exact (scalar r).trans (List.getD_eq_default _ _ hr)
  case refine_2 => exact (vector l).trans (if_pos hl)
  case refine_3 => exact (vector _).trans (if_neg (by omega))
  case refine_4 => exact entryGroup_lfsr p h blk bid index core core slot persist trig hl

end Sys2Proof.Machine
end

section
/-! PROOFS. The order of FMIN, FMAX and HMAX2 (R165, R169) and the classes of FCLASS (R168). -/

namespace Sys2Proof.Machine

open Sys2Proof Sys2Proof.Claims

/-! ### The magnitude of a code -/

/-- A code without its sign. -/
def Fmt.mag (f : Fmt) (x : Nat) : Nat := x % 2 ^ (f.eb + f.mb)

/-- The magnitude k in units of the smallest subnormal; an infinity counts as the power of two after the largest binade. -/
def Fmt.units (f : Fmt) (k : Nat) : Nat :=
  (k % 2 ^ f.mb + if k / 2 ^ f.mb = 0 then 0 else 2 ^ f.mb) * 2 ^ (k / 2 ^ f.mb - 1)

theorem Fmt.infCode_false (f : Fmt) : f.infCode false = (2 ^ f.eb - 1) * 2 ^ f.mb := Nat.zero_add _

theorem Fmt.infCode_false_pos {f : Fmt} (heb : 0 < f.eb) : 0 < f.infCode false := by
  rw [f.infCode_false]
  exact Nat.mul_pos (Nat.sub_pos_of_lt (Nat.one_lt_two_pow heb.ne')) (Nat.two_pow_pos _)

theorem Fmt.units_fields (f : Fmt) (e : Nat) {m : Nat} (hm : m < 2 ^ f.mb) :
    f.units (2 ^ f.mb * e + m) = (m + if e = 0 then 0 else 2 ^ f.mb) * 2 ^ (e - 1) := by
  rw [Fmt.units, Nat.mul_add_mod, Nat.mod_eq_of_lt hm, Nat.mul_add_div (Nat.two_pow_pos _), Nat.div_eq_of_lt hm, Nat.add_zero]

/-- Within a binade the next magnitude adds one spacing; from its last one it reaches the next power of two. -/
theorem Fmt.units_lt_succ (f : Fmt) (k : Nat) : f.units k < f.units (k + 1) := by
  have hm : k % 2 ^ f.mb < 2 ^ f.mb := Nat.mod_lt _ (Nat.two_pow_pos _)
  rw [← Nat.div_add_mod k (2 ^ f.mb)]
  generalize k / 2 ^ f.mb = e, k % 2 ^ f.mb = m at hm ⊢
  by_cases hlast : m + 1 < 2 ^ f.mb
  · rw [Nat.add_assoc, f.units_fields e hm, f.units_fields e hlast]
    exact Nat.mul_lt_mul_of_pos_right (by omega) (Nat.two_pow_pos _)
  · have hnext : 2 ^ f.mb * e + m + 1 = 2 ^ f.mb * (e + 1) + 0 := by rw [Nat.mul_succ]; omega
    rw [hnext, f.units_fields e hm, f.units_fields (e + 1) (Nat.two_pow_pos _)]
    cases e with
    | zero => simp; omega
    | succ e =>
      simp only [Nat.add_sub_cancel, Nat.add_one_ne_zero, if_false, Nat.pow_succ 2 e, Nat.zero_add]
      have := Nat.mul_lt_mul_of_pos_right (show m + 2 ^ f.mb < 2 ^ f.mb * 2 by omega) (Nat.two_pow_pos e)
      rwa [Nat.mul_assoc, Nat.mul_comm 2] at this

theorem Fmt.units_strictMono (f : Fmt) : StrictMono f.units := strictMono_nat_of_lt_succ f.units_lt_succ

/-- Two finite values compare as their mantissas do, brought to a common exponent. -/
theorem ltFin_add (q : Int) (n₁ n₂ : Bool) (m₁ m₂ d₁ d₂ : Nat) :
    ltFin n₁ m₁ (q + d₁) n₂ m₂ (q + d₂) = decide (sm n₁ (m₁ * 2 ^ d₁) < sm n₂ (m₂ * 2 ^ d₂)) := by
  have scaled (n : Bool) (m : Nat) {d c : Nat} (h : c ≤ d) :
      sm n (m * 2 ^ d) = sm n m * ((2 ^ (q + d - (q + c)).toNat : Nat) : Int) * (2 ^ c : Int) := by
    rw [show (q + d - (q + c)).toNat = d - c by omega, ← Nat.sub_add_cancel h, Nat.pow_add]
    cases n <;> simp [sm] <;> ring
  have hmin : min (q + d₁) (q + d₂) = q + (min d₁ d₂ : Nat) := by omega
  rw [ltFin, hmin, scaled n₁ m₁ (Nat.min_le_left d₁ d₂), scaled n₂ m₂ (Nat.min_le_right d₁ d₂)]
  exact decide_eq_decide.2 (Int.mul_lt_mul_right (by positivity)).symm

theorem sm_lt_sm_of_lt {a b : Nat} (h : a < b) (n k : Bool) : decide (sm n a < sm k b) = !k := by
  cases n <;> cases k <;> simp [sm] <;> omega

theorem sm_lt_sm_of_gt {a b : Nat} (h : b < a) (n k : Bool) : decide (sm n a < sm k b) = n := by
  cases n <;> cases k <;> simp [sm] <;> omega

theorem sm_lt_sm_self {a : Nat} (h : 0 < a) (n k : Bool) : decide (sm n a < sm k a) = (n && !k) := by
  cases n <;> cases k <;> simp [sm]
  omega

/-! ### What a code of a format with infinities stands for -/

section
variable {f : Fmt} (hinf : f.hasInf = true) (heb : 0 < f.eb) {x y : Nat}

include heb in
theorem Fmt.exponent_eq (x : Nat) : bits x (f.eb + f.mb - 1) f.mb = f.mag x / 2 ^ f.mb := by
  rw [bits, Fmt.mag, show f.eb + f.mb - 1 - f.mb + 1 = f.eb by omega, Nat.add_comm, Nat.pow_add, Nat.mod_mul_right_div_self]

theorem Fmt.mantissa_eq (f : Fmt) (x : Nat) : x % 2 ^ f.mb = f.mag x % 2 ^ f.mb := by
  rw [Fmt.mag, Nat.mod_mod_of_dvd _ (Nat.pow_dvd_pow 2 (Nat.le_add_left ..))]

include hinf heb in
theorem Fmt.decode_of_finite (hx : f.mag x < f.infCode false) :
    ∃ m d : Nat, f.decode x = .fin (bit x (f.eb + f.mb)) m (1 - (f.bias : Int) - f.mb + d) ∧
      m * 2 ^ d = f.units (f.mag x) := by
  rw [f.infCode_false] at hx
  have htop : f.mag x / 2 ^ f.mb ≠ 2 ^ f.eb - 1 := (Nat.div_lt_of_lt_mul (by rwa [Nat.mul_comm])).ne
  simp only [Fmt.decode, f.exponent_eq heb, f.mantissa_eq x, htop, hinf, Fmt.units]
  generalize f.mag x / 2 ^ f.mb = e, f.mag x % 2 ^ f.mb = m
  cases e with
  | zero => exact ⟨m, 0, by simp, by simp⟩
  | succ e => exact ⟨m + 2 ^ f.mb, e, by simp; omega, by simp⟩

include hinf heb in
theorem Fmt.decode_of_infinity (hx : f.mag x = f.infCode false) : f.decode x = .inf (bit x (f.eb + f.mb)) := by
  rw [f.infCode_false] at hx
  have htop : f.mag x / 2 ^ f.mb = 2 ^ f.eb - 1 := by rw [hx, Nat.mul_div_cancel _ (Nat.two_pow_pos _)]
  have hm : f.mag x % 2 ^ f.mb = 0 := by rw [hx, Nat.mul_mod_left]
  simp [Fmt.decode, f.exponent_eq heb, f.mantissa_eq x, htop, hm, hinf]

include hinf heb in
theorem Fmt.decode_of_nan (hx : f.infCode false < f.mag x) : f.decode x = .nan := by
  rw [f.infCode_false] at hx
  have hmag : f.mag x < 2 ^ f.eb * 2 ^ f.mb := by
    rw [← Nat.pow_add]; exact Nat.mod_lt _ (Nat.two_pow_pos _)
  have htop : f.mag x / 2 ^ f.mb = 2 ^ f.eb - 1 := by
    have h₁ := (Nat.le_div_iff_mul_le (Nat.two_pow_pos _)).2 hx.le
    have h₂ := (Nat.div_lt_iff_lt_mul (Nat.two_pow_pos _)).2 hmag
    omega
  have hm : f.mag x % 2 ^ f.mb ≠ 0 := fun h0 => by
    have := Nat.div_add_mod (f.mag x) (2 ^ f.mb)
    rw [htop, h0, Nat.mul_comm] at this
    omega
  simp [Fmt.decode, f.exponent_eq heb, f.mantissa_eq x, htop, hm, hinf]

include hinf heb in
theorem Fmt.isNan_eq (x : Nat) : f.isNan x = decide (f.infCode false < f.mag x) := by
  rw [Fmt.isNan, decide_eq_decide]
  rcases Nat.lt_trichotomy (f.mag x) (f.infCode false) with hx | hx | hx
  · obtain ⟨m, d, h, -⟩ := Fmt.decode_of_finite hinf heb hx
    simp [h, hx.le]
  · simp [Fmt.decode_of_infinity hinf heb hx, hx]
  · simp [Fmt.decode_of_nan hinf heb hx, hx]

/-- The signed number of smallest subnormals that a code stands for. -/
def Fmt.quanta (f : Fmt) (x : Nat) : Int := sm (bit x (f.eb + f.mb)) (f.units (f.mag x))

include hinf heb in
theorem Fmt.decode_lt (hx : f.mag x ≤ f.infCode false) (hy : f.mag y ≤ f.infCode false) :
    (f.decode x).lt (f.decode y) = decide (f.quanta x < f.quanta y) := by
  unfold Fmt.quanta
  rcases Nat.lt_or_eq_of_le hx with hx | hx <;> rcases Nat.lt_or_eq_of_le hy with hy | hy
  · obtain ⟨m, d, h, hm⟩ := Fmt.decode_of_finite hinf heb hx
    obtain ⟨n, c, k, hn⟩ := Fmt.decode_of_finite hinf heb hy
    rw [h, k, FV.lt, ltFin_add, hm, hn]
  · obtain ⟨m, d, h, -⟩ := Fmt.decode_of_finite hinf heb hx
    rw [h, Fmt.decode_of_infinity hinf heb hy, FV.lt, sm_lt_sm_of_lt (f.units_strictMono (hx.trans_eq hy.symm))]
  · obtain ⟨m, d, h, -⟩ := Fmt.decode_of_finite hinf heb hy
    rw [h, Fmt.decode_of_infinity hinf heb hx, FV.lt, sm_lt_sm_of_gt (f.units_strictMono (hy.trans_eq hx.symm))]
  · rw [Fmt.decode_of_infinity hinf heb hx, Fmt.decode_of_infinity hinf heb hy, FV.lt, hx, hy,
      sm_lt_sm_self (Nat.zero_lt_of_lt (f.units_strictMono (Fmt.infCode_false_pos heb)))]

theorem signOrder_eq (f : Fmt) (x : Nat) :
    signOrder (f.eb + f.mb + 1) x = if bit x (f.eb + f.mb) then -(f.mag x : Int) - 1 else f.mag x := by
  simp [signOrder, bit, Fmt.mag]

theorem FV.eqv_eq {v w : FV} (hv : v ≠ .nan) (hw : w ≠ .nan) : v.eqv w = (!v.lt w && !w.lt v) := by
  unfold FV.eqv
  split
  · exact absurd rfl hv
  · exact absurd rfl hw
  · rfl

include hinf heb in
/-- -0 and +0 alone are told apart by the sign and not by the value; -0 is the lower of them. -/
theorem Fmt.below_eq (hx : f.mag x ≤ f.infCode false) (hy : f.mag y ≤ f.infCode false) :
    f.below x y = decide (signOrder (f.eb + f.mb + 1) x < signOrder (f.eb + f.mb + 1) y) := by
  have number {z : Nat} (hz : f.mag z ≤ f.infCode false) : f.decode z ≠ .nan := by
    have h := Fmt.isNan_eq hinf heb z
    rwa [decide_eq_false (Nat.not_lt.2 hz), Fmt.isNan, decide_eq_false_iff_not] at h
  rw [Fmt.below, FV.eqv_eq (number hx) (number hy), Fmt.decode_lt hinf heb hx hy, Fmt.decode_lt hinf heb hy hx,
    signOrder_eq, signOrder_eq, Fmt.quanta, Fmt.quanta]
  have hlt := f.units_strictMono.lt_iff_lt (a := f.mag x) (b := f.mag y)
  have hgt := f.units_strictMono.lt_iff_lt (a := f.mag y) (b := f.mag x)
  cases bit x (f.eb + f.mb) <;> cases bit y (f.eb + f.mb) <;> simp [sm] <;> omega

include hinf heb in
/-- The choice that FMIN and FMAX share: a NaN loses, and of two numbers `later` says whether the second is taken. -/
theorem Fmt.choice_eq_pick2 {later first : Bool}
    (h : f.mag x ≤ f.infCode false → f.mag y ≤ f.infCode false → later = !first) :
    (if f.isNan x then (if f.isNan y then f.nan else y) else if f.isNan y then x else if later then y else x) =
      pick2 (decide (f.infCode false < f.mag x)) (decide (f.infCode false < f.mag y)) f.nan x y first := by
  rw [pick2, Fmt.isNan_eq hinf heb, Fmt.isNan_eq hinf heb]
  by_cases hx : f.infCode false < f.mag x
  · simp [hx]
  · by_cases hy : f.infCode false < f.mag y
    · simp [hx, hy]
    · rw [h (Nat.le_of_not_lt hx) (Nat.le_of_not_lt hy)]
      cases first <;> simp [hx, hy]

include hinf heb in
theorem Fmt.maxOf_eq_pick2 (x y : Nat) :
    f.maxOf x y = pick2 (decide (f.infCode false < f.mag x)) (decide (f.infCode false < f.mag y)) f.nan x y
      (decide (signOrder (f.eb + f.mb + 1) y ≤ signOrder (f.eb + f.mb + 1) x)) :=
  Fmt.choice_eq_pick2 hinf heb fun hx hy => by simp [Fmt.below_eq hinf heb hx hy, ← decide_not]

include hinf heb in
theorem Fmt.minOf_eq_pick2 (x y : Nat) :
    f.minOf x y = pick2 (decide (f.infCode false < f.mag x)) (decide (f.infCode false < f.mag y)) f.nan x y
      (decide (signOrder (f.eb + f.mb + 1) x ≤ signOrder (f.eb + f.mb + 1) y)) :=
  Fmt.choice_eq_pick2 hinf heb fun hx hy => by simp [Fmt.below_eq hinf heb hy hx, ← decide_not]

end

theorem fmaxw_eq_fmaxRule (x y : Word) : fmaxw x y = fmaxRule x y :=
  congrArg w32 (Fmt.maxOf_eq_pick2 (f := fp32) rfl (by decide) x.toNat y.toNat)

theorem fminw_eq_fminRule (x y : Word) : fminw x y = fminRule x y :=
  congrArg w32 (Fmt.minOf_eq_pick2 (f := fp32) rfl (by decide) x.toNat y.toNat)

theorem bf16_maxOf_eq_bfMaxRule (x y : Nat) : bf16.maxOf x y = bfMaxRule x y :=
  Fmt.maxOf_eq_pick2 (f := bf16) rfl (by decide) x y

theorem hmax2w_eq_bfMaxRule_halves (x y : Word) : hmax2w x y = BitVec.ofNat 32 (bfMaxRule (x.toNat % 65536) (y.toNat % 65536) +
    65536 * bfMaxRule (x.toNat / 65536) (y.toNat / 65536)) := by
  rw [hmax2w, halves, bf16_maxOf_eq_bfMaxRule, bf16_maxOf_eq_bfMaxRule, w32]

/-! ### The class of an FP32 word -/

theorem fv_eq_of_fields (x : Word) : fv x =
    if x.toNat / 2 ^ 23 % 256 = 255 then (if x.toNat % 2 ^ 23 = 0 then .inf x.msb else .nan)
    else if x.toNat / 2 ^ 23 % 256 = 0 then .fin x.msb (x.toNat % 2 ^ 23) (-149)
    else .fin x.msb (x.toNat % 2 ^ 23 + 2 ^ 23) ((x.toNat / 2 ^ 23 % 256 : Nat) - 127 - 23) := by
  have hsign : bit x.toNat 31 = x.msb := by
    rw [bit, BitVec.msb_eq_getLsbD_last, BitVec.getLsbD, Nat.testBit_eq_decide_div_mod_eq]
  simp [fv, Fmt.decode, fp32, bits, hsign]

theorem getLsbD_22_eq (x : Word) : x.getLsbD 22 = decide (2 ^ 22 ≤ x.toNat % 2 ^ 23) := by
  rw [BitVec.getLsbD, Nat.testBit_eq_decide_div_mod_eq, decide_eq_decide]
  omega

theorem fclassw_eq_two_pow_classBit (x : Word) : fclassw x = BitVec.ofNat 32 (2 ^ classBit x) := by
  unfold fclassw classBit
  rw [fv_eq_of_fields, getLsbD_22_eq, ← BitVec.msb_eq_getLsbD_last (x := x),
    show bits x.toNat 30 23 = x.toNat / 2 ^ 23 % 256 from rfl]
  generalize x.toNat / 2 ^ 23 % 256 = e, x.toNat % 2 ^ 23 = m, x.msb = neg
  -- R168: the exponent field of all ones, then of all zeros, then every other
  by_cases hinf : e = 255
  · by_cases hm : m = 0
    · cases neg <;> simp [hinf, hm]
    · rcases Nat.lt_or_ge m 0x400000 with hq | hq
      · simp [hinf, hm, hq, hq.not_ge]
      · simp [hinf, hm, hq, hq.not_gt]
  · by_cases he : e = 0
    · by_cases hm : m = 0 <;> cases neg <;> simp [he, hm]
    · cases neg <;> simp [hinf, he]

/-! ### The instructions -/

/-- An instruction that `perform`s one function of vd and va in each lane writes that function. -/
theorem laneDA_of_perform {mk : Hdr → Nat → Nat → Instr} {f g : Word → Word → Word}
    (hexec : ∀ h d a s, exec (mk h d a) s = perform s (lane2 (mk h d a) h d a f)) (hfg : ∀ x y, f x y = g x y) :
    LaneDA mk g := by
  intro h d a s hc
  obtain ⟨t, ht, hstep⟩ := laneWrite_step (d := d) (f := fun s l => f (s.v d l) (s.v a l))
    (po := fun s l => s.vp d l || s.vp a l) hc
  exact ⟨t, (hexec h d a s).trans ht, by simpa [hfg] using hstep⟩

theorem laneA_of_perform {mk : Hdr → Nat → Nat → Instr} {f g : Word → Word}
    (hexec : ∀ h d a s, exec (mk h d a) s = perform s (lane1 (mk h d a) h d a f)) (hfg : ∀ x, f x = g x) :
    LaneA mk g := by
  intro h d a s hc
  obtain ⟨t, ht, hstep⟩ := laneWrite_step (d := d) (f := fun s l => f (s.v a l)) (po := fun s l => s.vp a l) hc
  exact ⟨t, (hexec h d a s).trans ht, by simpa [hfg] using hstep⟩

/-- Settles O10: on numbers `below` is the order of the codes with the sign on top, in FP32 and in BF16. -/
theorem minMaxOrder : Obligations.MinMaxOrder :=
  ⟨laneDA_of_perform (fun _ _ _ _ => rfl) fminw_eq_fminRule, laneDA_of_perform (fun _ _ _ _ => rfl) fmaxw_eq_fmaxRule,
    laneDA_of_perform (fun _ _ _ _ => rfl) hmax2w_eq_bfMaxRule_halves⟩

/-- Settles O11: the class by the fields of the word. -/
theorem floatClasses : Obligations.FloatClasses :=
  laneA_of_perform (fun _ _ _ _ => rfl) fclassw_eq_two_pow_classBit

end Sys2Proof.Machine
end
